-- ==== Sys2Proof/Word.lean ====
section
/-! DEFINITION. Word.lean: the word types of the module (00 R6): bits are numbered from 0 at the least significant
end, and memory is little-endian. -/

namespace Sys2Proof

/-- A byte of memory. -/
abbrev Byte := BitVec 8

/-- A 64-bit scalar register, and one parcel of a bundle. -/
abbrev Word := BitVec 64

end Sys2Proof
end

