-- ==== Sys2Proof/Syntax.lean ====
section
/-! DEFINITION. Syntax.lean: the operand formats of 05 R100 and the ONE inductive of the model's instructions:
one constructor for each row of spec/opcode_table.json: Crion syllables first, then the Shuttle core's custom
instructions, then the empty bundle and the events of the module's units (first those the module's own clock brings about, then those its surroundings do). A field holds the raw number of the encoding's field;
WellFormed.lean says which numbers an entry admits. -/

namespace Sys2Proof

/-- The path tag and the guard of a syllable (05 R84): PATH, GPRED and GSENSE. -/
structure Guard where
  path : Nat
  pred : Nat
  sense : Bool
  deriving DecidableEq, Repr

/-- Format SX (scalar three-operand), 05 R100: [37:32] sd, [31:26] sa, [25:20] sb, [19:17] rm, [16:0] fn. -/
structure SX where
  sd : Nat
  sa : Nat
  sb : Nat
  rm : Nat
  fn : Nat
  deriving DecidableEq, Repr

/-- Format SI (scalar with a 26-bit immediate), 05 R100: [37:32] sd, [31:26] sa, [25:0] imm. -/
structure SI where
  sd : Nat
  sa : Nat
  imm : Nat
  deriving DecidableEq, Repr

/-- Format SL (scalar with a 32-bit immediate), 05 R100: [37:32] sd, [31:0] imm. -/
structure SL where
  sd : Nat
  imm : Nat
  deriving DecidableEq, Repr

/-- Format SP (predicate-producing), 05 R100: [37:32] pd, [31:26] xa, [25:20] xb, [19:16] cc, [15:0] fn. -/
structure SP where
  pd : Nat
  xa : Nat
  xb : Nat
  cc : Nat
  fn : Nat
  deriving DecidableEq, Repr

/-- Format SK (capability), 05 R100: [37:34] cd, [33:30] ca, [29:24] sa, [23:18] sb, [17:0] fn. -/
structure SK where
  cd : Nat
  ca : Nat
  sa : Nat
  sb : Nat
  fn : Nat
  deriving DecidableEq, Repr

/-- Format SM (special-register move), 05 R100: [37:32] sd, [31:22] num. -/
structure SM where
  sd : Nat
  num : Nat
  deriving DecidableEq, Repr

/-- Format VX (vector two-source), 05 R100: [37:36] w, [35:32] t, [31:29] rm, [28] z, [27:23] msk, [22:16] vd, [15:8] va, [7:0] vb. -/
structure VX where
  w : Nat
  t : Nat
  rm : Nat
  z : Nat
  msk : Nat
  vd : Nat
  va : Nat
  vb : Nat
  deriving DecidableEq, Repr

/-- Format VY (vector three-source), 05 R100: [37:36] w, [35:34] ft, [33:31] rm, [30:24] vd, [23:16] va, [15:8] vb, [7:0] vc. -/
structure VY where
  w : Nat
  ft : Nat
  rm : Nat
  vd : Nat
  va : Nat
  vb : Nat
  vc : Nat
  deriving DecidableEq, Repr

/-- Format VC (vector conversion), 05 R100: [37:36] w, [35:31] st, [30:26] dt, [25:23] rm, [22] sat, [21] z, [20:16] msk, [14:8] vd, [7:0] va. -/
structure VC where
  w : Nat
  st : Nat
  dt : Nat
  rm : Nat
  sat : Nat
  z : Nat
  msk : Nat
  vd : Nat
  va : Nat
  deriving DecidableEq, Repr

/-- Format VI (vector with a 16-bit immediate), 05 R100: [37:36] w, [35:32] t, [30:24] vd, [23:16] va, [15:0] imm. -/
structure VI where
  w : Nat
  t : Nat
  vd : Nat
  va : Nat
  imm : Nat
  deriving DecidableEq, Repr

/-- Format VM (lane-mask), 05 R100: [37:36] w, [35:32] ed, [31:28] ea, [27:24] eb, [23:18] sd, [17:0] fn. -/
structure VM where
  w : Nat
  ed : Nat
  ea : Nat
  eb : Nat
  sd : Nat
  fn : Nat
  deriving DecidableEq, Repr

/-- Format VQ (queue advance), 05 R100: [37:32] qn, [31:22] cnt. -/
structure VQ where
  qn : Nat
  cnt : Nat
  deriving DecidableEq, Repr

/-- Format MA (matrix multiply), 05 R100: [37:34] acc, [33:28] sa, [27:22] sb, [21:15] mr, [14:11] em, [10] skip, [9:6] fmt, [5:0] fn. -/
structure MA where
  acc : Nat
  sa : Nat
  sb : Nat
  mr : Nat
  em : Nat
  skip : Nat
  fmt : Nat
  fn : Nat
  deriving DecidableEq, Repr

/-- Format MW (weight stage), 05 R100: [37:34] wb, [33:28] sa, [27:22] sb, [21:18] fmt, [17:0] fn. -/
structure MW where
  wb : Nat
  sa : Nat
  sb : Nat
  fmt : Nat
  fn : Nat
  deriving DecidableEq, Repr

/-- Format MT (tile), 05 R100: [37:34] acc, [33:30] bt, [29:24] sa, [23:21] rm, [20:17] fmt, [16:0] fn. -/
structure MT where
  acc : Nat
  bt : Nat
  sa : Nat
  rm : Nat
  fmt : Nat
  fn : Nat
  deriving DecidableEq, Repr

/-- Format MC (matrix configuration), 05 R100: [37:32] sa, [31:0] imm. -/
structure MC where
  sa : Nat
  imm : Nat
  deriving DecidableEq, Repr

/-- Format MM (memory by capability and offset), 05 R100: [37:30] ds, [29:26] cb, [25:20] so, [19:16] cl, [15] lu, [14:12] sz, [11:0] imm. -/
structure MM where
  ds : Nat
  cb : Nat
  so : Nat
  cl : Nat
  lu : Nat
  sz : Nat
  imm : Nat
  deriving DecidableEq, Repr

/-- Format MD (remote and atomic memory), 05 R100: [37:30] ds, [29:26] cb, [25:20] so, [19:16] cl, [15:0] fn. -/
structure MD where
  ds : Nat
  cb : Nat
  so : Nat
  cl : Nat
  fn : Nat
  deriving DecidableEq, Repr

/-- Format MS (stream arm and stop), 05 R100: [37:35] gk, [34:31] cb, [30:25] sa, [24:0] fn. -/
structure MS where
  gk : Nat
  cb : Nat
  sa : Nat
  fn : Nat
  deriving DecidableEq, Repr

/-- Format MQ (ring, fence and barrier), 05 R100: [37:32] sa, [31:26] sb, [25:0] imm. -/
structure MQ where
  sa : Nat
  sb : Nat
  imm : Nat
  deriving DecidableEq, Repr

/-- Format EC (engine command), 05 R100: [37:34] sem, [33:30] cl, [29:26] cb, [25:20] sa, [19:14] sb, [13:0] fn. -/
structure EC where
  sem : Nat
  cl : Nat
  cb : Nat
  sa : Nat
  sb : Nat
  fn : Nat
  deriving DecidableEq, Repr

/-- Format YJ (call), 05 R100: [37:32] sd, [31:0] imm. -/
structure YJ where
  sd : Nat
  imm : Nat
  deriving DecidableEq, Repr

/-- Format YX (control and system), 05 R100: [37:32] xa, [31:26] xb, [25:20] xc, [19:0] fn. -/
structure YX where
  xa : Nat
  xb : Nat
  xc : Nat
  fn : Nat
  deriving DecidableEq, Repr

/-- A flit's header and payload (15 R301), FCRC as it leaves in CLEAR mode. The payload is the 112 bytes after the 16-byte header, byte 0 lowest;
in AUTH and SEAL mode its last 8 bytes are the tag. `aux` is what an operation needs beside the fields R301 places: the destination core and
handler of a message, and whether a request has been forwarded (log 32). -/
structure Flit where
  dst : Nat
  src : Nat
  vc : Nat
  rly : Bool
  kind : Nat
  cl : Nat
  seq : Nat
  tag : Nat
  inc : Nat
  cret : Nat
  len : Nat
  last : Bool
  via : Nat
  aux : Nat
  fcrc : Nat
  payload : BitVec 896
  deriving DecidableEq, Repr

/-- Where a flit stands in the slot schedule (15 R298 to R300): its rotation, slot, port and pair of rings, and its
number in the slot; a resend stands in the position it fills (25 R428). -/
structure FlitPos where
  rot : Nat
  slot : Nat
  port : Nat
  pair : Nat
  k : Nat
  deriving DecidableEq, Repr

/-- The instructions and events of the opcode table. -/
inductive Instr where
  /-- ADD (R116). -/
  | add (g : Guard) (f : SX)
  /-- ADDI (R119). -/
  | addi (g : Guard) (f : SI)
  /-- SUB (R116). -/
  | sub (g : Guard) (f : SX)
  /-- MUL (R116). -/
  | mul (g : Guard) (f : SX)
  /-- MULH (R116). -/
  | mulh (g : Guard) (f : SX)
  /-- MULHU (R116). -/
  | mulhu (g : Guard) (f : SX)
  /-- DIV (R116). -/
  | div (g : Guard) (f : SX)
  /-- DIVU (R116). -/
  | divu (g : Guard) (f : SX)
  /-- REM (R116). -/
  | rem (g : Guard) (f : SX)
  /-- REMU (R116). -/
  | remu (g : Guard) (f : SX)
  /-- AND (R116). -/
  | and (g : Guard) (f : SX)
  /-- OR (R116). -/
  | or (g : Guard) (f : SX)
  /-- XOR (R116). -/
  | xor (g : Guard) (f : SX)
  /-- ANDN (R116). -/
  | andn (g : Guard) (f : SX)
  /-- SHL_REG (R117). -/
  | shlReg (g : Guard) (f : SX)
  /-- SHL_IMM (R117). -/
  | shlImm (g : Guard) (f : SX)
  /-- SHR_REG (R117). -/
  | shrReg (g : Guard) (f : SX)
  /-- SHR_IMM (R117). -/
  | shrImm (g : Guard) (f : SX)
  /-- SRA_REG (R117). -/
  | sraReg (g : Guard) (f : SX)
  /-- SRA_IMM (R117). -/
  | sraImm (g : Guard) (f : SX)
  /-- ROT_REG (R117). -/
  | rotReg (g : Guard) (f : SX)
  /-- ROT_IMM (R117). -/
  | rotImm (g : Guard) (f : SX)
  /-- CLZ (R118). -/
  | clz (g : Guard) (f : SX)
  /-- CTZ (R118). -/
  | ctz (g : Guard) (f : SX)
  /-- POPC (R118). -/
  | popc (g : Guard) (f : SX)
  /-- BEXT (R118). -/
  | bext (g : Guard) (f : SX)
  /-- BDEP (R118). -/
  | bdep (g : Guard) (f : SX)
  /-- SEXT (R118). -/
  | sext (g : Guard) (f : SX)
  /-- ZEXT (R118). -/
  | zext (g : Guard) (f : SX)
  /-- MIN (R116). -/
  | min (g : Guard) (f : SX)
  /-- MAX (R116). -/
  | max (g : Guard) (f : SX)
  /-- MINU (R116). -/
  | minu (g : Guard) (f : SX)
  /-- MAXU (R116). -/
  | maxu (g : Guard) (f : SX)
  /-- SEL (R120). -/
  | sel (g : Guard) (f : SX)
  /-- LI (R121). -/
  | li (g : Guard) (f : SL)
  /-- LIH (R121). -/
  | lih (g : Guard) (f : SL)
  /-- CMP_REG (R122). -/
  | cmpReg (g : Guard) (f : SP)
  /-- CMP_IMM (R122). -/
  | cmpImm (g : Guard) (f : SP)
  /-- TSTB_REG (R123). -/
  | tstbReg (g : Guard) (f : SP)
  /-- TSTB_IMM (R123). -/
  | tstbImm (g : Guard) (f : SP)
  /-- PAND (R124). -/
  | pand (g : Guard) (f : SP)
  /-- POR (R124). -/
  | por (g : Guard) (f : SP)
  /-- PXOR (R124). -/
  | pxor (g : Guard) (f : SP)
  /-- PNOT (R124). -/
  | pnot (g : Guard) (f : SP)
  /-- PMOV (R124). -/
  | pmov (g : Guard) (f : SP)
  /-- SFADD (R126). -/
  | sfadd (g : Guard) (f : SX)
  /-- SFMUL (R126). -/
  | sfmul (g : Guard) (f : SX)
  /-- SFMA (R126). -/
  | sfma (g : Guard) (f : SX)
  /-- SFCMP (R127). -/
  | sfcmp (g : Guard) (f : SP)
  /-- SFCVT (R128). -/
  | sfcvt (g : Guard) (f : SX)
  /-- CDERIVE (R130). -/
  | cderive (g : Guard) (f : SK)
  /-- CSETB (R130). -/
  | csetb (g : Guard) (f : SK)
  /-- CRIGHTS (R131). -/
  | crights (g : Guard) (f : SK)
  /-- CGET (R132). -/
  | cget (g : Guard) (f : SK)
  /-- CTEST (R133). -/
  | ctest (g : Guard) (f : SK)
  /-- MOVSP (R134). -/
  | movsp (g : Guard) (f : SM)
  /-- MOVTS (R134). -/
  | movts (g : Guard) (f : SM)
  /-- QCFG_WRITE (R51). -/
  | qcfgWrite (g : Guard) (f : SM)
  /-- SYNCPART_WRITE (R135). -/
  | syncpartWrite (g : Guard) (f : SM)
  /-- FECLR_WRITE (R60). -/
  | feclrWrite (g : Guard) (f : SM)
  /-- SRSEED_WRITE (R71). -/
  | srseedWrite (g : Guard) (f : SM)
  /-- VADD (R151). -/
  | vadd (g : Guard) (b : Bool) (f : VX)
  /-- VSUB (R151). -/
  | vsub (g : Guard) (b : Bool) (f : VX)
  /-- VMUL (R151). -/
  | vmul (g : Guard) (b : Bool) (f : VX)
  /-- VFMA (R153). -/
  | vfma (g : Guard) (b : Bool) (f : VY)
  /-- VFMS (R153). -/
  | vfms (g : Guard) (b : Bool) (f : VY)
  /-- VFNMA (R153). -/
  | vfnma (g : Guard) (b : Bool) (f : VY)
  /-- VMIN (R151). -/
  | vmin (g : Guard) (b : Bool) (f : VX)
  /-- VMAX (R151). -/
  | vmax (g : Guard) (b : Bool) (f : VX)
  /-- VABS (R151). -/
  | vabs (g : Guard) (b : Bool) (f : VX)
  /-- VNEG (R151). -/
  | vneg (g : Guard) (b : Bool) (f : VX)
  /-- VCMP (R152). -/
  | vcmp (g : Guard) (b : Bool) (f : VX)
  /-- VAND (R151). -/
  | vand (g : Guard) (b : Bool) (f : VX)
  /-- VOR (R151). -/
  | vor (g : Guard) (b : Bool) (f : VX)
  /-- VXOR (R151). -/
  | vxor (g : Guard) (b : Bool) (f : VX)
  /-- VSHL (R151). -/
  | vshl (g : Guard) (b : Bool) (f : VX)
  /-- VSHR (R151). -/
  | vshr (g : Guard) (b : Bool) (f : VX)
  /-- VSRA (R151). -/
  | vsra (g : Guard) (b : Bool) (f : VX)
  /-- VCVT (R154). -/
  | vcvt (g : Guard) (b : Bool) (f : VC)
  /-- VRND (R151). -/
  | vrnd (g : Guard) (b : Bool) (f : VX)
  /-- VRCP (R157). -/
  | vrcp (g : Guard) (f : VX)
  /-- VRSQ (R157). -/
  | vrsq (g : Guard) (f : VX)
  /-- VEXP2 (R157). -/
  | vexp2 (g : Guard) (f : VX)
  /-- VLOG2 (R157). -/
  | vlog2 (g : Guard) (f : VX)
  /-- VSUM (R158). -/
  | vsum (g : Guard) (b : Bool) (f : VX)
  /-- VMAXR (R158). -/
  | vmaxr (g : Guard) (b : Bool) (f : VX)
  /-- VDOT (R158). -/
  | vdot (g : Guard) (b : Bool) (f : VX)
  /-- VCMUL (R159). -/
  | vcmul (g : Guard) (b : Bool) (f : VX)
  /-- VCMA (R153). -/
  | vcma (g : Guard) (b : Bool) (f : VY)
  /-- VCONJ (R159). -/
  | vconj (g : Guard) (b : Bool) (f : VX)
  /-- VPERM (R160). -/
  | vperm (g : Guard) (f : VX)
  /-- VSHUF (R161). -/
  | vshuf (g : Guard) (f : VI)
  /-- VBCAST (R162). -/
  | vbcast (g : Guard) (b : Bool) (f : VI)
  /-- VSEL (R162). -/
  | vsel (g : Guard) (b : Bool) (f : VX)
  /-- VMOV (R162). -/
  | vmov (g : Guard) (b : Bool) (f : VX)
  /-- VPACK (R155). -/
  | vpack (g : Guard) (f : VC)
  /-- VUNPK (R155). -/
  | vunpk (g : Guard) (f : VC)
  /-- VSCL (R151). -/
  | vscl (g : Guard) (b : Bool) (f : VX)
  /-- VIMAD (R153). -/
  | vimad (g : Guard) (b : Bool) (f : VY)
  /-- VSAT (R156). -/
  | vsat (g : Guard) (b : Bool) (f : VC)
  /-- VMSET (R163). -/
  | vmset (g : Guard) (b : Bool) (f : VM)
  /-- VMAND (R163). -/
  | vmand (g : Guard) (b : Bool) (f : VM)
  /-- VMOR (R163). -/
  | vmor (g : Guard) (b : Bool) (f : VM)
  /-- VMNOT (R163). -/
  | vmnot (g : Guard) (b : Bool) (f : VM)
  /-- VMCNT (R163). -/
  | vmcnt (g : Guard) (b : Bool) (f : VM)
  /-- VMFIRST (R163). -/
  | vmfirst (g : Guard) (b : Bool) (f : VM)
  /-- QADV (R164). -/
  | qadv (g : Guard) (b : Bool) (f : VQ)
  /-- MMA (R170). -/
  | mma (g : Guard) (f : MA)
  /-- MMAZ (R170). -/
  | mmaz (g : Guard) (f : MA)
  /-- MMAS (R170). -/
  | mmas (g : Guard) (f : MA)
  /-- MWLD (R172). -/
  | mwld (g : Guard) (f : MW)
  /-- MWPF (R172). -/
  | mwpf (g : Guard) (f : MW)
  /-- MNEST (R173). -/
  | mnest (g : Guard) (f : MC)
  /-- MZERO (R174). -/
  | mzero (g : Guard) (f : MT)
  /-- MACC (R174). -/
  | macc (g : Guard) (f : MT)
  /-- MTRN (R174). -/
  | mtrn (g : Guard) (f : MT)
  /-- MRED (R174). -/
  | mred (g : Guard) (f : MT)
  /-- MCVT (R175). -/
  | mcvt (g : Guard) (f : MT)
  /-- MWAIT (R176). -/
  | mwait (g : Guard) (f : MT)
  /-- MCFG (R177). -/
  | mcfg (g : Guard) (f : MC)
  /-- LDS (R219). -/
  | lds (g : Guard) (f : MM)
  /-- LDV (R219). -/
  | ldv (g : Guard) (f : MM)
  /-- LDB (R222). -/
  | ldb (g : Guard) (f : MM)
  /-- LDX (R221). -/
  | ldx (g : Guard) (f : MM)
  /-- LDF (R223). -/
  | ldf (g : Guard) (f : MM)
  /-- PREF (R224). -/
  | pref (g : Guard) (f : MM)
  /-- SPARM (R228). -/
  | sparm (g : Guard) (f : MS)
  /-- SPSTOP (R230). -/
  | spstop (g : Guard) (f : MS)
  /-- RNGWAIT (R231). -/
  | rngwait (g : Guard) (f : MQ)
  /-- RNGWAIT_PROD (R231). -/
  | rngwaitProd (g : Guard) (f : MQ)
  /-- RNGADV (R231). -/
  | rngadv (g : Guard) (f : MQ)
  /-- RNGPUB (R231). -/
  | rngpub (g : Guard) (f : MQ)
  /-- FSCQ (R253). -/
  | fscq (g : Guard) (f : MQ)
  /-- FSCQ_REG (R253). -/
  | fscqReg (g : Guard) (f : MQ)
  /-- FSCQ_WAIT (R253). -/
  | fscqWait (g : Guard) (f : MQ)
  /-- LDR (R249). -/
  | ldr (g : Guard) (f : MD)
  /-- LDRW (R249). -/
  | ldrw (g : Guard) (f : MD)
  /-- STS (R219). -/
  | sts (g : Guard) (f : MM)
  /-- STV (R219). -/
  | stv (g : Guard) (f : MM)
  /-- STB (R222). -/
  | stb (g : Guard) (f : MM)
  /-- STX (R221). -/
  | stx (g : Guard) (f : MM)
  /-- STR (R250). -/
  | str (g : Guard) (f : MD)
  /-- ATOM (R225). -/
  | atom (g : Guard) (f : MD)
  /-- ATOMR (R251). -/
  | atomr (g : Guard) (f : MD)
  /-- FENCE (R227). -/
  | fence (g : Guard) (f : MQ)
  /-- FENCEF (R252). -/
  | fencef (g : Guard) (f : MQ)
  /-- ARREXP (R234). -/
  | arrexp (g : Guard) (f : MQ)
  /-- ARRIVE (R234). -/
  | arrive (g : Guard) (f : MQ)
  /-- ARRIVE_WAIT (R234). -/
  | arriveWait (g : Guard) (f : MQ)
  /-- CPY (R185). -/
  | cpy (g : Guard) (f : EC)
  /-- CPYR_GET (R254). -/
  | cpyrGet (g : Guard) (f : EC)
  /-- CPYR_PUT (R254). -/
  | cpyrPut (g : Guard) (f : EC)
  /-- SUBS_LD (R187). -/
  | subsLd (g : Guard) (f : EC)
  /-- SUBS_ST (R187). -/
  | subsSt (g : Guard) (f : EC)
  /-- UNSUB (R188). -/
  | unsub (g : Guard) (f : EC)
  /-- DRAIN (R189). -/
  | drain (g : Guard) (f : EC)
  /-- SFE (R190). -/
  | sfe (g : Guard) (f : EC)
  /-- GQPUSH (R316). -/
  | gqpush (g : Guard) (f : EC)
  /-- COLL (R256). -/
  | coll (g : Guard) (f : EC)
  /-- SEND (R255). -/
  | send (g : Guard) (f : EC)
  /-- CKMARK (R257). -/
  | ckmark (g : Guard) (f : EC)
  /-- CALL (R138). -/
  | call (g : Guard) (f : YJ)
  /-- RET (R139). -/
  | ret (g : Guard) (f : YX)
  /-- JMPI (R139). -/
  | jmpi (g : Guard) (f : YX)
  /-- LOOP_REG (R140). -/
  | loopReg (g : Guard) (f : YX)
  /-- LOOP_IMM (R140). -/
  | loopImm (g : Guard) (f : YX)
  /-- BRT (R94). The tree syllable: shape, four tests [6:0] and four raw displacements. -/
  | brt (shape : Nat) (t0 : Nat) (t1 : Nat) (t2 : Nat) (t3 : Nat) (d1 : Nat) (d2 : Nat) (d3 : Nat) (d4 : Nat)
  /-- HINT (R102). Slot number, opcode less 0xF0, and bits [47:0]. -/
  | hint (slot : Nat) (n : Nat) (imm : Nat)
  /-- SYNC (R238). The line mask. -/
  | sync (mask : Nat)
  /-- WAITS_IMM (R239). -/
  | waitsImm (g : Guard) (f : YX)
  /-- WAITS_REG (R239). -/
  | waitsReg (g : Guard) (f : YX)
  /-- TSPAWN (R241). -/
  | tspawn (g : Guard) (f : YX)
  /-- TJOIN (R242). -/
  | tjoin (g : Guard) (f : YX)
  /-- TSEAL_IMM (R241). -/
  | tsealImm (g : Guard) (f : YX)
  /-- TSEAL_REG (R241). -/
  | tsealReg (g : Guard) (f : YX)
  /-- TSIGNAL (R33). -/
  | tsignal (g : Guard) (f : YX)
  /-- TEXIT (R243). -/
  | texit (g : Guard) (f : YX)
  /-- TCANCEL_IMM (R244). -/
  | tcancelImm (g : Guard) (f : YX)
  /-- TCANCEL_REG (R244). -/
  | tcancelReg (g : Guard) (f : YX)
  /-- TPRIO_IMM (R245). -/
  | tprioImm (g : Guard) (f : YX)
  /-- TPRIO_REG (R245). -/
  | tprioReg (g : Guard) (f : YX)
  /-- TLVREC_IMM (R460). -/
  | tlvrecImm (g : Guard) (f : YX)
  /-- TLVREC_REG (R460). -/
  | tlvrecReg (g : Guard) (f : YX)
  /-- WFORK (R332). -/
  | wfork (g : Guard) (f : YX)
  /-- WCHOOSE_IMM (R344). -/
  | wchooseImm (g : Guard) (f : YX)
  /-- WCHOOSE_REG (R344). -/
  | wchooseReg (g : Guard) (f : YX)
  /-- WDONE (R342). -/
  | wdone (g : Guard) (f : YX)
  /-- WDISCARD (R343). -/
  | wdiscard (g : Guard) (f : YX)
  /-- WTAG_OWN (R347). -/
  | wtagOwn (g : Guard) (f : YX)
  /-- WTAG_QUERY (R347). -/
  | wtagQuery (g : Guard) (f : YX)
  /-- ERTQ (R323). -/
  | ertq (g : Guard) (f : YX)
  /-- TRAP (R246). -/
  | trap (g : Guard) (f : YX)
  /-- BKPT (R246). -/
  | bkpt (g : Guard) (f : YX)
  /-- ERET (R381). -/
  | eret (g : Guard) (f : YX)
  /-- HALT (R143). -/
  | halt (g : Guard) (f : YX)
  /-- CTXSAVE (R260). -/
  | ctxsave (g : Guard) (f : YX)
  /-- RESTORE (R261). -/
  | restore (g : Guard) (f : YX)
  /-- OTINV (R262). -/
  | otinv (g : Guard) (f : YX)
  /-- GQPOP (R318). Shuttle custom instruction. -/
  | gqpop (rd : Nat) (rs1 : Nat)
  /-- RRPUT (R324). Shuttle custom instruction. -/
  | rrput (rd : Nat) (rs1 : Nat) (rs2 : Nat)
  /-- ERTGET (R322). Shuttle custom instruction. -/
  | ertget (rd : Nat) (rs1 : Nat) (rs2 : Nat)
  /-- ERTSET (R322). Shuttle custom instruction. -/
  | ertset (rd : Nat) (rs1 : Nat) (rs2 : Nat)
  /-- PARK (R328). Shuttle custom instruction. -/
  | park (rd : Nat) (rs1 : Nat) (rs2 : Nat)
  /-- UNPARK (R328). Shuttle custom instruction. -/
  | unpark (rd : Nat) (rs1 : Nat)
  /-- FWDROW (R326). Shuttle custom instruction. -/
  | fwdrow (rd : Nat) (rs1 : Nat) (rs2 : Nat)
  /-- DTILE (R325). Shuttle custom instruction. -/
  | dtile (rd : Nat) (rs1 : Nat)
  /-- EMPTY_BUNDLE (R85). A group of one bundle without syllables, with its MARK, YIELD and JOIN bits. -/
  | emptyBundle (mark : Bool) (yield : Bool) (join : Bool)
  /-- SHADOW_WRITE_LAND (R44). Event. -/
  | shadowWriteLand (core : Nat) (ctx : Nat)
  /-- STRETCH_END_CHOICE (R31). Event. -/
  | stretchEndChoice (core : Nat)
  /-- ISSUE_PREEMPTION (R284). Event. -/
  | issuePreemption (core : Nat)
  /-- PREEMPT_HOLD_TIMEOUT (R378). Event. -/
  | preemptHoldTimeout (core : Nat)
  /-- DEMAND_EXCHANGE_DONE (R49). Event. -/
  | demandExchangeDone (core : Nat)
  /-- SYNC_RELEASE (R40). Event. -/
  | syncRelease (die : Nat) (line : Nat) (seg : Nat)
  /-- SYNC_WATCHDOG (R378). Event. -/
  | syncWatchdog (core : Nat)
  /-- DISPATCH (R280). Event. -/
  | dispatch (die : Nat)
  /-- TASK_BIND (R280). Event. -/
  | taskBind (die : Nat)
  /-- SLOT_PREEMPT_CHOOSE (R285). Event. -/
  | slotPreemptChoose (die : Nat)
  /-- SLOT_PREEMPT_SAVE_DONE (R285). Event. -/
  | slotPreemptSaveDone (core : Nat) (ctx : Nat)
  /-- GUEST_END_RESTORE (R286). Event. -/
  | guestEndRestore (core : Nat) (ctx : Nat)
  /-- TASK_END_COMPLETE (R243). Event. -/
  | taskEndComplete (core : Nat) (ctx : Nat)
  /-- CONTINUATION_READY (R41). Event. -/
  | continuationReady (die : Nat) (rec : Nat)
  /-- COMPLETION_RECORD_READY (R24). Event. -/
  | completionRecordReady (level : Nat)
  /-- MX_OP_END (R166). Event. -/
  | mxOpEnd (core : Nat)
  /-- WEIGHT_LOAD_COMPLETE (R172). Event. -/
  | weightLoadComplete (core : Nat)
  /-- ENGINE_GUARD_RESOLVED (R182). Event. -/
  | engineGuardResolved (core : Nat) (ctx : Nat) (eng : Nat)
  /-- GUARD_NEVER_WRITTEN (R399). Event. -/
  | guardNeverWritten (core : Nat) (ctx : Nat) (eng : Nat)
  /-- ENGINE_BEAT (R183). Event. -/
  | engineBeat (core : Nat) (ctx : Nat) (eng : Nat)
  /-- ENGINE_COMMAND_COMPLETE (R183). Event. -/
  | engineCommandComplete (core : Nat) (ctx : Nat) (eng : Nat)
  /-- LOADER_SLOT_PUBLISH (R187). Event. -/
  | loaderSlotPublish (core : Nat) (ctx : Nat) (sub : Nat)
  /-- STORER_SLOT_WRITTEN (R187). Event. -/
  | storerSlotWritten (core : Nat) (ctx : Nat) (sub : Nat)
  /-- STREAM_FETCH (R229). Event. -/
  | streamFetch (core : Nat) (ctx : Nat) (port : Nat)
  /-- STORE_PERFORMED (R220). Event. -/
  | storePerformed (core : Nat)
  /-- ATOMIC_PERFORMED (R225). Event. -/
  | atomicPerformed (core : Nat)
  /-- FAR_ACCESS_ARRIVAL (R212). Event. -/
  | farAccessArrival (die : Nat)
  /-- HEAT_SWEEP (R201). Event. -/
  | heatSweep (die : Nat)
  /-- HELD_REQUEST_SERVED (R422). Event. -/
  | heldRequestServed (stack : Nat)
  /-- CONTEXT_FREEZE (R423). Event. -/
  | contextFreeze (core : Nat) (ctx : Nat)
  /-- CONTEXT_UNFREEZE (R423). Event. -/
  | contextUnfreeze (core : Nat) (ctx : Nat)
  /-- OCCUPANCY_FLUSH (R288). Event. -/
  | occupancyFlush (core : Nat)
  /-- CTXSAVE_IMAGE_PERFORMED (R260). Event. -/
  | ctxsaveImagePerformed (core : Nat) (ctx : Nat)
  /-- ASYNC_TRAP_TAKEN (R376). Event. -/
  | asyncTrapTaken (core : Nat)
  /-- SWAP_COMPLETE (R290). Event. -/
  | swapComplete (group : Nat)
  /-- LATE_DATA_ARRIVAL (R390). Event. -/
  | lateDataArrival (core : Nat) (ctx : Nat) (tag : Nat)
  /-- TAG_TIMEOUT (R434). Event. -/
  | tagTimeout (die : Nat) (tag : Nat)
  /-- SHUTTLE_EXCEPTION (R312). Event. -/
  | shuttleException (die : Nat) (cause : Nat) (tval : Nat)
  /-- WFI_WAKE (R312). Event. -/
  | wfiWake (die : Nat)
  /-- BOBBIN_BACKING_WRITE (R50). Event. -/
  | bobbinBackingWrite (core : Nat)
  /-- DORMANT_COUNT_REPORT (R279). Event. -/
  | dormantCountReport (core : Nat)
  /-- SIGNAL_ARRIVAL (R32). Event. -/
  | signalArrival (die : Nat) (counter : Nat)
  /-- MESSAGE_ARRIVAL (R35). Event. -/
  | messageArrival (die : Nat)
  /-- MESSAGE_CREATE_RETRY (R443). Event. -/
  | messageCreateRetry (die : Nat)
  /-- EVENT_COUNTER_SOURCE (R37). Event. -/
  | eventCounterSource (die : Nat) (src : Nat) (amount : Nat)
  /-- OBJECT_ENTRY_FETCHED (R414). Event. -/
  | objectEntryFetched (core : Nat) (obj : Nat)
  /-- EXTENT_FILL_COMPLETE (R416). Event. -/
  | extentFillComplete
  /-- NEIGHBOUR_REFRESH (R211). Event. -/
  | neighbourRefresh (stack : Nat)
  /-- THERMAL_HOLD_START (R422). Event. -/
  | thermalHoldStart (stack : Nat) (temp : Nat)
  /-- THERMAL_HOLD_END (R422). Event. -/
  | thermalHoldEnd (stack : Nat) (temp : Nat)
  /-- HOLD_LIMIT_EXCEEDED (R424). Event. -/
  | holdLimitExceeded (core : Nat) (ctx : Nat)
  /-- MEMORY_ECC_ERROR (R420). Event. -/
  | memoryEccError (gran : Nat) (kind : Nat)
  /-- ERROR_LOG_POLL (R426). Event. -/
  | errorLogPoll (die : Nat)
  /-- HOST_CXL_ACCESS (R350). Event. -/
  | hostCxlAccess (kind : Nat) (addr : Nat) (len : Nat) (data : Nat)
  /-- REGION_DEMAND_SWAP (R291). Event. -/
  | regionDemandSwap (core : Nat) (region : Nat)
  /-- BACKGROUND_SPILL (R291). Event. -/
  | backgroundSpill (core : Nat)
  /-- EFFECT_RELEASE (R346). Event. -/
  | effectRelease
  /-- WORLD_FREED (R331). Event. -/
  | worldFreed (tag : Nat)
  /-- COLLECTIVE_COMPLETE (R256). Event. -/
  | collectiveComplete (core : Nat) (ctx : Nat) (sources : List (Nat × List Byte))
  /-- EXPERT_FILL_COMPLETE (R328). Event. -/
  | expertFillComplete
  /-- TIER_READ_FAILURE (R448). Event. -/
  | tierReadFailure
  /-- FORWARDED_ROW_ARRIVAL (R326). Event. -/
  | forwardedRowArrival (die : Nat)
  /-- ROTATION_START (R296). Event. -/
  | rotationStart (away : Nat)
  /-- SLOT_BOUNDARY (R296). Event. -/
  | slotBoundary
  /-- FLIT_TRANSMIT (R303). Event. -/
  | flitTransmit (die : Nat) (port : Nat) (pair : Nat)
  /-- FLIT_RECEIVE (R428). Event. -/
  | flitReceive (die : Nat) (pos : FlitPos) (f : Flit) (good : Bool)
  /-- REMOTE_REQUEST_RELEASE (R302). Event. -/
  | remoteRequestRelease (die : Nat)
  /-- REMOTE_REPLY_ARRIVAL (R249). Event. -/
  | remoteReplyArrival (die : Nat)
  /-- SLOT_RETURN_TIMER (R307). Event. -/
  | slotReturnTimer (die : Nat) (peer : Nat)
  /-- RESEND_WAIT_EXPIRY (R430). Event. -/
  | resendWaitExpiry (die : Nat)
  /-- POSITION_ABANDON (R430). Event. -/
  | positionAbandon (die : Nat)
  /-- REPLAY_STORE_EXPIRY (R429). Event. -/
  | replayStoreExpiry (die : Nat)
  /-- SLOT_AUDIT (R433). Event. -/
  | slotAudit (die : Nat) (peer : Nat)
  /-- INCARNATION_RELEASE (R434). Event. -/
  | incarnationRelease (die : Nat) (tag : Nat)
  /-- MPD_REFRESH (R437). Event. -/
  | mpdRefresh (die : Nat) (levels : List Nat) (lines : List Nat)
  /-- HEATER_EFFECT (R310). Event. -/
  | heaterEffect (die : Nat) (ring : Nat)
  /-- SPARE_LINE_LOCKED (R438). Event. -/
  | spareLineLocked (source : Nat) (spare : Nat)
  /-- OPTICS_RECOVERY_TIMEOUT (R438). Event. -/
  | opticsRecoveryTimeout (die : Nat) (ring : Nat)
  /-- PATTERN_REPAIR_START (R440). Event. -/
  | patternRepairStart (rotation : Nat) (pattern : List Nat)
  /-- MACHINE_CHECK (R393). Event. -/
  | machineCheck (source : Nat) (unit : Nat) (info : Nat)
  /-- CHECKPOINT_FREEZE (R357). Event. -/
  | checkpointFreeze
  /-- CHECKPOINT_BLOCK_STREAM (R357). Event. -/
  | checkpointBlockStream
  /-- CHECKPOINT_COMPLETE (R357). Event. -/
  | checkpointComplete
  /-- POWER_ON (R361). Event. -/
  | powerOn
  /-- POWER_OFF (R362). Event. -/
  | powerOff
  /-- BOOTSTAT_GO (R361). Event. -/
  | bootstatGo
  /-- IMAGE_VERIFIED (R361). Event. -/
  | imageVerified
  /-- BRINGUP_DONE (R361). Event. -/
  | bringupDone (shortfall : Nat)
  /-- MBOX_JOB (R355). Event. -/
  | mboxJob (arg0 : Nat) (arg1 : Nat)
  /-- MBOX_SWAP (R290). Event. -/
  | mboxSwap (arg1 : Nat)
  /-- MBOX_RESUME (R143). Event. -/
  | mboxResume (arg0 : Nat)
  /-- MBOX_RESUME_STEP (R378). Event. -/
  | mboxResumeStep (arg0 : Nat)
  /-- MBOX_RESTORE (R359). Event. -/
  | mboxRestore (arg0 : Nat) (arg1 : Nat)
  /-- MBOX_MAINT (R353). Event. -/
  | mboxMaint
  /-- MBOX_PART (R289). Event. -/
  | mboxPart (arg0 : Nat)
  /-- MBOX_CKLOG (R360). Event. -/
  | mboxCklog (arg0 : Nat) (arg1 : Nat)
  /-- MBOX_KEY (R305). Event. -/
  | mboxKey (arg0 : Nat)
  /-- MBOX_UNKNOWN_CODE (R353). Event. -/
  | mboxUnknownCode (code : Nat)
  /-- JOB_COMPLETE_REPORT (R355). Event. -/
  | jobCompleteReport (job : Nat)
  /-- ACCEPT_WRITE (R12). Event. -/
  | acceptWrite (k : Nat) (val : Nat)
  /-- HTR_WRITE (R310). Event. -/
  | htrWrite (die : Nat) (n : Nat) (val : Nat)
  /-- RINGMAP_WRITE (R294). Event. -/
  | ringmapWrite (die : Nat) (n : Nat) (val : Nat)
  /-- SPLOCK_WRITE (R438). Event. -/
  | splockWrite (die : Nat) (n : Nat) (val : Nat)
  /-- PATCTL_WRITE (R299). Event. -/
  | patctlWrite (die : Nat) (val : Nat)
  /-- VCSEC_WRITE (R304). Event. -/
  | vcsecWrite (val : Nat)
  /-- EVCNT_WRITE (R38). Event. -/
  | evcntWrite (die : Nat) (n : Nat) (val : Nat)
  /-- SYNCSPAN_WRITE (R311). Event. -/
  | syncspanWrite (die : Nat) (val : Nat)
  /-- NRFCFG_WRITE (R211). Event. -/
  | nrfcfgWrite (die : Nat) (val : Nat)
  /-- NRFSEED_WRITE (R425). Event. -/
  | nrfseedWrite (die : Nat) (val : Nat)
  /-- FPCNT_WRITE (R426). Event. -/
  | fpcntWrite (die : Nat) (val : Nat)
  /-- ECCCNT_READ (R426). Event. -/
  | ecccntRead (die : Nat) (s : Nat)
  /-- UELOG_READ (R426). Event. -/
  | uelogRead (die : Nat) (s : Nat)
  /-- FABERR_READ (R441). Event. -/
  | faberrRead (die : Nat)
  /-- SCLOGC_READ (R446). Event. -/
  | sclogcRead (die : Nat)
  /-- SCLOG0_READ (R446). Event. -/
  | sclog0Read (die : Nat)
  /-- REGISTER_WRITE (R453). Event. -/
  | registerWrite (die : Nat) (off : Nat) (val : Nat)
  /-- ILLEGAL_OPCODE (R101). Event. -/
  | illegalOpcode (cause : Nat) (slot : Nat) (info : Nat)
  /-- PLDM_REQUEST (R363). Event. -/
  | pldmRequest (kind : Nat)
  /-- STROBE_MISSING (R439). Event. -/
  | strobeMissing (die : Nat)
  /-- SHUTTLE_CAUSE_LOG_REPORT (R446). Event. -/
  | shuttleCauseLogReport (die : Nat)
  deriving DecidableEq, Repr

end Sys2Proof
end

