-- ==== Sys2Proof/WellFormed.lean ====
section
/-! DEFINITION. WellFormed.lean: which field values each entry of the opcode table admits (05 R95 to R100 and the
entries of 07 to 12, 16 and 17). `fieldsOk` is the check behind cause 0x02, `ringsOk` the one behind 0x09 (R96);
`pathOk` and the guard's range make up the rest. -/

namespace Sys2Proof

/-- The path tag is a leaf or 7 (R84); the guard names one of p0 to p63. -/
def Guard.ok (g : Guard) : Bool := (g.path < 5 || g.path == 7) && g.pred < 64

/-- Every field of format SX fits its bits (R100). -/
def fitsSX (f : SX) : Bool := f.sd < 64 && f.sa < 64 && f.sb < 64 && f.rm < 8 && f.fn < 131072

/-- Every field of format SI fits its bits (R100). -/
def fitsSI (f : SI) : Bool := f.sd < 64 && f.sa < 64 && f.imm < 67108864

/-- Every field of format SL fits its bits (R100). -/
def fitsSL (f : SL) : Bool := f.sd < 64 && f.imm < 4294967296

/-- Every field of format SP fits its bits (R100). -/
def fitsSP (f : SP) : Bool := f.pd < 64 && f.xa < 64 && f.xb < 64 && f.cc < 16 && f.fn < 65536

/-- Every field of format SK fits its bits (R100). -/
def fitsSK (f : SK) : Bool := f.cd < 16 && f.ca < 16 && f.sa < 64 && f.sb < 64 && f.fn < 262144

/-- Every field of format SM fits its bits (R100). -/
def fitsSM (f : SM) : Bool := f.sd < 64 && f.num < 1024

/-- Every field of format VX fits its bits (R100). -/
def fitsVX (f : VX) : Bool := f.w < 4 && f.t < 16 && f.rm < 8 && f.z < 2 && f.msk < 32 && f.vd < 128 && f.va < 256 && f.vb < 256

/-- Every field of format VY fits its bits (R100). -/
def fitsVY (f : VY) : Bool := f.w < 4 && f.ft < 4 && f.rm < 8 && f.vd < 128 && f.va < 256 && f.vb < 256 && f.vc < 256

/-- Every field of format VC fits its bits (R100). -/
def fitsVC (f : VC) : Bool := f.w < 4 && f.st < 32 && f.dt < 32 && f.rm < 8 && f.sat < 2 && f.z < 2 && f.msk < 32 && f.vd < 128 && f.va < 256

/-- Every field of format VI fits its bits (R100). -/
def fitsVI (f : VI) : Bool := f.w < 4 && f.t < 16 && f.vd < 128 && f.va < 256 && f.imm < 65536

/-- Every field of format VM fits its bits (R100). -/
def fitsVM (f : VM) : Bool := f.w < 4 && f.ed < 16 && f.ea < 16 && f.eb < 16 && f.sd < 64 && f.fn < 262144

/-- Every field of format VQ fits its bits (R100). -/
def fitsVQ (f : VQ) : Bool := f.qn < 64 && f.cnt < 1024

/-- Every field of format MA fits its bits (R100). -/
def fitsMA (f : MA) : Bool := f.acc < 16 && f.sa < 64 && f.sb < 64 && f.mr < 128 && f.em < 16 && f.skip < 2 && f.fmt < 16 && f.fn < 64

/-- Every field of format MW fits its bits (R100). -/
def fitsMW (f : MW) : Bool := f.wb < 16 && f.sa < 64 && f.sb < 64 && f.fmt < 16 && f.fn < 262144

/-- Every field of format MT fits its bits (R100). -/
def fitsMT (f : MT) : Bool := f.acc < 16 && f.bt < 16 && f.sa < 64 && f.rm < 8 && f.fmt < 16 && f.fn < 131072

/-- Every field of format MC fits its bits (R100). -/
def fitsMC (f : MC) : Bool := f.sa < 64 && f.imm < 4294967296

/-- Every field of format MM fits its bits (R100). -/
def fitsMM (f : MM) : Bool := f.ds < 256 && f.cb < 16 && f.so < 64 && f.cl < 16 && f.lu < 2 && f.sz < 8 && f.imm < 4096

/-- Every field of format MD fits its bits (R100). -/
def fitsMD (f : MD) : Bool := f.ds < 256 && f.cb < 16 && f.so < 64 && f.cl < 16 && f.fn < 65536

/-- Every field of format MS fits its bits (R100). -/
def fitsMS (f : MS) : Bool := f.gk < 8 && f.cb < 16 && f.sa < 64 && f.fn < 33554432

/-- Every field of format MQ fits its bits (R100). -/
def fitsMQ (f : MQ) : Bool := f.sa < 64 && f.sb < 64 && f.imm < 67108864

/-- Every field of format EC fits its bits (R100). -/
def fitsEC (f : EC) : Bool := f.sem < 16 && f.cl < 16 && f.cb < 16 && f.sa < 64 && f.sb < 64 && f.fn < 16384

/-- Every field of format YJ fits its bits (R100). -/
def fitsYJ (f : YJ) : Bool := f.sd < 64 && f.imm < 4294967296

/-- Every field of format YX fits its bits (R100). -/
def fitsYX (f : YX) : Bool := f.xa < 64 && f.xb < 64 && f.xc < 64 && f.fn < 1048576

/-- A vector source selector outside the reserved range 0xA0 to 0xBF (R96). -/
def srcOk (x : Nat) : Bool := x < 160 || 192 ≤ x

/-- A source selector that is not ring depth 8 to 15 (R96). -/
def ringOk (x : Nat) : Bool := x < 152 || 160 ≤ x

/-- A vector destination selector that names a queue, a stream port or the ring alone (R97). -/
def dstOk (x : Nat) : Bool := x < 72 || x == 127

/-- The signed integer, unsigned integer, and IEEE-like floating T codes (R98). -/
def isFloatT (t : Nat) : Bool := t < 4
def isIntT (t : Nat) : Bool := 4 ≤ t && t < 12
def isComplexT (t : Nat) : Bool := t == 12 || t == 13

/-- The bits of an element of a T, ST or DT code (R98, R144); a complex element is a pair of lanes. -/
def typeBits (t : Nat) : Nat :=
  match t with
  | 0 => 64 | 1 => 32 | 2 => 16 | 3 => 16 | 4 => 8 | 5 => 16 | 6 => 32 | 7 => 64
  | 8 => 8 | 9 => 16 | 10 => 32 | 11 => 64 | 12 => 64 | 13 => 128 | 14 => 8 | 15 => 8
  | 16 => 4 | 17 => 8 | _ => 8

/-! ## Scalar, predicate, capability and special-register entries (07) -/

/-- R116: RM and FN are 0. -/
def sx3 (f : SX) : Bool := f.rm == 0 && f.fn == 0
/-- R117, immediate form: FN[6] is 1, FN[5:0] the count, SB 0. -/
def sxShiftImm (f : SX) : Bool := f.rm == 0 && f.sb == 0 && 64 ≤ f.fn && f.fn < 128
/-- R118: CLZ, CTZ and POPC. -/
def sxUnary (f : SX) : Bool := f.sb == 0 && f.rm == 0 && f.fn == 0
/-- R118: SEXT and ZEXT, FN[5:0] the width less 1. -/
def sxExtend (f : SX) : Bool := f.sb == 0 && f.rm == 0 && f.fn < 64
/-- R120: FN[5:0] the predicate, FN[6] its sense. -/
def sxSel (f : SX) : Bool := f.rm == 0 && f.fn < 128
/-- R125: RM 0 to 3 and a T code of 0 or 1. -/
def sxFloat2 (f : SX) : Bool := f.rm < 4 && f.fn < 2
/-- R126: SFMA has its third source in FN[16:11]; FN[10:4] are reserved. -/
def sxFloat3 (f : SX) : Bool := f.rm < 4 && f.fn % 2048 < 2
/-- R154: a floating conversion is widening when every value of the source is one of the destination's. -/
def widens (st dt : Nat) : Bool :=
  match st with
  | 1 => dt == 0
  | 2 | 3 => dt == 0 || dt == 1
  | 14 | 15 => dt == 0 || dt == 1 || dt == 2 || dt == 3
  | 16 => dt == 0 || dt == 1 || dt == 2 || dt == 3 || dt == 14 || dt == 15
  | _ => false
/-- R128: the types of SFCVT. -/
def sfcvtType (t : Nat) : Bool := t < 4 || t == 6 || t == 7 || t == 10 || t == 11
/-- R128: ST in FN[3:0], DT in FN[7:4]; `.sr` only where the conversion narrows. -/
def sxConvert (f : SX) : Bool :=
  f.sb == 0 && f.fn < 256 && sfcvtType (f.fn % 16) && sfcvtType (f.fn / 16) && f.fn % 16 != f.fn / 16
    && (isFloatT (f.fn % 16) || isFloatT (f.fn / 16))
    && (f.rm < 4 || (f.rm == 4 && isFloatT (f.fn % 16) && isFloatT (f.fn / 16) && !widens (f.fn % 16) (f.fn / 16)))
/-- R122. -/
def spCmpReg (f : SP) : Bool := f.fn == 0 && f.cc ≤ 9
def spCmpImm (f : SP) : Bool := 32768 ≤ f.fn && f.fn < 36864 && f.xb == 0 && f.cc ≤ 9
/-- R123. -/
def spTstbReg (f : SP) : Bool := f.cc == 0 && f.fn == 0
def spTstbImm (f : SP) : Bool := f.cc == 0 && f.xb == 0 && 64 ≤ f.fn && f.fn < 128
/-- R124: two sources, then one. -/
def spLogic2 (f : SP) : Bool := f.cc == 0 && f.fn < 4
def spLogic1 (f : SP) : Bool := f.cc == 0 && f.xb == 0 && f.fn < 2
/-- R122, R127: the codes of a floating comparison. -/
def floatCode (cc : Nat) : Bool := cc < 4 || cc == 6 || cc == 7 || cc == 10 || cc == 11
def spFloat (f : SP) : Bool := f.fn < 2 && floatCode f.cc
/-- R130 to R133. -/
def skBounds (f : SK) : Bool := f.fn == 0
def skRights (f : SK) : Bool := f.sa == 0 && f.sb == 0 && f.fn < 256
def skGet (f : SK) : Bool := f.cd == 0 && f.sb == 0 && f.fn ≤ 5
def skTest (f : SK) : Bool := f.cd == 0 && f.fn / 256 % 16 == 0
/-- The numbers of R58. -/
def spRegNum (n : Nat) : Bool :=
  n < 6 || (8 ≤ n && n ≤ 11) || (16 ≤ n && n ≤ 22) || (64 ≤ n && n < 192)
def smRead (f : SM) : Bool := spRegNum f.num
/-- MOVTS to QCFGn, SYNCPART, FECLR and SRSEED are table rows of their own. -/
def smQcfg (f : SM) : Bool := 64 ≤ f.num && f.num < 128
def smSyncpart (f : SM) : Bool := f.num == 22
def smFeclr (f : SM) : Bool := f.num == 9
def smSrseed (f : SM) : Bool := f.num == 11
def smWrite (f : SM) : Bool :=
  spRegNum f.num && !(smQcfg f || smSyncpart f || smFeclr f || smSrseed f)

/-! ## Vector entries (08) -/

/-- R98, R146: the mask field and Z; Z without a mask is reserved. -/
def maskOk (msk z : Nat) : Bool := 16 ≤ msk || (msk == 0 && z == 0)
/-- What every VX entry with a vector destination asks: a width, the mask, and selectors (R96 to R98). -/
def vxBase (f : VX) : Bool := f.w < 3 && maskOk f.msk f.z && dstOk f.vd && srcOk f.va && srcOk f.vb
/-- R150: RM is 0 to 3 where the element rounds and 0 elsewhere. -/
def roundOk (t rm : Nat) : Bool := if isFloatT t || isComplexT t then rm < 4 else rm == 0
def vxArith (f : VX) : Bool := vxBase f && f.t < 14 && roundOk f.t f.rm
def vxMul (f : VX) : Bool := vxBase f && f.t < 12 && roundOk f.t f.rm
def vxExact2 (f : VX) : Bool := vxBase f && f.t < 12 && f.rm == 0
def vxExact1 (f : VX) : Bool := vxBase f && f.t < 12 && f.rm == 0 && f.vb == 0
def vxShift (f : VX) : Bool := vxBase f && isIntT f.t && f.rm == 0
def vxRound1 (f : VX) : Bool := vxBase f && isFloatT f.t && f.rm < 4 && f.vb == 0
def vxScale (f : VX) : Bool := vxBase f && isFloatT f.t && f.rm < 4
/-- R152: CC stands in place of RM and Z, and VD names a lane mask. -/
def vxCompare (f : VX) : Bool :=
  f.w < 3 && maskOk f.msk 0 && f.vd < 16 && srcOk f.va && srcOk f.vb && f.t < 12
    && (f.rm * 2 + f.z < 4 || f.rm * 2 + f.z == 6 || f.rm * 2 + f.z == 7
      || (isFloatT f.t && (f.rm * 2 + f.z == 10 || f.rm * 2 + f.z == 11)))
/-- R157: RM is ignored among 0 to 3. -/
def vxApprox (f : VX) : Bool := vxBase f && isFloatT f.t && f.rm < 4 && f.vb == 0
def vxApproxLow (f : VX) : Bool := vxApprox f && 1 ≤ f.t
/-- R158. -/
def vxSum (f : VX) : Bool :=
  vxBase f && (isFloatT f.t || f.t == 6 || f.t == 7 || f.t == 10 || f.t == 11) && roundOk f.t f.rm && f.vb == 0 && f.z == 0
def vxMaxR (f : VX) : Bool := vxBase f && f.t < 12 && roundOk f.t f.rm && f.vb == 0 && f.z == 0
def vxDot (f : VX) : Bool := vxBase f && (isFloatT f.t || f.t == 6 || f.t == 7) && roundOk f.t f.rm && f.z == 0
/-- R159. -/
def vxCmul (f : VX) : Bool := vxBase f && isComplexT f.t && f.rm < 4
def vxConj (f : VX) : Bool := vxBase f && isComplexT f.t && f.rm == 0 && f.vb == 0
/-- R160, R162. -/
def vxPerm (f : VX) : Bool := vxBase f && f.t < 14 && f.rm == 0
def vxSel (f : VX) : Bool := vxBase f && f.t < 14 && f.rm == 0 && f.z == 0 && 16 ≤ f.msk
def vxMov (f : VX) : Bool := vxBase f && f.t < 14 && f.rm == 0 && (f.vb == 0 || (16 ≤ f.msk && f.z == 0))
/-- R153. -/
def vyBase (f : VY) : Bool := f.w < 3 && dstOk f.vd && srcOk f.va && srcOk f.vb && srcOk f.vc
def vyFma (f : VY) : Bool := vyBase f && f.rm < 4
def vyCma (f : VY) : Bool := vyBase f && f.ft < 2 && f.rm < 4
def vyImad (f : VY) : Bool := vyBase f && f.rm == 0
/-- R154: the floating codes a conversion takes. -/
def cvtFloat (t : Nat) : Bool := t < 4 || t == 14 || t == 15 || t == 16
/-- R154: the pairs of the table and the rounding modes each admits. -/
def cvtPairOk (st dt rm : Nat) : Bool :=
  if cvtFloat st && cvtFloat dt then st != dt && (rm < 4 || (rm == 4 && !widens st dt))
  else if cvtFloat st && isIntT dt then rm < 4
  else if isIntT st && cvtFloat dt then rm < 4
  else if isIntT st && isIntT dt then typeBits st != typeBits dt && rm == 0
  else ((st == 17 && dt == 1) || (st == 1 && dt == 17)) && rm == 0
def vcBase (f : VC) : Bool := f.w < 3 && maskOk f.msk f.z && dstOk f.vd && srcOk f.va
def vcConvert (f : VC) : Bool := vcBase f && cvtPairOk f.st f.dt f.rm && (f.msk == 0 || f.z == 1)
/-- R155: an MX code, a 32- or 16-bit floating code, and 32 or 64 elements. -/
def mxCode (t : Nat) : Bool := t == 18 || t == 19 || t == 20
def mxWide (t w : Nat) : Bool := (t == 1 && w == 2) || ((t == 2 || t == 3) && (w == 1 || w == 2))
def vcPack (f : VC) : Bool := vcBase f && f.msk == 0 && f.z == 0 && mxCode f.dt && mxWide f.st f.w && f.rm < 5
def vcUnpack (f : VC) : Bool := vcBase f && f.msk == 0 && f.z == 0 && mxCode f.st && mxWide f.dt f.w && f.rm < 4
/-- R156. -/
def vcSat (f : VC) : Bool :=
  vcBase f && f.rm == 0 && f.sat == 0
    && ((isFloatT f.st && cvtFloat f.dt) || (isIntT f.st && isIntT f.dt))
/-- Elements of an operation of width code w on b-bit elements (R98, R144). -/
def elems (w b : Nat) : Nat := 256 * 2 ^ w / b
/-- R161: pattern in IMM16[15:12], p in [11:0]. -/
def viShuffle (f : VI) : Bool :=
  f.w < 3 && dstOk f.vd && srcOk f.va
    && ((f.imm / 4096 == 0 && f.imm % 4096 < elems f.w (typeBits f.t))
      || (f.imm / 4096 == 1 && f.imm % 4096 ≤ Nat.log2 (elems f.w (typeBits f.t)))
      || (f.imm / 4096 == 2 && f.imm % 4096 < elems f.w (typeBits f.t)))
/-- R162: the index lies in the vector, and is 0 for a scalar source. -/
def viBroadcast (f : VI) : Bool :=
  f.w < 3 && dstOk f.vd && srcOk f.va && f.imm < elems f.w (typeBits f.t) && (f.va < 192 || f.imm == 0)
/-- R163: the fields each mask entry names; the others are 0. -/
def vmSet (f : VM) : Bool := f.w < 3 && f.ea == 0 && f.eb == 0 && f.fn < 4
def vmTwo (f : VM) : Bool := f.w < 3 && f.sd == 0 && f.fn == 0
def vmOne (f : VM) : Bool := f.w < 3 && f.sd == 0 && f.eb == 0 && f.fn == 0
def vmCount (f : VM) : Bool := f.w < 3 && f.ed == 0 && f.eb == 0 && f.fn < 4
/-- R164. -/
def vqAdvance (f : VQ) : Bool := 1 ≤ f.cnt

/-! ## Matrix entries (09) -/

/-- R168: the formats an operand may have, and those MMAS takes (R170). -/
def denseFmt (x : Nat) : Bool :=
  x == 2 || x == 3 || x == 4 || x == 8 || x == 10 || x == 11 || x == 12 || x == 14 || x == 15
def sparseFmt (x : Nat) : Bool := x == 2 || x == 3 || x == 4 || x == 8 || x == 14 || x == 15
/-- R170: a partner format exists for E4M3 with E5M2, int8 with uint8, and the two MXFP8 formats. -/
def partnerOk (fmt fn : Nat) : Bool := fn == 0 || (fn == 1 && fmt != 2 && fmt != 3 && fmt != 12)
def skipOk (skip em : Nat) : Bool := skip == 1 || em == 0
def maDense (f : MA) : Bool := denseFmt f.fmt && partnerOk f.fmt f.fn && skipOk f.skip f.em
def maSparse (f : MA) : Bool := sparseFmt f.fmt && partnerOk f.fmt f.fn && skipOk f.skip f.em
/-- R172: FN[0] holds the form. -/
def mwStage (f : MW) : Bool :=
  f.wb < 2 && f.sb == 0 && ((f.fn == 0 && denseFmt f.fmt) || (f.fn == 1 && sparseFmt f.fmt))
/-- R174, R168: the tile types FP32 and int32. -/
def tileFmt (x : Nat) : Bool := x == 1 || x == 6
def mtTranspose (f : MT) : Bool := f.sa == 0 && f.rm == 0 && f.fn == 0 && tileFmt f.fmt
def mtAccumulate (f : MT) : Bool := f.sa == 0 && f.fn == 0 && ((f.fmt == 1 && f.rm < 4) || (f.fmt == 6 && f.rm == 0))
def mtReduce (f : MT) : Bool := (f.fmt == 1 && f.fn == 0 && f.rm < 4) || (tileFmt f.fmt && f.fn < 2 && f.rm == 0)
def mtZero (f : MT) : Bool := f.bt == 0 && f.sa == 0 && f.rm == 0 && f.fn == 0 && tileFmt f.fmt
/-- R175. -/
def mtConvert (f : MT) : Bool :=
  f.sa == 0 && f.fn < 2
    && ((f.rm < 5 && (f.fmt == 2 || f.fmt == 3 || f.fmt == 14 || f.fmt == 15 || f.fmt == 10 || f.fmt == 11 || f.fmt == 12))
      || (f.fmt == 4 && f.rm == 0))
/-- R176. -/
def mtWait (f : MT) : Bool := f.acc == 0 && f.bt == 0 && f.sa == 0 && f.rm == 0 && f.fmt == 0 && f.fn < 65536
/-- R177, R173. -/
def mcConfig (f : MC) : Bool := f.imm ≤ 2
def mcNest (f : MC) : Bool := denseFmt (f.imm % 16)

/-! ## Memory entries (11, 12) -/

def mmScalarLoad (f : MM) : Bool := f.sz < 4 && f.ds < 64
def mmVectorLoad (f : MM) : Bool := 4 ≤ f.sz && f.sz < 7 && f.ds < 64
def mmBufferLoad (f : MM) : Bool := f.sz < 7 && f.ds < 64 && f.cb % 4 == 0 && f.lu == 0
def mmCapLoad (f : MM) : Bool := f.sz == 0 && f.ds < 16
def mmFarLoad (f : MM) : Bool := f.sz < 7 && f.ds < 64 && 1 ≤ f.imm
def mmPrefetch (f : MM) : Bool := f.ds == 0 && f.cl == 0 && f.sz == 0
def mmScalarStore (f : MM) : Bool := f.sz < 4 && f.ds < 64 && f.lu == 0
def mmVectorStore (f : MM) : Bool := 4 ≤ f.sz && f.sz < 7 && srcOk f.ds && f.lu == 0
def mmBufferStore (f : MM) : Bool :=
  ((f.sz < 4 && f.ds < 64) || (4 ≤ f.sz && f.sz < 7 && srcOk f.ds)) && f.cb % 4 == 0 && f.lu == 0
def mmCapStore (f : MM) : Bool := f.sz == 0 && f.ds < 16 && f.lu == 0
/-- R249: DL in FN[11:0], SZ in [14:12]. -/
def mdRemoteLoad (f : MD) : Bool := 1 ≤ f.fn % 4096 && f.fn / 4096 % 8 < 7 && f.ds < 64
def mdRemoteRow (f : MD) : Bool := f.fn % 4096 == 0 && f.fn / 4096 % 8 < 7 && f.ds < 64
/-- R250. -/
def mdRemoteStore (f : MD) : Bool :=
  f.fn % 4096 == 0 && f.fn < 28672 && ((f.fn < 16384 && f.ds < 64) || (16384 ≤ f.fn && srcOk f.ds))
/-- R225: OP, SZ, ORD and SCOPE of an atomic. -/
def atomicFn (x : Nat) : Bool := x % 16 ≤ 10 && x / 128 % 8 ≤ 5
def mdAtomic (f : MD) : Bool := f.fn < 1024 && atomicFn f.fn && f.ds < 64 && (f.fn % 16 != 9 || f.ds % 2 == 0)
/-- R251: an acquire needs a queue for its reply. -/
def mdRemoteAtomic (f : MD) : Bool :=
  atomicFn f.fn && (f.ds < 64 || (f.ds == 127 && f.fn / 32 % 2 == 0)) && (f.fn % 16 != 9 || f.fn / 1024 % 2 == 0)
/-- R228, R230. -/
def msArm (f : MS) : Bool := f.cb % 4 == 0 && f.fn < 256 && f.fn / 4 % 4 < 3
def msStop (f : MS) : Bool := f.cb == 0 && f.sa == 0 && f.fn == 0
/-- R231: n − 1 in IMM26[11:0], SIDE in [12], the buffer code in [25:24]. -/
def mqRingWait (f : MQ) : Bool := f.imm / 4096 % 4096 == 0
def mqRingWaitProd (f : MQ) : Bool := f.imm / 4096 % 4096 == 1
def mqRing (f : MQ) : Bool := f.imm / 4096 % 4096 == 0 && f.sb == 0
/-- R253. -/
def mqFscq (f : MQ) : Bool := f.sa == 0 && f.imm < 64
def mqFscqReg (f : MQ) : Bool := f.imm == 64
def mqFscqWait (f : MQ) : Bool :=
  f.imm < 65536 && f.imm / 128 % 2 == 1 && 1 ≤ f.imm / 256
    && ((f.imm / 64 % 2 == 0 && f.sa == 0) || (f.imm / 64 % 2 == 1 && f.imm % 64 == 0))
/-- R227, R252. -/
def mqFence (f : MQ) : Bool := f.sa == 0 && f.sb == 0 && f.imm < 524288 && f.imm / 65536 ≤ 5
def mqFencef (f : MQ) : Bool := f.imm < 1048576
/-- R234. -/
def mqArrexp (f : MQ) : Bool := f.imm % 4194304 == 0
def mqArrive (f : MQ) : Bool := f.imm % 524288 == 0 && f.imm / 524288 % 8 ≤ 5
def mqArriveWait (f : MQ) : Bool := f.imm % 524288 == 262144 && f.imm / 524288 % 8 ≤ 5

/-! ## Engine commands (09, 12, 16) -/

def ecCopy (f : EC) : Bool := f.fn == 0
def ecGet (f : EC) : Bool := f.fn == 0
def ecPut (f : EC) : Bool := f.fn == 1
/-- R188: the buffer code stands in CB[29:28]. -/
def ecRing (f : EC) : Bool := f.cb % 4 == 0 && f.sb == 0 && f.fn == 0
/-- R190. -/
def ecSfe (f : EC) : Bool := f.cb == 0 && f.fn < 1024 && f.fn % 16 < 8 && f.fn / 16 % 4 < 3 && f.fn / 64 % 4 < 3
def ecColl (f : EC) : Bool := f.fn == 0 && f.sb == 0
def ecSend (f : EC) : Bool := f.cb == 0
def ecMark (f : EC) : Bool := f.cb == 0 && f.sb == 0 && f.fn == 0

/-! ## Control, synchronisation, task and world entries (07, 12, 16, 17) -/

def yxNone (f : YX) : Bool := f.xa == 0 && f.xb == 0 && f.xc == 0 && f.fn == 0
def yxA (f : YX) : Bool := f.xb == 0 && f.xc == 0 && f.fn == 0
def yxAB (f : YX) : Bool := f.xc == 0 && f.fn == 0
def yxJump (f : YX) : Bool := f.xb == 0 && f.xc == 0
/-- R140: ICNT in [19:9], IMM in [8], LEN in [7:3], LVL in [2:0]. -/
def yxLoopReg (f : YX) : Bool := f.xb == 0 && f.xc == 0 && f.fn < 256 && f.fn % 8 ≤ 5
def yxLoopImm (f : YX) : Bool := f.xa == 0 && f.xb == 0 && f.xc == 0 && f.fn / 256 % 2 == 1 && f.fn % 8 ≤ 5
/-- R239. -/
def yxWaitsImm (f : YX) : Bool := f.xa == 0 && f.xb == 0 && f.xc == 0 && f.fn / 16 % 2 == 0 && 32 ≤ f.fn
def yxWaitsReg (f : YX) : Bool := f.xb == 0 && f.xc == 0 && 16 ≤ f.fn && f.fn < 32
/-- R240: XC is 0 or 32 plus a capability. -/
def capOpt (x : Nat) : Bool := x == 0 || (32 ≤ x && x < 48)
def yxSpawn (f : YX) : Bool := capOpt f.xc && f.fn == 0
def yxSealImm (f : YX) : Bool := capOpt f.xc && f.fn < 65536
def yxSealReg (f : YX) : Bool := capOpt f.xc && 65536 ≤ f.fn && f.fn < 65600
def yxLevelImm (f : YX) : Bool := f.xa == 0 && f.xb == 0 && f.xc == 0 && f.fn < 262144
def regLevel (x : Nat) : Bool := 262144 ≤ x && x < 524288 && x % 65536 == 0
def yxLevelReg (f : YX) : Bool := f.xb == 0 && f.xc == 0 && regLevel f.fn
def yxPrioImm (f : YX) : Bool := f.xa == 0 && f.xb == 0 && f.xc == 0 && f.fn < 24
def yxPrioReg (f : YX) : Bool := f.xb == 0 && f.xc == 0 && f.fn == 32
def yxRecordImm (f : YX) : Bool := f.xa == 0 && capOpt f.xc && f.fn < 262144
def yxRecordReg (f : YX) : Bool := capOpt f.xc && regLevel f.fn
/-- R332: n − 2 in FN[1:0]. -/
def yxFork (f : YX) : Bool := f.xb == 0 && f.xc == 0 && f.fn % 4 < 3
/-- R344. -/
def yxChooseImm (f : YX) : Bool := f.xb == 0 && f.xc == 0 && f.fn < 5
def yxChooseReg (f : YX) : Bool := f.xc == 0 && f.fn == 8
/-- R348. -/
def yxTag (f : YX) : Bool := f.xc == 0 && 9 ≤ f.fn && f.fn < 13
/-- R246. -/
def yxImm12 (f : YX) : Bool := f.xa == 0 && f.xb == 0 && f.xc == 0 && f.fn < 4096
/-- R258: with SELF, CTX is 0. -/
def yxSave (f : YX) : Bool := f.xb == 0 && f.xc == 0 && f.fn < 8192 && (f.fn / 8 % 2 == 0 || f.fn % 8 == 0)
def yxRestore (f : YX) : Bool := f.xb == 0 && f.xc == 0 && f.fn < 8192 && f.fn % 16 == 0

/-- R93, R94: the shape exists, and the tests and displacements it does not use are 0. -/
def treeOk (shape t0 t1 t2 t3 d1 d2 d3 d4 : Nat) : Bool :=
  t0 < 128 && t1 < 128 && t2 < 128 && t3 < 128 && d1 < 8192 && d2 < 8192 && d3 < 8192 && d4 < 8192
    && (match shape with
      | 1 => t1 == 0 && t2 == 0 && t3 == 0 && d2 == 0 && d3 == 0 && d4 == 0
      | 2 => t2 == 0 && t3 == 0 && d3 == 0 && d4 == 0
      | 3 | 5 => t3 == 0 && d4 == 0
      | 4 | 6 => true
      | _ => false)

/-- Leaves of a shape: a path tag below this number, or 7, is one of them (R92, R93). -/
def treeLeaves (shape : Nat) : Nat :=
  match shape with
  | 0 => 1 | 1 => 2 | 2 => 3 | 3 | 5 => 4 | _ => 5

/-- The field values of an instruction are those its entry admits (R98, R100): what the decoder's check 0x02 asks. An event's
numbers name units the module has (01 R13, R14). -/
def Instr.fieldsOk (i : Instr) : Bool :=
  match i with
  | .add _ f => fitsSX f && sx3 f
  | .addi _ f => fitsSI f
  | .sub _ f => fitsSX f && sx3 f
  | .mul _ f => fitsSX f && sx3 f
  | .mulh _ f => fitsSX f && sx3 f
  | .mulhu _ f => fitsSX f && sx3 f
  | .div _ f => fitsSX f && sx3 f
  | .divu _ f => fitsSX f && sx3 f
  | .rem _ f => fitsSX f && sx3 f
  | .remu _ f => fitsSX f && sx3 f
  | .and _ f => fitsSX f && sx3 f
  | .or _ f => fitsSX f && sx3 f
  | .xor _ f => fitsSX f && sx3 f
  | .andn _ f => fitsSX f && sx3 f
  | .shlReg _ f => fitsSX f && sx3 f
  | .shlImm _ f => fitsSX f && sxShiftImm f
  | .shrReg _ f => fitsSX f && sx3 f
  | .shrImm _ f => fitsSX f && sxShiftImm f
  | .sraReg _ f => fitsSX f && sx3 f
  | .sraImm _ f => fitsSX f && sxShiftImm f
  | .rotReg _ f => fitsSX f && sx3 f
  | .rotImm _ f => fitsSX f && sxShiftImm f
  | .clz _ f => fitsSX f && sxUnary f
  | .ctz _ f => fitsSX f && sxUnary f
  | .popc _ f => fitsSX f && sxUnary f
  | .bext _ f => fitsSX f && sx3 f
  | .bdep _ f => fitsSX f && sx3 f
  | .sext _ f => fitsSX f && sxExtend f
  | .zext _ f => fitsSX f && sxExtend f
  | .min _ f => fitsSX f && sx3 f
  | .max _ f => fitsSX f && sx3 f
  | .minu _ f => fitsSX f && sx3 f
  | .maxu _ f => fitsSX f && sx3 f
  | .sel _ f => fitsSX f && sxSel f
  | .li _ f => fitsSL f
  | .lih _ f => fitsSL f
  | .cmpReg _ f => fitsSP f && spCmpReg f
  | .cmpImm _ f => fitsSP f && spCmpImm f
  | .tstbReg _ f => fitsSP f && spTstbReg f
  | .tstbImm _ f => fitsSP f && spTstbImm f
  | .pand _ f => fitsSP f && spLogic2 f
  | .por _ f => fitsSP f && spLogic2 f
  | .pxor _ f => fitsSP f && spLogic2 f
  | .pnot _ f => fitsSP f && spLogic1 f
  | .pmov _ f => fitsSP f && spLogic1 f
  | .sfadd _ f => fitsSX f && sxFloat2 f
  | .sfmul _ f => fitsSX f && sxFloat2 f
  | .sfma _ f => fitsSX f && sxFloat3 f
  | .sfcmp _ f => fitsSP f && spFloat f
  | .sfcvt _ f => fitsSX f && sxConvert f
  | .cderive _ f => fitsSK f && skBounds f
  | .csetb _ f => fitsSK f && skBounds f
  | .crights _ f => fitsSK f && skRights f
  | .cget _ f => fitsSK f && skGet f
  | .ctest _ f => fitsSK f && skTest f
  | .movsp _ f => fitsSM f && smRead f
  | .movts _ f => fitsSM f && smWrite f
  | .qcfgWrite _ f => fitsSM f && smQcfg f
  | .syncpartWrite _ f => fitsSM f && smSyncpart f
  | .feclrWrite _ f => fitsSM f && smFeclr f
  | .srseedWrite _ f => fitsSM f && smSrseed f
  | .vadd _ _ f => fitsVX f && vxArith f
  | .vsub _ _ f => fitsVX f && vxArith f
  | .vmul _ _ f => fitsVX f && vxMul f
  | .vfma _ _ f => fitsVY f && vyFma f
  | .vfms _ _ f => fitsVY f && vyFma f
  | .vfnma _ _ f => fitsVY f && vyFma f
  | .vmin _ _ f => fitsVX f && vxExact2 f
  | .vmax _ _ f => fitsVX f && vxExact2 f
  | .vabs _ _ f => fitsVX f && vxExact1 f
  | .vneg _ _ f => fitsVX f && vxExact1 f
  | .vcmp _ _ f => fitsVX f && vxCompare f
  | .vand _ _ f => fitsVX f && vxExact2 f
  | .vor _ _ f => fitsVX f && vxExact2 f
  | .vxor _ _ f => fitsVX f && vxExact2 f
  | .vshl _ _ f => fitsVX f && vxShift f
  | .vshr _ _ f => fitsVX f && vxShift f
  | .vsra _ _ f => fitsVX f && vxShift f
  | .vcvt _ _ f => fitsVC f && vcConvert f
  | .vrnd _ _ f => fitsVX f && vxRound1 f
  | .vrcp _ f => fitsVX f && vxApprox f
  | .vrsq _ f => fitsVX f && vxApprox f
  | .vexp2 _ f => fitsVX f && vxApproxLow f
  | .vlog2 _ f => fitsVX f && vxApproxLow f
  | .vsum _ _ f => fitsVX f && vxSum f
  | .vmaxr _ _ f => fitsVX f && vxMaxR f
  | .vdot _ _ f => fitsVX f && vxDot f
  | .vcmul _ _ f => fitsVX f && vxCmul f
  | .vcma _ _ f => fitsVY f && vyCma f
  | .vconj _ _ f => fitsVX f && vxConj f
  | .vperm _ f => fitsVX f && vxPerm f
  | .vshuf _ f => fitsVI f && viShuffle f
  | .vbcast _ _ f => fitsVI f && viBroadcast f
  | .vsel _ _ f => fitsVX f && vxSel f
  | .vmov _ _ f => fitsVX f && vxMov f
  | .vpack _ f => fitsVC f && vcPack f
  | .vunpk _ f => fitsVC f && vcUnpack f
  | .vscl _ _ f => fitsVX f && vxScale f
  | .vimad _ _ f => fitsVY f && vyImad f
  | .vsat _ _ f => fitsVC f && vcSat f
  | .vmset _ _ f => fitsVM f && vmSet f
  | .vmand _ _ f => fitsVM f && vmTwo f
  | .vmor _ _ f => fitsVM f && vmTwo f
  | .vmnot _ _ f => fitsVM f && vmOne f
  | .vmcnt _ _ f => fitsVM f && vmCount f
  | .vmfirst _ _ f => fitsVM f && vmCount f
  | .qadv _ _ f => fitsVQ f && vqAdvance f
  | .mma _ f => fitsMA f && maDense f
  | .mmaz _ f => fitsMA f && maDense f
  | .mmas _ f => fitsMA f && maSparse f
  | .mwld _ f => fitsMW f && mwStage f
  | .mwpf _ f => fitsMW f && mwStage f
  | .mnest _ f => fitsMC f && mcNest f
  | .mzero _ f => fitsMT f && mtZero f
  | .macc _ f => fitsMT f && mtAccumulate f
  | .mtrn _ f => fitsMT f && mtTranspose f
  | .mred _ f => fitsMT f && mtReduce f
  | .mcvt _ f => fitsMT f && mtConvert f
  | .mwait _ f => fitsMT f && mtWait f
  | .mcfg _ f => fitsMC f && mcConfig f
  | .lds _ f => fitsMM f && mmScalarLoad f
  | .ldv _ f => fitsMM f && mmVectorLoad f
  | .ldb _ f => fitsMM f && mmBufferLoad f
  | .ldx _ f => fitsMM f && mmCapLoad f
  | .ldf _ f => fitsMM f && mmFarLoad f
  | .pref _ f => fitsMM f && mmPrefetch f
  | .sparm _ f => fitsMS f && msArm f
  | .spstop _ f => fitsMS f && msStop f
  | .rngwait _ f => fitsMQ f && mqRingWait f
  | .rngwaitProd _ f => fitsMQ f && mqRingWaitProd f
  | .rngadv _ f => fitsMQ f && mqRing f
  | .rngpub _ f => fitsMQ f && mqRing f
  | .fscq _ f => fitsMQ f && mqFscq f
  | .fscqReg _ f => fitsMQ f && mqFscqReg f
  | .fscqWait _ f => fitsMQ f && mqFscqWait f
  | .ldr _ f => fitsMD f && mdRemoteLoad f
  | .ldrw _ f => fitsMD f && mdRemoteRow f
  | .sts _ f => fitsMM f && mmScalarStore f
  | .stv _ f => fitsMM f && mmVectorStore f
  | .stb _ f => fitsMM f && mmBufferStore f
  | .stx _ f => fitsMM f && mmCapStore f
  | .str _ f => fitsMD f && mdRemoteStore f
  | .atom _ f => fitsMD f && mdAtomic f
  | .atomr _ f => fitsMD f && mdRemoteAtomic f
  | .fence _ f => fitsMQ f && mqFence f
  | .fencef _ f => fitsMQ f && mqFencef f
  | .arrexp _ f => fitsMQ f && mqArrexp f
  | .arrive _ f => fitsMQ f && mqArrive f
  | .arriveWait _ f => fitsMQ f && mqArriveWait f
  | .cpy _ f => fitsEC f && ecCopy f
  | .cpyrGet _ f => fitsEC f && ecGet f
  | .cpyrPut _ f => fitsEC f && ecPut f
  | .subsLd _ f => fitsEC f && ecGet f
  | .subsSt _ f => fitsEC f && ecPut f
  | .unsub _ f => fitsEC f && ecRing f
  | .drain _ f => fitsEC f && ecRing f
  | .sfe _ f => fitsEC f && ecSfe f
  | .gqpush _ f => fitsEC f && ecCopy f
  | .coll _ f => fitsEC f && ecColl f
  | .send _ f => fitsEC f && ecSend f
  | .ckmark _ f => fitsEC f && ecMark f
  | .call _ f => fitsYJ f
  | .ret _ f => fitsYX f && yxA f
  | .jmpi _ f => fitsYX f && yxJump f
  | .loopReg _ f => fitsYX f && yxLoopReg f
  | .loopImm _ f => fitsYX f && yxLoopImm f
  | .brt shape t0 t1 t2 t3 d1 d2 d3 d4 => treeOk shape t0 t1 t2 t3 d1 d2 d3 d4
  | .hint slot n imm => slot < 8 && n < 16 && imm < 281474976710656
  | .sync mask => 0 < mask && mask < 65536
  | .waitsImm _ f => fitsYX f && yxWaitsImm f
  | .waitsReg _ f => fitsYX f && yxWaitsReg f
  | .tspawn _ f => fitsYX f && yxSpawn f
  | .tjoin _ f => fitsYX f && yxA f
  | .tsealImm _ f => fitsYX f && yxSealImm f
  | .tsealReg _ f => fitsYX f && yxSealReg f
  | .tsignal _ f => fitsYX f && yxA f
  | .texit _ f => fitsYX f && yxNone f
  | .tcancelImm _ f => fitsYX f && yxLevelImm f
  | .tcancelReg _ f => fitsYX f && yxLevelReg f
  | .tprioImm _ f => fitsYX f && yxPrioImm f
  | .tprioReg _ f => fitsYX f && yxPrioReg f
  | .tlvrecImm _ f => fitsYX f && yxRecordImm f
  | .tlvrecReg _ f => fitsYX f && yxRecordReg f
  | .wfork _ f => fitsYX f && yxFork f
  | .wchooseImm _ f => fitsYX f && yxChooseImm f
  | .wchooseReg _ f => fitsYX f && yxChooseReg f
  | .wdone _ f => fitsYX f && yxA f
  | .wdiscard _ f => fitsYX f && yxNone f
  | .wtagOwn _ f => fitsYX f && yxA f
  | .wtagQuery _ f => fitsYX f && yxTag f
  | .ertq _ f => fitsYX f && yxAB f
  | .trap _ f => fitsYX f && yxImm12 f
  | .bkpt _ f => fitsYX f && yxImm12 f
  | .eret _ f => fitsYX f && yxNone f
  | .halt _ f => fitsYX f && yxNone f
  | .ctxsave _ f => fitsYX f && yxSave f
  | .restore _ f => fitsYX f && yxRestore f
  | .otinv _ f => fitsYX f && yxAB f
  | .gqpop rd rs1 => rd < 32 && rs1 < 32
  | .rrput rd rs1 rs2 => rd < 32 && rs1 < 32 && rs2 < 32
  | .ertget rd rs1 rs2 => rd < 32 && rs1 < 32 && rs2 < 32
  | .ertset rd rs1 rs2 => rd < 32 && rs1 < 32 && rs2 < 32
  | .park rd rs1 rs2 => rd < 32 && rs1 < 32 && rs2 < 32
  | .unpark rd rs1 => rd < 32 && rs1 < 32
  | .fwdrow rd rs1 rs2 => rd < 32 && rs1 < 32 && rs2 < 32
  | .dtile rd rs1 => rd < 32 && rs1 < 32
  | .emptyBundle _ _ _ => true
  | .shadowWriteLand core ctx => core < 640 && ctx < 8
  | .stretchEndChoice core => core < 640
  | .issuePreemption core => core < 640
  | .preemptHoldTimeout core => core < 640
  | .demandExchangeDone core => core < 640
  | .syncRelease die _ _ => die < 8
  | .syncWatchdog core => core < 640
  | .dispatch die => die < 8
  | .taskBind die => die < 8
  | .slotPreemptChoose die => die < 8
  | .slotPreemptSaveDone core ctx => core < 640 && ctx < 8
  | .guestEndRestore core ctx => core < 640 && ctx < 8
  | .taskEndComplete core ctx => core < 640 && ctx < 8
  | .continuationReady die _ => die < 8
  | .completionRecordReady _ => true
  | .mxOpEnd core => core < 640
  | .weightLoadComplete core => core < 640
  | .engineGuardResolved core ctx _ => core < 640 && ctx < 8
  | .guardNeverWritten core ctx _ => core < 640 && ctx < 8
  | .engineBeat core ctx _ => core < 640 && ctx < 8
  | .engineCommandComplete core ctx _ => core < 640 && ctx < 8
  | .loaderSlotPublish core ctx _ => core < 640 && ctx < 8
  | .storerSlotWritten core ctx _ => core < 640 && ctx < 8
  | .streamFetch core ctx port => core < 640 && ctx < 8 && port < 8
  | .storePerformed core => core < 640
  | .atomicPerformed core => core < 640
  | .farAccessArrival die => die < 8
  | .heatSweep die => die < 8
  | .heldRequestServed stack => stack < 16
  | .contextFreeze core ctx => core < 640 && ctx < 8
  | .contextUnfreeze core ctx => core < 640 && ctx < 8
  | .occupancyFlush core => core < 640
  | .ctxsaveImagePerformed core ctx => core < 640 && ctx < 8
  | .asyncTrapTaken core => core < 640
  | .swapComplete _ => true
  | .lateDataArrival core ctx _ => core < 640 && ctx < 8
  | .tagTimeout die _ => die < 8
  | .shuttleException die _ _ => die < 8
  | .wfiWake die => die < 8
  | .bobbinBackingWrite core => core < 640
  | .dormantCountReport core => core < 640
  | .signalArrival die counter => die < 8 && counter < 4096
  | .messageArrival die => die < 8
  | .messageCreateRetry die => die < 8
  | .eventCounterSource die _ _ => die < 8
  | .objectEntryFetched core _ => core < 640
  | .extentFillComplete => true
  | .neighbourRefresh stack => stack < 16
  | .thermalHoldStart stack _ => stack < 16
  | .thermalHoldEnd stack _ => stack < 16
  | .holdLimitExceeded core ctx => core < 640 && ctx < 8
  | .memoryEccError _ _ => true
  | .errorLogPoll die => die < 8
  | .hostCxlAccess _ _ _ _ => true
  | .regionDemandSwap core _ => core < 640
  | .backgroundSpill core => core < 640
  | .effectRelease => true
  | .worldFreed _ => true
  | .collectiveComplete core ctx _ => core < 640 && ctx < 8
  | .expertFillComplete => true
  | .tierReadFailure => true
  | .forwardedRowArrival die => die < 8
  | .rotationStart _ => true
  | .slotBoundary => true
  | .flitTransmit die port _ => die < 8 && port < 8
  | .flitReceive die _ _ _ => die < 8
  | .remoteRequestRelease die => die < 8
  | .remoteReplyArrival die => die < 8
  | .slotReturnTimer die _ => die < 8
  | .resendWaitExpiry die => die < 8
  | .positionAbandon die => die < 8
  | .replayStoreExpiry die => die < 8
  | .slotAudit die _ => die < 8
  | .incarnationRelease die _ => die < 8
  | .mpdRefresh die _ _ => die < 8
  | .heaterEffect die _ => die < 8
  | .spareLineLocked _ _ => true
  | .opticsRecoveryTimeout die _ => die < 8
  | .patternRepairStart _ _ => true
  | .machineCheck _ _ _ => true
  | .checkpointFreeze => true
  | .checkpointBlockStream => true
  | .checkpointComplete => true
  | .powerOn => true
  | .powerOff => true
  | .bootstatGo => true
  | .imageVerified => true
  | .bringupDone _ => true
  | .mboxJob _ _ => true
  | .mboxSwap _ => true
  | .mboxResume _ => true
  | .mboxResumeStep _ => true
  | .mboxRestore _ _ => true
  | .mboxMaint => true
  | .mboxPart _ => true
  | .mboxCklog _ _ => true
  | .mboxKey _ => true
  | .mboxUnknownCode _ => true
  | .jobCompleteReport _ => true
  | .acceptWrite _ _ => true
  | .htrWrite die _ _ => die < 8
  | .ringmapWrite die _ _ => die < 8
  | .splockWrite die _ _ => die < 8
  | .patctlWrite die _ => die < 8
  | .vcsecWrite _ => true
  | .evcntWrite die _ _ => die < 8
  | .syncspanWrite die _ => die < 8
  | .nrfcfgWrite die _ => die < 8
  | .nrfseedWrite die _ => die < 8
  | .fpcntWrite die _ => die < 8
  | .ecccntRead die _ => die < 8
  | .uelogRead die _ => die < 8
  | .faberrRead die => die < 8
  | .sclogcRead die => die < 8
  | .sclog0Read die => die < 8
  | .registerWrite die _ _ => die < 8
  | .illegalOpcode _ _ _ => true
  | .pldmRequest _ => true
  | .strobeMissing die => die < 8
  | .shuttleCauseLogReport die => die < 8

/-- No vector source names ring depth 8 to 15 (R96): what the decoder's check 0x09 asks. -/
def Instr.ringsOk (i : Instr) : Bool :=
  match i with
  | .add _ _ => true
  | .addi _ _ => true
  | .sub _ _ => true
  | .mul _ _ => true
  | .mulh _ _ => true
  | .mulhu _ _ => true
  | .div _ _ => true
  | .divu _ _ => true
  | .rem _ _ => true
  | .remu _ _ => true
  | .and _ _ => true
  | .or _ _ => true
  | .xor _ _ => true
  | .andn _ _ => true
  | .shlReg _ _ => true
  | .shlImm _ _ => true
  | .shrReg _ _ => true
  | .shrImm _ _ => true
  | .sraReg _ _ => true
  | .sraImm _ _ => true
  | .rotReg _ _ => true
  | .rotImm _ _ => true
  | .clz _ _ => true
  | .ctz _ _ => true
  | .popc _ _ => true
  | .bext _ _ => true
  | .bdep _ _ => true
  | .sext _ _ => true
  | .zext _ _ => true
  | .min _ _ => true
  | .max _ _ => true
  | .minu _ _ => true
  | .maxu _ _ => true
  | .sel _ _ => true
  | .li _ _ => true
  | .lih _ _ => true
  | .cmpReg _ _ => true
  | .cmpImm _ _ => true
  | .tstbReg _ _ => true
  | .tstbImm _ _ => true
  | .pand _ _ => true
  | .por _ _ => true
  | .pxor _ _ => true
  | .pnot _ _ => true
  | .pmov _ _ => true
  | .sfadd _ _ => true
  | .sfmul _ _ => true
  | .sfma _ _ => true
  | .sfcmp _ _ => true
  | .sfcvt _ _ => true
  | .cderive _ _ => true
  | .csetb _ _ => true
  | .crights _ _ => true
  | .cget _ _ => true
  | .ctest _ _ => true
  | .movsp _ _ => true
  | .movts _ _ => true
  | .qcfgWrite _ _ => true
  | .syncpartWrite _ _ => true
  | .feclrWrite _ _ => true
  | .srseedWrite _ _ => true
  | .vadd _ _ f => ringOk f.va && ringOk f.vb
  | .vsub _ _ f => ringOk f.va && ringOk f.vb
  | .vmul _ _ f => ringOk f.va && ringOk f.vb
  | .vfma _ _ f => ringOk f.va && ringOk f.vb && ringOk f.vc
  | .vfms _ _ f => ringOk f.va && ringOk f.vb && ringOk f.vc
  | .vfnma _ _ f => ringOk f.va && ringOk f.vb && ringOk f.vc
  | .vmin _ _ f => ringOk f.va && ringOk f.vb
  | .vmax _ _ f => ringOk f.va && ringOk f.vb
  | .vabs _ _ f => ringOk f.va && ringOk f.vb
  | .vneg _ _ f => ringOk f.va && ringOk f.vb
  | .vcmp _ _ f => ringOk f.va && ringOk f.vb
  | .vand _ _ f => ringOk f.va && ringOk f.vb
  | .vor _ _ f => ringOk f.va && ringOk f.vb
  | .vxor _ _ f => ringOk f.va && ringOk f.vb
  | .vshl _ _ f => ringOk f.va && ringOk f.vb
  | .vshr _ _ f => ringOk f.va && ringOk f.vb
  | .vsra _ _ f => ringOk f.va && ringOk f.vb
  | .vcvt _ _ f => ringOk f.va
  | .vrnd _ _ f => ringOk f.va && ringOk f.vb
  | .vrcp _ f => ringOk f.va && ringOk f.vb
  | .vrsq _ f => ringOk f.va && ringOk f.vb
  | .vexp2 _ f => ringOk f.va && ringOk f.vb
  | .vlog2 _ f => ringOk f.va && ringOk f.vb
  | .vsum _ _ f => ringOk f.va && ringOk f.vb
  | .vmaxr _ _ f => ringOk f.va && ringOk f.vb
  | .vdot _ _ f => ringOk f.va && ringOk f.vb
  | .vcmul _ _ f => ringOk f.va && ringOk f.vb
  | .vcma _ _ f => ringOk f.va && ringOk f.vb && ringOk f.vc
  | .vconj _ _ f => ringOk f.va && ringOk f.vb
  | .vperm _ f => ringOk f.va && ringOk f.vb
  | .vshuf _ f => ringOk f.va
  | .vbcast _ _ f => ringOk f.va
  | .vsel _ _ f => ringOk f.va && ringOk f.vb
  | .vmov _ _ f => ringOk f.va && ringOk f.vb
  | .vpack _ f => ringOk f.va
  | .vunpk _ f => ringOk f.va
  | .vscl _ _ f => ringOk f.va && ringOk f.vb
  | .vimad _ _ f => ringOk f.va && ringOk f.vb && ringOk f.vc
  | .vsat _ _ f => ringOk f.va
  | .vmset _ _ _ => true
  | .vmand _ _ _ => true
  | .vmor _ _ _ => true
  | .vmnot _ _ _ => true
  | .vmcnt _ _ _ => true
  | .vmfirst _ _ _ => true
  | .qadv _ _ _ => true
  | .mma _ _ => true
  | .mmaz _ _ => true
  | .mmas _ _ => true
  | .mwld _ _ => true
  | .mwpf _ _ => true
  | .mnest _ _ => true
  | .mzero _ _ => true
  | .macc _ _ => true
  | .mtrn _ _ => true
  | .mred _ _ => true
  | .mcvt _ _ => true
  | .mwait _ _ => true
  | .mcfg _ _ => true
  | .lds _ _ => true
  | .ldv _ _ => true
  | .ldb _ _ => true
  | .ldx _ _ => true
  | .ldf _ _ => true
  | .pref _ _ => true
  | .sparm _ _ => true
  | .spstop _ _ => true
  | .rngwait _ _ => true
  | .rngwaitProd _ _ => true
  | .rngadv _ _ => true
  | .rngpub _ _ => true
  | .fscq _ _ => true
  | .fscqReg _ _ => true
  | .fscqWait _ _ => true
  | .ldr _ _ => true
  | .ldrw _ _ => true
  | .sts _ _ => true
  | .stv _ f => ringOk f.ds
  | .stb _ f => (f.sz < 4 || ringOk f.ds)
  | .stx _ _ => true
  | .str _ f => (f.fn / 4096 % 8 < 4 || ringOk f.ds)
  | .atom _ _ => true
  | .atomr _ _ => true
  | .fence _ _ => true
  | .fencef _ _ => true
  | .arrexp _ _ => true
  | .arrive _ _ => true
  | .arriveWait _ _ => true
  | .cpy _ _ => true
  | .cpyrGet _ _ => true
  | .cpyrPut _ _ => true
  | .subsLd _ _ => true
  | .subsSt _ _ => true
  | .unsub _ _ => true
  | .drain _ _ => true
  | .sfe _ _ => true
  | .gqpush _ _ => true
  | .coll _ _ => true
  | .send _ _ => true
  | .ckmark _ _ => true
  | .call _ _ => true
  | .ret _ _ => true
  | .jmpi _ _ => true
  | .loopReg _ _ => true
  | .loopImm _ _ => true
  | .brt _ _ _ _ _ _ _ _ _ => true
  | .hint _ _ _ => true
  | .sync _ => true
  | .waitsImm _ _ => true
  | .waitsReg _ _ => true
  | .tspawn _ _ => true
  | .tjoin _ _ => true
  | .tsealImm _ _ => true
  | .tsealReg _ _ => true
  | .tsignal _ _ => true
  | .texit _ _ => true
  | .tcancelImm _ _ => true
  | .tcancelReg _ _ => true
  | .tprioImm _ _ => true
  | .tprioReg _ _ => true
  | .tlvrecImm _ _ => true
  | .tlvrecReg _ _ => true
  | .wfork _ _ => true
  | .wchooseImm _ _ => true
  | .wchooseReg _ _ => true
  | .wdone _ _ => true
  | .wdiscard _ _ => true
  | .wtagOwn _ _ => true
  | .wtagQuery _ _ => true
  | .ertq _ _ => true
  | .trap _ _ => true
  | .bkpt _ _ => true
  | .eret _ _ => true
  | .halt _ _ => true
  | .ctxsave _ _ => true
  | .restore _ _ => true
  | .otinv _ _ => true
  | .gqpop _ _ => true
  | .rrput _ _ _ => true
  | .ertget _ _ _ => true
  | .ertset _ _ _ => true
  | .park _ _ _ => true
  | .unpark _ _ => true
  | .fwdrow _ _ _ => true
  | .dtile _ _ => true
  | .emptyBundle _ _ _ => true
  | .shadowWriteLand _ _ => true
  | .stretchEndChoice _ => true
  | .issuePreemption _ => true
  | .preemptHoldTimeout _ => true
  | .demandExchangeDone _ => true
  | .syncRelease _ _ _ => true
  | .syncWatchdog _ => true
  | .dispatch _ => true
  | .taskBind _ => true
  | .slotPreemptChoose _ => true
  | .slotPreemptSaveDone _ _ => true
  | .guestEndRestore _ _ => true
  | .taskEndComplete _ _ => true
  | .continuationReady _ _ => true
  | .completionRecordReady _ => true
  | .mxOpEnd _ => true
  | .weightLoadComplete _ => true
  | .engineGuardResolved _ _ _ => true
  | .guardNeverWritten _ _ _ => true
  | .engineBeat _ _ _ => true
  | .engineCommandComplete _ _ _ => true
  | .loaderSlotPublish _ _ _ => true
  | .storerSlotWritten _ _ _ => true
  | .streamFetch _ _ _ => true
  | .storePerformed _ => true
  | .atomicPerformed _ => true
  | .farAccessArrival _ => true
  | .heatSweep _ => true
  | .heldRequestServed _ => true
  | .contextFreeze _ _ => true
  | .contextUnfreeze _ _ => true
  | .occupancyFlush _ => true
  | .ctxsaveImagePerformed _ _ => true
  | .asyncTrapTaken _ => true
  | .swapComplete _ => true
  | .lateDataArrival _ _ _ => true
  | .tagTimeout _ _ => true
  | .shuttleException _ _ _ => true
  | .wfiWake _ => true
  | .bobbinBackingWrite _ => true
  | .dormantCountReport _ => true
  | .signalArrival _ _ => true
  | .messageArrival _ => true
  | .messageCreateRetry _ => true
  | .eventCounterSource _ _ _ => true
  | .objectEntryFetched _ _ => true
  | .extentFillComplete => true
  | .neighbourRefresh _ => true
  | .thermalHoldStart _ _ => true
  | .thermalHoldEnd _ _ => true
  | .holdLimitExceeded _ _ => true
  | .memoryEccError _ _ => true
  | .errorLogPoll _ => true
  | .hostCxlAccess _ _ _ _ => true
  | .regionDemandSwap _ _ => true
  | .backgroundSpill _ => true
  | .effectRelease => true
  | .worldFreed _ => true
  | .collectiveComplete _ _ _ => true
  | .expertFillComplete => true
  | .tierReadFailure => true
  | .forwardedRowArrival _ => true
  | .rotationStart _ => true
  | .slotBoundary => true
  | .flitTransmit _ _ _ => true
  | .flitReceive _ _ _ _ => true
  | .remoteRequestRelease _ => true
  | .remoteReplyArrival _ => true
  | .slotReturnTimer _ _ => true
  | .resendWaitExpiry _ => true
  | .positionAbandon _ => true
  | .replayStoreExpiry _ => true
  | .slotAudit _ _ => true
  | .incarnationRelease _ _ => true
  | .mpdRefresh _ _ _ => true
  | .heaterEffect _ _ => true
  | .spareLineLocked _ _ => true
  | .opticsRecoveryTimeout _ _ => true
  | .patternRepairStart _ _ => true
  | .machineCheck _ _ _ => true
  | .checkpointFreeze => true
  | .checkpointBlockStream => true
  | .checkpointComplete => true
  | .powerOn => true
  | .powerOff => true
  | .bootstatGo => true
  | .imageVerified => true
  | .bringupDone _ => true
  | .mboxJob _ _ => true
  | .mboxSwap _ => true
  | .mboxResume _ => true
  | .mboxResumeStep _ => true
  | .mboxRestore _ _ => true
  | .mboxMaint => true
  | .mboxPart _ => true
  | .mboxCklog _ _ => true
  | .mboxKey _ => true
  | .mboxUnknownCode _ => true
  | .jobCompleteReport _ => true
  | .acceptWrite _ _ => true
  | .htrWrite _ _ _ => true
  | .ringmapWrite _ _ _ => true
  | .splockWrite _ _ _ => true
  | .patctlWrite _ _ => true
  | .vcsecWrite _ => true
  | .evcntWrite _ _ _ => true
  | .syncspanWrite _ _ => true
  | .nrfcfgWrite _ _ => true
  | .nrfseedWrite _ _ => true
  | .fpcntWrite _ _ => true
  | .ecccntRead _ _ => true
  | .uelogRead _ _ => true
  | .faberrRead _ => true
  | .sclogcRead _ => true
  | .sclog0Read _ => true
  | .registerWrite _ _ _ => true
  | .illegalOpcode _ _ _ => true
  | .pldmRequest _ => true
  | .strobeMissing _ => true
  | .shuttleCauseLogReport _ => true

/-- The guard of an instruction; the tree, sync and hint syllables, the Shuttle's instructions and the events have none, and
count as always executing (R91, R94, R102). -/
def Instr.guard (i : Instr) : Guard :=
  match i with
  | .add g _ => g
  | .addi g _ => g
  | .sub g _ => g
  | .mul g _ => g
  | .mulh g _ => g
  | .mulhu g _ => g
  | .div g _ => g
  | .divu g _ => g
  | .rem g _ => g
  | .remu g _ => g
  | .and g _ => g
  | .or g _ => g
  | .xor g _ => g
  | .andn g _ => g
  | .shlReg g _ => g
  | .shlImm g _ => g
  | .shrReg g _ => g
  | .shrImm g _ => g
  | .sraReg g _ => g
  | .sraImm g _ => g
  | .rotReg g _ => g
  | .rotImm g _ => g
  | .clz g _ => g
  | .ctz g _ => g
  | .popc g _ => g
  | .bext g _ => g
  | .bdep g _ => g
  | .sext g _ => g
  | .zext g _ => g
  | .min g _ => g
  | .max g _ => g
  | .minu g _ => g
  | .maxu g _ => g
  | .sel g _ => g
  | .li g _ => g
  | .lih g _ => g
  | .cmpReg g _ => g
  | .cmpImm g _ => g
  | .tstbReg g _ => g
  | .tstbImm g _ => g
  | .pand g _ => g
  | .por g _ => g
  | .pxor g _ => g
  | .pnot g _ => g
  | .pmov g _ => g
  | .sfadd g _ => g
  | .sfmul g _ => g
  | .sfma g _ => g
  | .sfcmp g _ => g
  | .sfcvt g _ => g
  | .cderive g _ => g
  | .csetb g _ => g
  | .crights g _ => g
  | .cget g _ => g
  | .ctest g _ => g
  | .movsp g _ => g
  | .movts g _ => g
  | .qcfgWrite g _ => g
  | .syncpartWrite g _ => g
  | .feclrWrite g _ => g
  | .srseedWrite g _ => g
  | .vadd g _ _ => g
  | .vsub g _ _ => g
  | .vmul g _ _ => g
  | .vfma g _ _ => g
  | .vfms g _ _ => g
  | .vfnma g _ _ => g
  | .vmin g _ _ => g
  | .vmax g _ _ => g
  | .vabs g _ _ => g
  | .vneg g _ _ => g
  | .vcmp g _ _ => g
  | .vand g _ _ => g
  | .vor g _ _ => g
  | .vxor g _ _ => g
  | .vshl g _ _ => g
  | .vshr g _ _ => g
  | .vsra g _ _ => g
  | .vcvt g _ _ => g
  | .vrnd g _ _ => g
  | .vrcp g _ => g
  | .vrsq g _ => g
  | .vexp2 g _ => g
  | .vlog2 g _ => g
  | .vsum g _ _ => g
  | .vmaxr g _ _ => g
  | .vdot g _ _ => g
  | .vcmul g _ _ => g
  | .vcma g _ _ => g
  | .vconj g _ _ => g
  | .vperm g _ => g
  | .vshuf g _ => g
  | .vbcast g _ _ => g
  | .vsel g _ _ => g
  | .vmov g _ _ => g
  | .vpack g _ => g
  | .vunpk g _ => g
  | .vscl g _ _ => g
  | .vimad g _ _ => g
  | .vsat g _ _ => g
  | .vmset g _ _ => g
  | .vmand g _ _ => g
  | .vmor g _ _ => g
  | .vmnot g _ _ => g
  | .vmcnt g _ _ => g
  | .vmfirst g _ _ => g
  | .qadv g _ _ => g
  | .mma g _ => g
  | .mmaz g _ => g
  | .mmas g _ => g
  | .mwld g _ => g
  | .mwpf g _ => g
  | .mnest g _ => g
  | .mzero g _ => g
  | .macc g _ => g
  | .mtrn g _ => g
  | .mred g _ => g
  | .mcvt g _ => g
  | .mwait g _ => g
  | .mcfg g _ => g
  | .lds g _ => g
  | .ldv g _ => g
  | .ldb g _ => g
  | .ldx g _ => g
  | .ldf g _ => g
  | .pref g _ => g
  | .sparm g _ => g
  | .spstop g _ => g
  | .rngwait g _ => g
  | .rngwaitProd g _ => g
  | .rngadv g _ => g
  | .rngpub g _ => g
  | .fscq g _ => g
  | .fscqReg g _ => g
  | .fscqWait g _ => g
  | .ldr g _ => g
  | .ldrw g _ => g
  | .sts g _ => g
  | .stv g _ => g
  | .stb g _ => g
  | .stx g _ => g
  | .str g _ => g
  | .atom g _ => g
  | .atomr g _ => g
  | .fence g _ => g
  | .fencef g _ => g
  | .arrexp g _ => g
  | .arrive g _ => g
  | .arriveWait g _ => g
  | .cpy g _ => g
  | .cpyrGet g _ => g
  | .cpyrPut g _ => g
  | .subsLd g _ => g
  | .subsSt g _ => g
  | .unsub g _ => g
  | .drain g _ => g
  | .sfe g _ => g
  | .gqpush g _ => g
  | .coll g _ => g
  | .send g _ => g
  | .ckmark g _ => g
  | .call g _ => g
  | .ret g _ => g
  | .jmpi g _ => g
  | .loopReg g _ => g
  | .loopImm g _ => g
  | .brt _ _ _ _ _ _ _ _ _ => ⟨7, 0, false⟩
  | .hint _ _ _ => ⟨7, 0, false⟩
  | .sync _ => ⟨7, 0, false⟩
  | .waitsImm g _ => g
  | .waitsReg g _ => g
  | .tspawn g _ => g
  | .tjoin g _ => g
  | .tsealImm g _ => g
  | .tsealReg g _ => g
  | .tsignal g _ => g
  | .texit g _ => g
  | .tcancelImm g _ => g
  | .tcancelReg g _ => g
  | .tprioImm g _ => g
  | .tprioReg g _ => g
  | .tlvrecImm g _ => g
  | .tlvrecReg g _ => g
  | .wfork g _ => g
  | .wchooseImm g _ => g
  | .wchooseReg g _ => g
  | .wdone g _ => g
  | .wdiscard g _ => g
  | .wtagOwn g _ => g
  | .wtagQuery g _ => g
  | .ertq g _ => g
  | .trap g _ => g
  | .bkpt g _ => g
  | .eret g _ => g
  | .halt g _ => g
  | .ctxsave g _ => g
  | .restore g _ => g
  | .otinv g _ => g
  | .gqpop _ _ => ⟨7, 0, false⟩
  | .rrput _ _ _ => ⟨7, 0, false⟩
  | .ertget _ _ _ => ⟨7, 0, false⟩
  | .ertset _ _ _ => ⟨7, 0, false⟩
  | .park _ _ _ => ⟨7, 0, false⟩
  | .unpark _ _ => ⟨7, 0, false⟩
  | .fwdrow _ _ _ => ⟨7, 0, false⟩
  | .dtile _ _ => ⟨7, 0, false⟩
  | .emptyBundle _ _ _ => ⟨7, 0, false⟩
  | .shadowWriteLand _ _ => ⟨7, 0, false⟩
  | .stretchEndChoice _ => ⟨7, 0, false⟩
  | .issuePreemption _ => ⟨7, 0, false⟩
  | .preemptHoldTimeout _ => ⟨7, 0, false⟩
  | .demandExchangeDone _ => ⟨7, 0, false⟩
  | .syncRelease _ _ _ => ⟨7, 0, false⟩
  | .syncWatchdog _ => ⟨7, 0, false⟩
  | .dispatch _ => ⟨7, 0, false⟩
  | .taskBind _ => ⟨7, 0, false⟩
  | .slotPreemptChoose _ => ⟨7, 0, false⟩
  | .slotPreemptSaveDone _ _ => ⟨7, 0, false⟩
  | .guestEndRestore _ _ => ⟨7, 0, false⟩
  | .taskEndComplete _ _ => ⟨7, 0, false⟩
  | .continuationReady _ _ => ⟨7, 0, false⟩
  | .completionRecordReady _ => ⟨7, 0, false⟩
  | .mxOpEnd _ => ⟨7, 0, false⟩
  | .weightLoadComplete _ => ⟨7, 0, false⟩
  | .engineGuardResolved _ _ _ => ⟨7, 0, false⟩
  | .guardNeverWritten _ _ _ => ⟨7, 0, false⟩
  | .engineBeat _ _ _ => ⟨7, 0, false⟩
  | .engineCommandComplete _ _ _ => ⟨7, 0, false⟩
  | .loaderSlotPublish _ _ _ => ⟨7, 0, false⟩
  | .storerSlotWritten _ _ _ => ⟨7, 0, false⟩
  | .streamFetch _ _ _ => ⟨7, 0, false⟩
  | .storePerformed _ => ⟨7, 0, false⟩
  | .atomicPerformed _ => ⟨7, 0, false⟩
  | .farAccessArrival _ => ⟨7, 0, false⟩
  | .heatSweep _ => ⟨7, 0, false⟩
  | .heldRequestServed _ => ⟨7, 0, false⟩
  | .contextFreeze _ _ => ⟨7, 0, false⟩
  | .contextUnfreeze _ _ => ⟨7, 0, false⟩
  | .occupancyFlush _ => ⟨7, 0, false⟩
  | .ctxsaveImagePerformed _ _ => ⟨7, 0, false⟩
  | .asyncTrapTaken _ => ⟨7, 0, false⟩
  | .swapComplete _ => ⟨7, 0, false⟩
  | .lateDataArrival _ _ _ => ⟨7, 0, false⟩
  | .tagTimeout _ _ => ⟨7, 0, false⟩
  | .shuttleException _ _ _ => ⟨7, 0, false⟩
  | .wfiWake _ => ⟨7, 0, false⟩
  | .bobbinBackingWrite _ => ⟨7, 0, false⟩
  | .dormantCountReport _ => ⟨7, 0, false⟩
  | .signalArrival _ _ => ⟨7, 0, false⟩
  | .messageArrival _ => ⟨7, 0, false⟩
  | .messageCreateRetry _ => ⟨7, 0, false⟩
  | .eventCounterSource _ _ _ => ⟨7, 0, false⟩
  | .objectEntryFetched _ _ => ⟨7, 0, false⟩
  | .extentFillComplete => ⟨7, 0, false⟩
  | .neighbourRefresh _ => ⟨7, 0, false⟩
  | .thermalHoldStart _ _ => ⟨7, 0, false⟩
  | .thermalHoldEnd _ _ => ⟨7, 0, false⟩
  | .holdLimitExceeded _ _ => ⟨7, 0, false⟩
  | .memoryEccError _ _ => ⟨7, 0, false⟩
  | .errorLogPoll _ => ⟨7, 0, false⟩
  | .hostCxlAccess _ _ _ _ => ⟨7, 0, false⟩
  | .regionDemandSwap _ _ => ⟨7, 0, false⟩
  | .backgroundSpill _ => ⟨7, 0, false⟩
  | .effectRelease => ⟨7, 0, false⟩
  | .worldFreed _ => ⟨7, 0, false⟩
  | .collectiveComplete _ _ _ => ⟨7, 0, false⟩
  | .expertFillComplete => ⟨7, 0, false⟩
  | .tierReadFailure => ⟨7, 0, false⟩
  | .forwardedRowArrival _ => ⟨7, 0, false⟩
  | .rotationStart _ => ⟨7, 0, false⟩
  | .slotBoundary => ⟨7, 0, false⟩
  | .flitTransmit _ _ _ => ⟨7, 0, false⟩
  | .flitReceive _ _ _ _ => ⟨7, 0, false⟩
  | .remoteRequestRelease _ => ⟨7, 0, false⟩
  | .remoteReplyArrival _ => ⟨7, 0, false⟩
  | .slotReturnTimer _ _ => ⟨7, 0, false⟩
  | .resendWaitExpiry _ => ⟨7, 0, false⟩
  | .positionAbandon _ => ⟨7, 0, false⟩
  | .replayStoreExpiry _ => ⟨7, 0, false⟩
  | .slotAudit _ _ => ⟨7, 0, false⟩
  | .incarnationRelease _ _ => ⟨7, 0, false⟩
  | .mpdRefresh _ _ _ => ⟨7, 0, false⟩
  | .heaterEffect _ _ => ⟨7, 0, false⟩
  | .spareLineLocked _ _ => ⟨7, 0, false⟩
  | .opticsRecoveryTimeout _ _ => ⟨7, 0, false⟩
  | .patternRepairStart _ _ => ⟨7, 0, false⟩
  | .machineCheck _ _ _ => ⟨7, 0, false⟩
  | .checkpointFreeze => ⟨7, 0, false⟩
  | .checkpointBlockStream => ⟨7, 0, false⟩
  | .checkpointComplete => ⟨7, 0, false⟩
  | .powerOn => ⟨7, 0, false⟩
  | .powerOff => ⟨7, 0, false⟩
  | .bootstatGo => ⟨7, 0, false⟩
  | .imageVerified => ⟨7, 0, false⟩
  | .bringupDone _ => ⟨7, 0, false⟩
  | .mboxJob _ _ => ⟨7, 0, false⟩
  | .mboxSwap _ => ⟨7, 0, false⟩
  | .mboxResume _ => ⟨7, 0, false⟩
  | .mboxResumeStep _ => ⟨7, 0, false⟩
  | .mboxRestore _ _ => ⟨7, 0, false⟩
  | .mboxMaint => ⟨7, 0, false⟩
  | .mboxPart _ => ⟨7, 0, false⟩
  | .mboxCklog _ _ => ⟨7, 0, false⟩
  | .mboxKey _ => ⟨7, 0, false⟩
  | .mboxUnknownCode _ => ⟨7, 0, false⟩
  | .jobCompleteReport _ => ⟨7, 0, false⟩
  | .acceptWrite _ _ => ⟨7, 0, false⟩
  | .htrWrite _ _ _ => ⟨7, 0, false⟩
  | .ringmapWrite _ _ _ => ⟨7, 0, false⟩
  | .splockWrite _ _ _ => ⟨7, 0, false⟩
  | .patctlWrite _ _ => ⟨7, 0, false⟩
  | .vcsecWrite _ => ⟨7, 0, false⟩
  | .evcntWrite _ _ _ => ⟨7, 0, false⟩
  | .syncspanWrite _ _ => ⟨7, 0, false⟩
  | .nrfcfgWrite _ _ => ⟨7, 0, false⟩
  | .nrfseedWrite _ _ => ⟨7, 0, false⟩
  | .fpcntWrite _ _ => ⟨7, 0, false⟩
  | .ecccntRead _ _ => ⟨7, 0, false⟩
  | .uelogRead _ _ => ⟨7, 0, false⟩
  | .faberrRead _ => ⟨7, 0, false⟩
  | .sclogcRead _ => ⟨7, 0, false⟩
  | .sclog0Read _ => ⟨7, 0, false⟩
  | .registerWrite _ _ _ => ⟨7, 0, false⟩
  | .illegalOpcode _ _ _ => ⟨7, 0, false⟩
  | .pldmRequest _ => ⟨7, 0, false⟩
  | .strobeMissing _ => ⟨7, 0, false⟩
  | .shuttleCauseLogReport _ => ⟨7, 0, false⟩

/-- The slot of an instruction, numbered as the presence mask numbers it (R83): 0 SC, 1 VA, 2 VB, 3 MX, 4 LD, 5 ST, 6 CE,
7 SY. Shuttle instructions, events and the empty bundle stand in no slot, answered 8. -/
def Instr.slot (i : Instr) : Nat :=
  match i with
  | .add _ _ => 0
  | .addi _ _ => 0
  | .sub _ _ => 0
  | .mul _ _ => 0
  | .mulh _ _ => 0
  | .mulhu _ _ => 0
  | .div _ _ => 0
  | .divu _ _ => 0
  | .rem _ _ => 0
  | .remu _ _ => 0
  | .and _ _ => 0
  | .or _ _ => 0
  | .xor _ _ => 0
  | .andn _ _ => 0
  | .shlReg _ _ => 0
  | .shlImm _ _ => 0
  | .shrReg _ _ => 0
  | .shrImm _ _ => 0
  | .sraReg _ _ => 0
  | .sraImm _ _ => 0
  | .rotReg _ _ => 0
  | .rotImm _ _ => 0
  | .clz _ _ => 0
  | .ctz _ _ => 0
  | .popc _ _ => 0
  | .bext _ _ => 0
  | .bdep _ _ => 0
  | .sext _ _ => 0
  | .zext _ _ => 0
  | .min _ _ => 0
  | .max _ _ => 0
  | .minu _ _ => 0
  | .maxu _ _ => 0
  | .sel _ _ => 0
  | .li _ _ => 0
  | .lih _ _ => 0
  | .cmpReg _ _ => 0
  | .cmpImm _ _ => 0
  | .tstbReg _ _ => 0
  | .tstbImm _ _ => 0
  | .pand _ _ => 0
  | .por _ _ => 0
  | .pxor _ _ => 0
  | .pnot _ _ => 0
  | .pmov _ _ => 0
  | .sfadd _ _ => 0
  | .sfmul _ _ => 0
  | .sfma _ _ => 0
  | .sfcmp _ _ => 0
  | .sfcvt _ _ => 0
  | .cderive _ _ => 0
  | .csetb _ _ => 0
  | .crights _ _ => 0
  | .cget _ _ => 0
  | .ctest _ _ => 0
  | .movsp _ _ => 0
  | .movts _ _ => 0
  | .qcfgWrite _ _ => 0
  | .syncpartWrite _ _ => 0
  | .feclrWrite _ _ => 0
  | .srseedWrite _ _ => 0
  | .vadd _ b _ => if b then 2 else 1
  | .vsub _ b _ => if b then 2 else 1
  | .vmul _ b _ => if b then 2 else 1
  | .vfma _ b _ => if b then 2 else 1
  | .vfms _ b _ => if b then 2 else 1
  | .vfnma _ b _ => if b then 2 else 1
  | .vmin _ b _ => if b then 2 else 1
  | .vmax _ b _ => if b then 2 else 1
  | .vabs _ b _ => if b then 2 else 1
  | .vneg _ b _ => if b then 2 else 1
  | .vcmp _ b _ => if b then 2 else 1
  | .vand _ b _ => if b then 2 else 1
  | .vor _ b _ => if b then 2 else 1
  | .vxor _ b _ => if b then 2 else 1
  | .vshl _ b _ => if b then 2 else 1
  | .vshr _ b _ => if b then 2 else 1
  | .vsra _ b _ => if b then 2 else 1
  | .vcvt _ b _ => if b then 2 else 1
  | .vrnd _ b _ => if b then 2 else 1
  | .vrcp _ _ => 2
  | .vrsq _ _ => 2
  | .vexp2 _ _ => 2
  | .vlog2 _ _ => 2
  | .vsum _ b _ => if b then 2 else 1
  | .vmaxr _ b _ => if b then 2 else 1
  | .vdot _ b _ => if b then 2 else 1
  | .vcmul _ b _ => if b then 2 else 1
  | .vcma _ b _ => if b then 2 else 1
  | .vconj _ b _ => if b then 2 else 1
  | .vperm _ _ => 1
  | .vshuf _ _ => 1
  | .vbcast _ b _ => if b then 2 else 1
  | .vsel _ b _ => if b then 2 else 1
  | .vmov _ b _ => if b then 2 else 1
  | .vpack _ _ => 1
  | .vunpk _ _ => 1
  | .vscl _ b _ => if b then 2 else 1
  | .vimad _ b _ => if b then 2 else 1
  | .vsat _ b _ => if b then 2 else 1
  | .vmset _ b _ => if b then 2 else 1
  | .vmand _ b _ => if b then 2 else 1
  | .vmor _ b _ => if b then 2 else 1
  | .vmnot _ b _ => if b then 2 else 1
  | .vmcnt _ b _ => if b then 2 else 1
  | .vmfirst _ b _ => if b then 2 else 1
  | .qadv _ b _ => if b then 2 else 1
  | .mma _ _ => 3
  | .mmaz _ _ => 3
  | .mmas _ _ => 3
  | .mwld _ _ => 3
  | .mwpf _ _ => 3
  | .mnest _ _ => 3
  | .mzero _ _ => 3
  | .macc _ _ => 3
  | .mtrn _ _ => 3
  | .mred _ _ => 3
  | .mcvt _ _ => 3
  | .mwait _ _ => 3
  | .mcfg _ _ => 3
  | .lds _ _ => 4
  | .ldv _ _ => 4
  | .ldb _ _ => 4
  | .ldx _ _ => 4
  | .ldf _ _ => 4
  | .pref _ _ => 4
  | .sparm _ _ => 4
  | .spstop _ _ => 4
  | .rngwait _ _ => 4
  | .rngwaitProd _ _ => 4
  | .rngadv _ _ => 4
  | .rngpub _ _ => 5
  | .fscq _ _ => 4
  | .fscqReg _ _ => 4
  | .fscqWait _ _ => 4
  | .ldr _ _ => 4
  | .ldrw _ _ => 4
  | .sts _ _ => 5
  | .stv _ _ => 5
  | .stb _ _ => 5
  | .stx _ _ => 5
  | .str _ _ => 5
  | .atom _ _ => 5
  | .atomr _ _ => 5
  | .fence _ _ => 5
  | .fencef _ _ => 5
  | .arrexp _ _ => 5
  | .arrive _ _ => 5
  | .arriveWait _ _ => 5
  | .cpy _ _ => 6
  | .cpyrGet _ _ => 6
  | .cpyrPut _ _ => 6
  | .subsLd _ _ => 6
  | .subsSt _ _ => 6
  | .unsub _ _ => 6
  | .drain _ _ => 6
  | .sfe _ _ => 6
  | .gqpush _ _ => 6
  | .coll _ _ => 6
  | .send _ _ => 6
  | .ckmark _ _ => 6
  | .call _ _ => 7
  | .ret _ _ => 7
  | .jmpi _ _ => 7
  | .loopReg _ _ => 7
  | .loopImm _ _ => 7
  | .brt _ _ _ _ _ _ _ _ _ => 7
  | .hint slot _ _ => slot
  | .sync _ => 7
  | .waitsImm _ _ => 7
  | .waitsReg _ _ => 7
  | .tspawn _ _ => 7
  | .tjoin _ _ => 7
  | .tsealImm _ _ => 7
  | .tsealReg _ _ => 7
  | .tsignal _ _ => 7
  | .texit _ _ => 7
  | .tcancelImm _ _ => 7
  | .tcancelReg _ _ => 7
  | .tprioImm _ _ => 7
  | .tprioReg _ _ => 7
  | .tlvrecImm _ _ => 7
  | .tlvrecReg _ _ => 7
  | .wfork _ _ => 7
  | .wchooseImm _ _ => 7
  | .wchooseReg _ _ => 7
  | .wdone _ _ => 7
  | .wdiscard _ _ => 7
  | .wtagOwn _ _ => 7
  | .wtagQuery _ _ => 7
  | .ertq _ _ => 7
  | .trap _ _ => 7
  | .bkpt _ _ => 7
  | .eret _ _ => 7
  | .halt _ _ => 7
  | .ctxsave _ _ => 7
  | .restore _ _ => 7
  | .otinv _ _ => 7
  | .gqpop _ _ => 8
  | .rrput _ _ _ => 8
  | .ertget _ _ _ => 8
  | .ertset _ _ _ => 8
  | .park _ _ _ => 8
  | .unpark _ _ => 8
  | .fwdrow _ _ _ => 8
  | .dtile _ _ => 8
  | .emptyBundle _ _ _ => 8
  | .shadowWriteLand _ _ => 8
  | .stretchEndChoice _ => 8
  | .issuePreemption _ => 8
  | .preemptHoldTimeout _ => 8
  | .demandExchangeDone _ => 8
  | .syncRelease _ _ _ => 8
  | .syncWatchdog _ => 8
  | .dispatch _ => 8
  | .taskBind _ => 8
  | .slotPreemptChoose _ => 8
  | .slotPreemptSaveDone _ _ => 8
  | .guestEndRestore _ _ => 8
  | .taskEndComplete _ _ => 8
  | .continuationReady _ _ => 8
  | .completionRecordReady _ => 8
  | .mxOpEnd _ => 8
  | .weightLoadComplete _ => 8
  | .engineGuardResolved _ _ _ => 8
  | .guardNeverWritten _ _ _ => 8
  | .engineBeat _ _ _ => 8
  | .engineCommandComplete _ _ _ => 8
  | .loaderSlotPublish _ _ _ => 8
  | .storerSlotWritten _ _ _ => 8
  | .streamFetch _ _ _ => 8
  | .storePerformed _ => 8
  | .atomicPerformed _ => 8
  | .farAccessArrival _ => 8
  | .heatSweep _ => 8
  | .heldRequestServed _ => 8
  | .contextFreeze _ _ => 8
  | .contextUnfreeze _ _ => 8
  | .occupancyFlush _ => 8
  | .ctxsaveImagePerformed _ _ => 8
  | .asyncTrapTaken _ => 8
  | .swapComplete _ => 8
  | .lateDataArrival _ _ _ => 8
  | .tagTimeout _ _ => 8
  | .shuttleException _ _ _ => 8
  | .wfiWake _ => 8
  | .bobbinBackingWrite _ => 8
  | .dormantCountReport _ => 8
  | .signalArrival _ _ => 8
  | .messageArrival _ => 8
  | .messageCreateRetry _ => 8
  | .eventCounterSource _ _ _ => 8
  | .objectEntryFetched _ _ => 8
  | .extentFillComplete => 8
  | .neighbourRefresh _ => 8
  | .thermalHoldStart _ _ => 8
  | .thermalHoldEnd _ _ => 8
  | .holdLimitExceeded _ _ => 8
  | .memoryEccError _ _ => 8
  | .errorLogPoll _ => 8
  | .hostCxlAccess _ _ _ _ => 8
  | .regionDemandSwap _ _ => 8
  | .backgroundSpill _ => 8
  | .effectRelease => 8
  | .worldFreed _ => 8
  | .collectiveComplete _ _ _ => 8
  | .expertFillComplete => 8
  | .tierReadFailure => 8
  | .forwardedRowArrival _ => 8
  | .rotationStart _ => 8
  | .slotBoundary => 8
  | .flitTransmit _ _ _ => 8
  | .flitReceive _ _ _ _ => 8
  | .remoteRequestRelease _ => 8
  | .remoteReplyArrival _ => 8
  | .slotReturnTimer _ _ => 8
  | .resendWaitExpiry _ => 8
  | .positionAbandon _ => 8
  | .replayStoreExpiry _ => 8
  | .slotAudit _ _ => 8
  | .incarnationRelease _ _ => 8
  | .mpdRefresh _ _ _ => 8
  | .heaterEffect _ _ => 8
  | .spareLineLocked _ _ => 8
  | .opticsRecoveryTimeout _ _ => 8
  | .patternRepairStart _ _ => 8
  | .machineCheck _ _ _ => 8
  | .checkpointFreeze => 8
  | .checkpointBlockStream => 8
  | .checkpointComplete => 8
  | .powerOn => 8
  | .powerOff => 8
  | .bootstatGo => 8
  | .imageVerified => 8
  | .bringupDone _ => 8
  | .mboxJob _ _ => 8
  | .mboxSwap _ => 8
  | .mboxResume _ => 8
  | .mboxResumeStep _ => 8
  | .mboxRestore _ _ => 8
  | .mboxMaint => 8
  | .mboxPart _ => 8
  | .mboxCklog _ _ => 8
  | .mboxKey _ => 8
  | .mboxUnknownCode _ => 8
  | .jobCompleteReport _ => 8
  | .acceptWrite _ _ => 8
  | .htrWrite _ _ _ => 8
  | .ringmapWrite _ _ _ => 8
  | .splockWrite _ _ _ => 8
  | .patctlWrite _ _ => 8
  | .vcsecWrite _ => 8
  | .evcntWrite _ _ _ => 8
  | .syncspanWrite _ _ => 8
  | .nrfcfgWrite _ _ => 8
  | .nrfseedWrite _ _ => 8
  | .fpcntWrite _ _ => 8
  | .ecccntRead _ _ => 8
  | .uelogRead _ _ => 8
  | .faberrRead _ => 8
  | .sclogcRead _ => 8
  | .sclog0Read _ => 8
  | .registerWrite _ _ _ => 8
  | .illegalOpcode _ _ _ => 8
  | .pldmRequest _ => 8
  | .strobeMissing _ => 8
  | .shuttleCauseLogReport _ => 8

/-- A well-formed instruction: its guard, fields and ring depths are admitted. -/
def Instr.wellFormed (i : Instr) : Bool := i.guard.ok && i.fieldsOk && i.ringsOk

end Sys2Proof
end

