-- ==== Sys2Proof/Decode.lean ====
section
/-! DEFINITION. Decode.lean: from the bits of an issue group to its instructions, in the order of 05 R107, and the encoder
written from the same tables (R81 to R106); the Shuttle's custom instructions (16 R318). A bit string is one natural number,
bit 0 the least significant bit of the byte at the lowest address (R82). -/

namespace Sys2Proof

/-- Bits [lo + len − 1 : lo] of a bit string. -/
def bitsAt (w lo len : Nat) : Nat := w / 2 ^ lo % 2 ^ len

/-- The operand bits [37:0] of format SX (R100). -/
def packSX (f : SX) : Nat := f.sd * 4294967296 + f.sa * 67108864 + f.sb * 1048576 + f.rm * 131072 + f.fn
/-- The fields of format SX (R100). -/
def unpackSX (o : Nat) : SX :=
  ⟨o / 4294967296 % 64, o / 67108864 % 64, o / 1048576 % 64, o / 131072 % 8, o / 1 % 131072⟩

/-- The operand bits [37:0] of format SI (R100). -/
def packSI (f : SI) : Nat := f.sd * 4294967296 + f.sa * 67108864 + f.imm
/-- The fields of format SI (R100). -/
def unpackSI (o : Nat) : SI :=
  ⟨o / 4294967296 % 64, o / 67108864 % 64, o / 1 % 67108864⟩

/-- The operand bits [37:0] of format SL (R100). -/
def packSL (f : SL) : Nat := f.sd * 4294967296 + f.imm
/-- The fields of format SL (R100). -/
def unpackSL (o : Nat) : SL :=
  ⟨o / 4294967296 % 64, o / 1 % 4294967296⟩

/-- The operand bits [37:0] of format SP (R100). -/
def packSP (f : SP) : Nat := f.pd * 4294967296 + f.xa * 67108864 + f.xb * 1048576 + f.cc * 65536 + f.fn
/-- The fields of format SP (R100). -/
def unpackSP (o : Nat) : SP :=
  ⟨o / 4294967296 % 64, o / 67108864 % 64, o / 1048576 % 64, o / 65536 % 16, o / 1 % 65536⟩

/-- The operand bits [37:0] of format SK (R100). -/
def packSK (f : SK) : Nat := f.cd * 17179869184 + f.ca * 1073741824 + f.sa * 16777216 + f.sb * 262144 + f.fn
/-- The fields of format SK (R100). -/
def unpackSK (o : Nat) : SK :=
  ⟨o / 17179869184 % 16, o / 1073741824 % 16, o / 16777216 % 64, o / 262144 % 64, o / 1 % 262144⟩

/-- The operand bits [37:0] of format SM (R100). -/
def packSM (f : SM) : Nat := f.sd * 4294967296 + f.num * 4194304
/-- The fields of format SM (R100). -/
def unpackSM (o : Nat) : SM :=
  ⟨o / 4294967296 % 64, o / 4194304 % 1024⟩

/-- The operand bits [37:0] of format VX (R100). -/
def packVX (f : VX) : Nat := f.w * 68719476736 + f.t * 4294967296 + f.rm * 536870912 + f.z * 268435456 + f.msk * 8388608 + f.vd * 65536 + f.va * 256 + f.vb
/-- The fields of format VX (R100). -/
def unpackVX (o : Nat) : VX :=
  ⟨o / 68719476736 % 4, o / 4294967296 % 16, o / 536870912 % 8, o / 268435456 % 2, o / 8388608 % 32, o / 65536 % 128, o / 256 % 256, o / 1 % 256⟩

/-- The operand bits [37:0] of format VY (R100). -/
def packVY (f : VY) : Nat := f.w * 68719476736 + f.ft * 17179869184 + f.rm * 2147483648 + f.vd * 16777216 + f.va * 65536 + f.vb * 256 + f.vc
/-- The fields of format VY (R100). -/
def unpackVY (o : Nat) : VY :=
  ⟨o / 68719476736 % 4, o / 17179869184 % 4, o / 2147483648 % 8, o / 16777216 % 128, o / 65536 % 256, o / 256 % 256, o / 1 % 256⟩

/-- The operand bits [37:0] of format VC (R100). -/
def packVC (f : VC) : Nat := f.w * 68719476736 + f.st * 2147483648 + f.dt * 67108864 + f.rm * 8388608 + f.sat * 4194304 + f.z * 2097152 + f.msk * 65536 + f.vd * 256 + f.va
/-- The fields of format VC (R100). -/
def unpackVC (o : Nat) : VC :=
  ⟨o / 68719476736 % 4, o / 2147483648 % 32, o / 67108864 % 32, o / 8388608 % 8, o / 4194304 % 2, o / 2097152 % 2, o / 65536 % 32, o / 256 % 128, o / 1 % 256⟩

/-- The operand bits [37:0] of format VI (R100). -/
def packVI (f : VI) : Nat := f.w * 68719476736 + f.t * 4294967296 + f.vd * 16777216 + f.va * 65536 + f.imm
/-- The fields of format VI (R100). -/
def unpackVI (o : Nat) : VI :=
  ⟨o / 68719476736 % 4, o / 4294967296 % 16, o / 16777216 % 128, o / 65536 % 256, o / 1 % 65536⟩

/-- The operand bits [37:0] of format VM (R100). -/
def packVM (f : VM) : Nat := f.w * 68719476736 + f.ed * 4294967296 + f.ea * 268435456 + f.eb * 16777216 + f.sd * 262144 + f.fn
/-- The fields of format VM (R100). -/
def unpackVM (o : Nat) : VM :=
  ⟨o / 68719476736 % 4, o / 4294967296 % 16, o / 268435456 % 16, o / 16777216 % 16, o / 262144 % 64, o / 1 % 262144⟩

/-- The operand bits [37:0] of format VQ (R100). -/
def packVQ (f : VQ) : Nat := f.qn * 4294967296 + f.cnt * 4194304
/-- The fields of format VQ (R100). -/
def unpackVQ (o : Nat) : VQ :=
  ⟨o / 4294967296 % 64, o / 4194304 % 1024⟩

/-- The operand bits [37:0] of format MA (R100). -/
def packMA (f : MA) : Nat := f.acc * 17179869184 + f.sa * 268435456 + f.sb * 4194304 + f.mr * 32768 + f.em * 2048 + f.skip * 1024 + f.fmt * 64 + f.fn
/-- The fields of format MA (R100). -/
def unpackMA (o : Nat) : MA :=
  ⟨o / 17179869184 % 16, o / 268435456 % 64, o / 4194304 % 64, o / 32768 % 128, o / 2048 % 16, o / 1024 % 2, o / 64 % 16, o / 1 % 64⟩

/-- The operand bits [37:0] of format MW (R100). -/
def packMW (f : MW) : Nat := f.wb * 17179869184 + f.sa * 268435456 + f.sb * 4194304 + f.fmt * 262144 + f.fn
/-- The fields of format MW (R100). -/
def unpackMW (o : Nat) : MW :=
  ⟨o / 17179869184 % 16, o / 268435456 % 64, o / 4194304 % 64, o / 262144 % 16, o / 1 % 262144⟩

/-- The operand bits [37:0] of format MT (R100). -/
def packMT (f : MT) : Nat := f.acc * 17179869184 + f.bt * 1073741824 + f.sa * 16777216 + f.rm * 2097152 + f.fmt * 131072 + f.fn
/-- The fields of format MT (R100). -/
def unpackMT (o : Nat) : MT :=
  ⟨o / 17179869184 % 16, o / 1073741824 % 16, o / 16777216 % 64, o / 2097152 % 8, o / 131072 % 16, o / 1 % 131072⟩

/-- The operand bits [37:0] of format MC (R100). -/
def packMC (f : MC) : Nat := f.sa * 4294967296 + f.imm
/-- The fields of format MC (R100). -/
def unpackMC (o : Nat) : MC :=
  ⟨o / 4294967296 % 64, o / 1 % 4294967296⟩

/-- The operand bits [37:0] of format MM (R100). -/
def packMM (f : MM) : Nat := f.ds * 1073741824 + f.cb * 67108864 + f.so * 1048576 + f.cl * 65536 + f.lu * 32768 + f.sz * 4096 + f.imm
/-- The fields of format MM (R100). -/
def unpackMM (o : Nat) : MM :=
  ⟨o / 1073741824 % 256, o / 67108864 % 16, o / 1048576 % 64, o / 65536 % 16, o / 32768 % 2, o / 4096 % 8, o / 1 % 4096⟩

/-- The operand bits [37:0] of format MD (R100). -/
def packMD (f : MD) : Nat := f.ds * 1073741824 + f.cb * 67108864 + f.so * 1048576 + f.cl * 65536 + f.fn
/-- The fields of format MD (R100). -/
def unpackMD (o : Nat) : MD :=
  ⟨o / 1073741824 % 256, o / 67108864 % 16, o / 1048576 % 64, o / 65536 % 16, o / 1 % 65536⟩

/-- The operand bits [37:0] of format MS (R100). -/
def packMS (f : MS) : Nat := f.gk * 34359738368 + f.cb * 2147483648 + f.sa * 33554432 + f.fn
/-- The fields of format MS (R100). -/
def unpackMS (o : Nat) : MS :=
  ⟨o / 34359738368 % 8, o / 2147483648 % 16, o / 33554432 % 64, o / 1 % 33554432⟩

/-- The operand bits [37:0] of format MQ (R100). -/
def packMQ (f : MQ) : Nat := f.sa * 4294967296 + f.sb * 67108864 + f.imm
/-- The fields of format MQ (R100). -/
def unpackMQ (o : Nat) : MQ :=
  ⟨o / 4294967296 % 64, o / 67108864 % 64, o / 1 % 67108864⟩

/-- The operand bits [37:0] of format EC (R100). -/
def packEC (f : EC) : Nat := f.sem * 17179869184 + f.cl * 1073741824 + f.cb * 67108864 + f.sa * 1048576 + f.sb * 16384 + f.fn
/-- The fields of format EC (R100). -/
def unpackEC (o : Nat) : EC :=
  ⟨o / 17179869184 % 16, o / 1073741824 % 16, o / 67108864 % 16, o / 1048576 % 64, o / 16384 % 64, o / 1 % 16384⟩

/-- The operand bits [37:0] of format YJ (R100). -/
def packYJ (f : YJ) : Nat := f.sd * 4294967296 + f.imm
/-- The fields of format YJ (R100). -/
def unpackYJ (o : Nat) : YJ :=
  ⟨o / 4294967296 % 64, o / 1 % 4294967296⟩

/-- The operand bits [37:0] of format YX (R100). -/
def packYX (f : YX) : Nat := f.xa * 4294967296 + f.xb * 67108864 + f.xc * 1048576 + f.fn
/-- The fields of format YX (R100). -/
def unpackYX (o : Nat) : YX :=
  ⟨o / 4294967296 % 64, o / 67108864 % 64, o / 1048576 % 64, o / 1 % 1048576⟩

/-- The operand bits [37:0] of a syllable; 0 for an instruction that has none. -/
def Instr.opnd (i : Instr) : Nat :=
  match i with
  | .add _ f => packSX f
  | .addi _ f => packSI f
  | .sub _ f => packSX f
  | .mul _ f => packSX f
  | .mulh _ f => packSX f
  | .mulhu _ f => packSX f
  | .div _ f => packSX f
  | .divu _ f => packSX f
  | .rem _ f => packSX f
  | .remu _ f => packSX f
  | .and _ f => packSX f
  | .or _ f => packSX f
  | .xor _ f => packSX f
  | .andn _ f => packSX f
  | .shlReg _ f => packSX f
  | .shlImm _ f => packSX f
  | .shrReg _ f => packSX f
  | .shrImm _ f => packSX f
  | .sraReg _ f => packSX f
  | .sraImm _ f => packSX f
  | .rotReg _ f => packSX f
  | .rotImm _ f => packSX f
  | .clz _ f => packSX f
  | .ctz _ f => packSX f
  | .popc _ f => packSX f
  | .bext _ f => packSX f
  | .bdep _ f => packSX f
  | .sext _ f => packSX f
  | .zext _ f => packSX f
  | .min _ f => packSX f
  | .max _ f => packSX f
  | .minu _ f => packSX f
  | .maxu _ f => packSX f
  | .sel _ f => packSX f
  | .li _ f => packSL f
  | .lih _ f => packSL f
  | .cmpReg _ f => packSP f
  | .cmpImm _ f => packSP f
  | .tstbReg _ f => packSP f
  | .tstbImm _ f => packSP f
  | .pand _ f => packSP f
  | .por _ f => packSP f
  | .pxor _ f => packSP f
  | .pnot _ f => packSP f
  | .pmov _ f => packSP f
  | .sfadd _ f => packSX f
  | .sfmul _ f => packSX f
  | .sfma _ f => packSX f
  | .sfcmp _ f => packSP f
  | .sfcvt _ f => packSX f
  | .cderive _ f => packSK f
  | .csetb _ f => packSK f
  | .crights _ f => packSK f
  | .cget _ f => packSK f
  | .ctest _ f => packSK f
  | .movsp _ f => packSM f
  | .movts _ f => packSM f
  | .qcfgWrite _ f => packSM f
  | .syncpartWrite _ f => packSM f
  | .feclrWrite _ f => packSM f
  | .srseedWrite _ f => packSM f
  | .vadd _ _ f => packVX f
  | .vsub _ _ f => packVX f
  | .vmul _ _ f => packVX f
  | .vfma _ _ f => packVY f
  | .vfms _ _ f => packVY f
  | .vfnma _ _ f => packVY f
  | .vmin _ _ f => packVX f
  | .vmax _ _ f => packVX f
  | .vabs _ _ f => packVX f
  | .vneg _ _ f => packVX f
  | .vcmp _ _ f => packVX f
  | .vand _ _ f => packVX f
  | .vor _ _ f => packVX f
  | .vxor _ _ f => packVX f
  | .vshl _ _ f => packVX f
  | .vshr _ _ f => packVX f
  | .vsra _ _ f => packVX f
  | .vcvt _ _ f => packVC f
  | .vrnd _ _ f => packVX f
  | .vrcp _ f => packVX f
  | .vrsq _ f => packVX f
  | .vexp2 _ f => packVX f
  | .vlog2 _ f => packVX f
  | .vsum _ _ f => packVX f
  | .vmaxr _ _ f => packVX f
  | .vdot _ _ f => packVX f
  | .vcmul _ _ f => packVX f
  | .vcma _ _ f => packVY f
  | .vconj _ _ f => packVX f
  | .vperm _ f => packVX f
  | .vshuf _ f => packVI f
  | .vbcast _ _ f => packVI f
  | .vsel _ _ f => packVX f
  | .vmov _ _ f => packVX f
  | .vpack _ f => packVC f
  | .vunpk _ f => packVC f
  | .vscl _ _ f => packVX f
  | .vimad _ _ f => packVY f
  | .vsat _ _ f => packVC f
  | .vmset _ _ f => packVM f
  | .vmand _ _ f => packVM f
  | .vmor _ _ f => packVM f
  | .vmnot _ _ f => packVM f
  | .vmcnt _ _ f => packVM f
  | .vmfirst _ _ f => packVM f
  | .qadv _ _ f => packVQ f
  | .mma _ f => packMA f
  | .mmaz _ f => packMA f
  | .mmas _ f => packMA f
  | .mwld _ f => packMW f
  | .mwpf _ f => packMW f
  | .mnest _ f => packMC f
  | .mzero _ f => packMT f
  | .macc _ f => packMT f
  | .mtrn _ f => packMT f
  | .mred _ f => packMT f
  | .mcvt _ f => packMT f
  | .mwait _ f => packMT f
  | .mcfg _ f => packMC f
  | .lds _ f => packMM f
  | .ldv _ f => packMM f
  | .ldb _ f => packMM f
  | .ldx _ f => packMM f
  | .ldf _ f => packMM f
  | .pref _ f => packMM f
  | .sparm _ f => packMS f
  | .spstop _ f => packMS f
  | .rngwait _ f => packMQ f
  | .rngwaitProd _ f => packMQ f
  | .rngadv _ f => packMQ f
  | .rngpub _ f => packMQ f
  | .fscq _ f => packMQ f
  | .fscqReg _ f => packMQ f
  | .fscqWait _ f => packMQ f
  | .ldr _ f => packMD f
  | .ldrw _ f => packMD f
  | .sts _ f => packMM f
  | .stv _ f => packMM f
  | .stb _ f => packMM f
  | .stx _ f => packMM f
  | .str _ f => packMD f
  | .atom _ f => packMD f
  | .atomr _ f => packMD f
  | .fence _ f => packMQ f
  | .fencef _ f => packMQ f
  | .arrexp _ f => packMQ f
  | .arrive _ f => packMQ f
  | .arriveWait _ f => packMQ f
  | .cpy _ f => packEC f
  | .cpyrGet _ f => packEC f
  | .cpyrPut _ f => packEC f
  | .subsLd _ f => packEC f
  | .subsSt _ f => packEC f
  | .unsub _ f => packEC f
  | .drain _ f => packEC f
  | .sfe _ f => packEC f
  | .gqpush _ f => packEC f
  | .coll _ f => packEC f
  | .send _ f => packEC f
  | .ckmark _ f => packEC f
  | .call _ f => packYJ f
  | .ret _ f => packYX f
  | .jmpi _ f => packYX f
  | .loopReg _ f => packYX f
  | .loopImm _ f => packYX f
  | .brt _ _ _ _ _ _ _ _ _ => 0
  | .hint _ _ _ => 0
  | .sync _ => 0
  | .waitsImm _ f => packYX f
  | .waitsReg _ f => packYX f
  | .tspawn _ f => packYX f
  | .tjoin _ f => packYX f
  | .tsealImm _ f => packYX f
  | .tsealReg _ f => packYX f
  | .tsignal _ f => packYX f
  | .texit _ f => packYX f
  | .tcancelImm _ f => packYX f
  | .tcancelReg _ f => packYX f
  | .tprioImm _ f => packYX f
  | .tprioReg _ f => packYX f
  | .tlvrecImm _ f => packYX f
  | .tlvrecReg _ f => packYX f
  | .wfork _ f => packYX f
  | .wchooseImm _ f => packYX f
  | .wchooseReg _ f => packYX f
  | .wdone _ f => packYX f
  | .wdiscard _ f => packYX f
  | .wtagOwn _ f => packYX f
  | .wtagQuery _ f => packYX f
  | .ertq _ f => packYX f
  | .trap _ f => packYX f
  | .bkpt _ f => packYX f
  | .eret _ f => packYX f
  | .halt _ f => packYX f
  | .ctxsave _ f => packYX f
  | .restore _ f => packYX f
  | .otinv _ f => packYX f
  | .gqpop _ _ => 0
  | .rrput _ _ _ => 0
  | .ertget _ _ _ => 0
  | .ertset _ _ _ => 0
  | .park _ _ _ => 0
  | .unpark _ _ => 0
  | .fwdrow _ _ _ => 0
  | .dtile _ _ => 0
  | .emptyBundle _ _ _ => 0
  | .shadowWriteLand _ _ => 0
  | .stretchEndChoice _ => 0
  | .issuePreemption _ => 0
  | .preemptHoldTimeout _ => 0
  | .demandExchangeDone _ => 0
  | .syncRelease _ _ _ => 0
  | .syncWatchdog _ => 0
  | .dispatch _ => 0
  | .taskBind _ => 0
  | .slotPreemptChoose _ => 0
  | .slotPreemptSaveDone _ _ => 0
  | .guestEndRestore _ _ => 0
  | .taskEndComplete _ _ => 0
  | .continuationReady _ _ => 0
  | .completionRecordReady _ => 0
  | .mxOpEnd _ => 0
  | .weightLoadComplete _ => 0
  | .engineGuardResolved _ _ _ => 0
  | .guardNeverWritten _ _ _ => 0
  | .engineBeat _ _ _ => 0
  | .engineCommandComplete _ _ _ => 0
  | .loaderSlotPublish _ _ _ => 0
  | .storerSlotWritten _ _ _ => 0
  | .streamFetch _ _ _ => 0
  | .storePerformed _ => 0
  | .atomicPerformed _ => 0
  | .farAccessArrival _ => 0
  | .heatSweep _ => 0
  | .heldRequestServed _ => 0
  | .contextFreeze _ _ => 0
  | .contextUnfreeze _ _ => 0
  | .occupancyFlush _ => 0
  | .ctxsaveImagePerformed _ _ => 0
  | .asyncTrapTaken _ => 0
  | .swapComplete _ => 0
  | .lateDataArrival _ _ _ => 0
  | .tagTimeout _ _ => 0
  | .shuttleException _ _ _ => 0
  | .wfiWake _ => 0
  | .bobbinBackingWrite _ => 0
  | .dormantCountReport _ => 0
  | .signalArrival _ _ => 0
  | .messageArrival _ => 0
  | .messageCreateRetry _ => 0
  | .eventCounterSource _ _ _ => 0
  | .objectEntryFetched _ _ => 0
  | .extentFillComplete => 0
  | .neighbourRefresh _ => 0
  | .thermalHoldStart _ _ => 0
  | .thermalHoldEnd _ _ => 0
  | .holdLimitExceeded _ _ => 0
  | .memoryEccError _ _ => 0
  | .errorLogPoll _ => 0
  | .hostCxlAccess _ _ _ _ => 0
  | .regionDemandSwap _ _ => 0
  | .backgroundSpill _ => 0
  | .effectRelease => 0
  | .worldFreed _ => 0
  | .collectiveComplete _ _ _ => 0
  | .expertFillComplete => 0
  | .tierReadFailure => 0
  | .forwardedRowArrival _ => 0
  | .rotationStart _ => 0
  | .slotBoundary => 0
  | .flitTransmit _ _ _ => 0
  | .flitReceive _ _ _ _ => 0
  | .remoteRequestRelease _ => 0
  | .remoteReplyArrival _ => 0
  | .slotReturnTimer _ _ => 0
  | .resendWaitExpiry _ => 0
  | .positionAbandon _ => 0
  | .replayStoreExpiry _ => 0
  | .slotAudit _ _ => 0
  | .incarnationRelease _ _ => 0
  | .mpdRefresh _ _ _ => 0
  | .heaterEffect _ _ => 0
  | .spareLineLocked _ _ => 0
  | .opticsRecoveryTimeout _ _ => 0
  | .patternRepairStart _ _ => 0
  | .machineCheck _ _ _ => 0
  | .checkpointFreeze => 0
  | .checkpointBlockStream => 0
  | .checkpointComplete => 0
  | .powerOn => 0
  | .powerOff => 0
  | .bootstatGo => 0
  | .imageVerified => 0
  | .bringupDone _ => 0
  | .mboxJob _ _ => 0
  | .mboxSwap _ => 0
  | .mboxResume _ => 0
  | .mboxResumeStep _ => 0
  | .mboxRestore _ _ => 0
  | .mboxMaint => 0
  | .mboxPart _ => 0
  | .mboxCklog _ _ => 0
  | .mboxKey _ => 0
  | .mboxUnknownCode _ => 0
  | .jobCompleteReport _ => 0
  | .acceptWrite _ _ => 0
  | .htrWrite _ _ _ => 0
  | .ringmapWrite _ _ _ => 0
  | .splockWrite _ _ _ => 0
  | .patctlWrite _ _ => 0
  | .vcsecWrite _ => 0
  | .evcntWrite _ _ _ => 0
  | .syncspanWrite _ _ => 0
  | .nrfcfgWrite _ _ => 0
  | .nrfseedWrite _ _ => 0
  | .fpcntWrite _ _ => 0
  | .ecccntRead _ _ => 0
  | .uelogRead _ _ => 0
  | .faberrRead _ => 0
  | .sclogcRead _ => 0
  | .sclog0Read _ => 0
  | .registerWrite _ _ _ => 0
  | .illegalOpcode _ _ _ => 0
  | .pldmRequest _ => 0
  | .strobeMissing _ => 0
  | .shuttleCauseLogReport _ => 0

/-- The major opcode (R103 to R106); 0 for an instruction that has none. -/
def Instr.opcode (i : Instr) : Nat :=
  match i with
  | .add _ _ => 0
  | .addi _ _ => 1
  | .sub _ _ => 2
  | .mul _ _ => 3
  | .mulh _ _ => 4
  | .mulhu _ _ => 5
  | .div _ _ => 6
  | .divu _ _ => 7
  | .rem _ _ => 8
  | .remu _ _ => 9
  | .and _ _ => 16
  | .or _ _ => 17
  | .xor _ _ => 18
  | .andn _ _ => 19
  | .shlReg _ _ => 20
  | .shlImm _ _ => 20
  | .shrReg _ _ => 21
  | .shrImm _ _ => 21
  | .sraReg _ _ => 22
  | .sraImm _ _ => 22
  | .rotReg _ _ => 23
  | .rotImm _ _ => 23
  | .clz _ _ => 24
  | .ctz _ _ => 25
  | .popc _ _ => 26
  | .bext _ _ => 27
  | .bdep _ _ => 28
  | .sext _ _ => 29
  | .zext _ _ => 30
  | .min _ _ => 32
  | .max _ _ => 33
  | .minu _ _ => 34
  | .maxu _ _ => 35
  | .sel _ _ => 36
  | .li _ _ => 37
  | .lih _ _ => 38
  | .cmpReg _ _ => 48
  | .cmpImm _ _ => 48
  | .tstbReg _ _ => 49
  | .tstbImm _ _ => 49
  | .pand _ _ => 50
  | .por _ _ => 51
  | .pxor _ _ => 52
  | .pnot _ _ => 53
  | .pmov _ _ => 54
  | .sfadd _ _ => 64
  | .sfmul _ _ => 65
  | .sfma _ _ => 66
  | .sfcmp _ _ => 67
  | .sfcvt _ _ => 68
  | .cderive _ _ => 80
  | .csetb _ _ => 81
  | .crights _ _ => 82
  | .cget _ _ => 83
  | .ctest _ _ => 84
  | .movsp _ _ => 96
  | .movts _ _ => 97
  | .qcfgWrite _ _ => 97
  | .syncpartWrite _ _ => 97
  | .feclrWrite _ _ => 97
  | .srseedWrite _ _ => 97
  | .vadd _ _ _ => 0
  | .vsub _ _ _ => 1
  | .vmul _ _ _ => 2
  | .vfma _ _ _ => 3
  | .vfms _ _ _ => 4
  | .vfnma _ _ _ => 5
  | .vmin _ _ _ => 6
  | .vmax _ _ _ => 7
  | .vabs _ _ _ => 8
  | .vneg _ _ _ => 9
  | .vcmp _ _ _ => 10
  | .vand _ _ _ => 16
  | .vor _ _ _ => 17
  | .vxor _ _ _ => 18
  | .vshl _ _ _ => 19
  | .vshr _ _ _ => 20
  | .vsra _ _ _ => 21
  | .vcvt _ _ _ => 32
  | .vrnd _ _ _ => 33
  | .vrcp _ _ => 34
  | .vrsq _ _ => 35
  | .vexp2 _ _ => 36
  | .vlog2 _ _ => 37
  | .vsum _ _ _ => 48
  | .vmaxr _ _ _ => 49
  | .vdot _ _ _ => 50
  | .vcmul _ _ _ => 56
  | .vcma _ _ _ => 57
  | .vconj _ _ _ => 58
  | .vperm _ _ => 64
  | .vshuf _ _ => 65
  | .vbcast _ _ _ => 66
  | .vsel _ _ _ => 67
  | .vmov _ _ _ => 68
  | .vpack _ _ => 69
  | .vunpk _ _ => 70
  | .vscl _ _ _ => 71
  | .vimad _ _ _ => 72
  | .vsat _ _ _ => 73
  | .vmset _ _ _ => 80
  | .vmand _ _ _ => 81
  | .vmor _ _ _ => 82
  | .vmnot _ _ _ => 83
  | .vmcnt _ _ _ => 84
  | .vmfirst _ _ _ => 85
  | .qadv _ _ _ => 96
  | .mma _ _ => 0
  | .mmaz _ _ => 1
  | .mmas _ _ => 2
  | .mwld _ _ => 8
  | .mwpf _ _ => 9
  | .mnest _ _ => 33
  | .mzero _ _ => 20
  | .macc _ _ => 17
  | .mtrn _ _ => 16
  | .mred _ _ => 19
  | .mcvt _ _ => 18
  | .mwait _ _ => 21
  | .mcfg _ _ => 32
  | .lds _ _ => 0
  | .ldv _ _ => 1
  | .ldb _ _ => 2
  | .ldx _ _ => 3
  | .ldf _ _ => 10
  | .pref _ _ => 16
  | .sparm _ _ => 24
  | .spstop _ _ => 25
  | .rngwait _ _ => 32
  | .rngwaitProd _ _ => 32
  | .rngadv _ _ => 33
  | .rngpub _ _ => 32
  | .fscq _ _ => 34
  | .fscqReg _ _ => 34
  | .fscqWait _ _ => 34
  | .ldr _ _ => 8
  | .ldrw _ _ => 9
  | .sts _ _ => 0
  | .stv _ _ => 1
  | .stb _ _ => 2
  | .stx _ _ => 3
  | .str _ _ => 8
  | .atom _ _ => 16
  | .atomr _ _ => 17
  | .fence _ _ => 24
  | .fencef _ _ => 25
  | .arrexp _ _ => 40
  | .arrive _ _ => 41
  | .arriveWait _ _ => 41
  | .cpy _ _ => 0
  | .cpyrGet _ _ => 1
  | .cpyrPut _ _ => 1
  | .subsLd _ _ => 2
  | .subsSt _ _ => 2
  | .unsub _ _ => 3
  | .drain _ _ => 4
  | .sfe _ _ => 8
  | .gqpush _ _ => 16
  | .coll _ _ => 17
  | .send _ _ => 18
  | .ckmark _ _ => 24
  | .call _ _ => 1
  | .ret _ _ => 2
  | .jmpi _ _ => 3
  | .loopReg _ _ => 4
  | .loopImm _ _ => 4
  | .brt _ _ _ _ _ _ _ _ _ => 0
  | .hint _ n _ => 240 + n
  | .sync _ => 8
  | .waitsImm _ _ => 9
  | .waitsReg _ _ => 9
  | .tspawn _ _ => 16
  | .tjoin _ _ => 17
  | .tsealImm _ _ => 18
  | .tsealReg _ _ => 18
  | .tsignal _ _ => 19
  | .texit _ _ => 20
  | .tcancelImm _ _ => 21
  | .tcancelReg _ _ => 21
  | .tprioImm _ _ => 22
  | .tprioReg _ _ => 22
  | .tlvrecImm _ _ => 23
  | .tlvrecReg _ _ => 23
  | .wfork _ _ => 32
  | .wchooseImm _ _ => 33
  | .wchooseReg _ _ => 33
  | .wdone _ _ => 34
  | .wdiscard _ _ => 35
  | .wtagOwn _ _ => 36
  | .wtagQuery _ _ => 36
  | .ertq _ _ => 40
  | .trap _ _ => 48
  | .bkpt _ _ => 49
  | .eret _ _ => 50
  | .halt _ _ => 51
  | .ctxsave _ _ => 56
  | .restore _ _ => 57
  | .otinv _ _ => 58
  | .gqpop _ _ => 0
  | .rrput _ _ _ => 0
  | .ertget _ _ _ => 0
  | .ertset _ _ _ => 0
  | .park _ _ _ => 0
  | .unpark _ _ => 0
  | .fwdrow _ _ _ => 0
  | .dtile _ _ => 0
  | .emptyBundle _ _ _ => 0
  | .shadowWriteLand _ _ => 0
  | .stretchEndChoice _ => 0
  | .issuePreemption _ => 0
  | .preemptHoldTimeout _ => 0
  | .demandExchangeDone _ => 0
  | .syncRelease _ _ _ => 0
  | .syncWatchdog _ => 0
  | .dispatch _ => 0
  | .taskBind _ => 0
  | .slotPreemptChoose _ => 0
  | .slotPreemptSaveDone _ _ => 0
  | .guestEndRestore _ _ => 0
  | .taskEndComplete _ _ => 0
  | .continuationReady _ _ => 0
  | .completionRecordReady _ => 0
  | .mxOpEnd _ => 0
  | .weightLoadComplete _ => 0
  | .engineGuardResolved _ _ _ => 0
  | .guardNeverWritten _ _ _ => 0
  | .engineBeat _ _ _ => 0
  | .engineCommandComplete _ _ _ => 0
  | .loaderSlotPublish _ _ _ => 0
  | .storerSlotWritten _ _ _ => 0
  | .streamFetch _ _ _ => 0
  | .storePerformed _ => 0
  | .atomicPerformed _ => 0
  | .farAccessArrival _ => 0
  | .heatSweep _ => 0
  | .heldRequestServed _ => 0
  | .contextFreeze _ _ => 0
  | .contextUnfreeze _ _ => 0
  | .occupancyFlush _ => 0
  | .ctxsaveImagePerformed _ _ => 0
  | .asyncTrapTaken _ => 0
  | .swapComplete _ => 0
  | .lateDataArrival _ _ _ => 0
  | .tagTimeout _ _ => 0
  | .shuttleException _ _ _ => 0
  | .wfiWake _ => 0
  | .bobbinBackingWrite _ => 0
  | .dormantCountReport _ => 0
  | .signalArrival _ _ => 0
  | .messageArrival _ => 0
  | .messageCreateRetry _ => 0
  | .eventCounterSource _ _ _ => 0
  | .objectEntryFetched _ _ => 0
  | .extentFillComplete => 0
  | .neighbourRefresh _ => 0
  | .thermalHoldStart _ _ => 0
  | .thermalHoldEnd _ _ => 0
  | .holdLimitExceeded _ _ => 0
  | .memoryEccError _ _ => 0
  | .errorLogPoll _ => 0
  | .hostCxlAccess _ _ _ _ => 0
  | .regionDemandSwap _ _ => 0
  | .backgroundSpill _ => 0
  | .effectRelease => 0
  | .worldFreed _ => 0
  | .collectiveComplete _ _ _ => 0
  | .expertFillComplete => 0
  | .tierReadFailure => 0
  | .forwardedRowArrival _ => 0
  | .rotationStart _ => 0
  | .slotBoundary => 0
  | .flitTransmit _ _ _ => 0
  | .flitReceive _ _ _ _ => 0
  | .remoteRequestRelease _ => 0
  | .remoteReplyArrival _ => 0
  | .slotReturnTimer _ _ => 0
  | .resendWaitExpiry _ => 0
  | .positionAbandon _ => 0
  | .replayStoreExpiry _ => 0
  | .slotAudit _ _ => 0
  | .incarnationRelease _ _ => 0
  | .mpdRefresh _ _ _ => 0
  | .heaterEffect _ _ => 0
  | .spareLineLocked _ _ => 0
  | .opticsRecoveryTimeout _ _ => 0
  | .patternRepairStart _ _ => 0
  | .machineCheck _ _ _ => 0
  | .checkpointFreeze => 0
  | .checkpointBlockStream => 0
  | .checkpointComplete => 0
  | .powerOn => 0
  | .powerOff => 0
  | .bootstatGo => 0
  | .imageVerified => 0
  | .bringupDone _ => 0
  | .mboxJob _ _ => 0
  | .mboxSwap _ => 0
  | .mboxResume _ => 0
  | .mboxResumeStep _ => 0
  | .mboxRestore _ _ => 0
  | .mboxMaint => 0
  | .mboxPart _ => 0
  | .mboxCklog _ _ => 0
  | .mboxKey _ => 0
  | .mboxUnknownCode _ => 0
  | .jobCompleteReport _ => 0
  | .acceptWrite _ _ => 0
  | .htrWrite _ _ _ => 0
  | .ringmapWrite _ _ _ => 0
  | .splockWrite _ _ _ => 0
  | .patctlWrite _ _ => 0
  | .vcsecWrite _ => 0
  | .evcntWrite _ _ _ => 0
  | .syncspanWrite _ _ => 0
  | .nrfcfgWrite _ _ => 0
  | .nrfseedWrite _ _ => 0
  | .fpcntWrite _ _ => 0
  | .ecccntRead _ _ => 0
  | .uelogRead _ _ => 0
  | .faberrRead _ => 0
  | .sclogcRead _ => 0
  | .sclog0Read _ => 0
  | .registerWrite _ _ _ => 0
  | .illegalOpcode _ _ _ => 0
  | .pldmRequest _ => 0
  | .strobeMissing _ => 0
  | .shuttleCauseLogReport _ => 0

/-- Class SC: the instruction an opcode names, with its fields as they stand; none where the class does not list it. -/
def rawSC (opc : Nat) (g : Guard) (o : Nat) : Option Instr :=
  match opc with
  | 0 => some (.add g (unpackSX o))
  | 1 => some (.addi g (unpackSI o))
  | 2 => some (.sub g (unpackSX o))
  | 3 => some (.mul g (unpackSX o))
  | 4 => some (.mulh g (unpackSX o))
  | 5 => some (.mulhu g (unpackSX o))
  | 6 => some (.div g (unpackSX o))
  | 7 => some (.divu g (unpackSX o))
  | 8 => some (.rem g (unpackSX o))
  | 9 => some (.remu g (unpackSX o))
  | 16 => some (.and g (unpackSX o))
  | 17 => some (.or g (unpackSX o))
  | 18 => some (.xor g (unpackSX o))
  | 19 => some (.andn g (unpackSX o))
  | 20 => if o / 64 % 2 == 1 then some (.shlImm g (unpackSX o)) else some (.shlReg g (unpackSX o))
  | 21 => if o / 64 % 2 == 1 then some (.shrImm g (unpackSX o)) else some (.shrReg g (unpackSX o))
  | 22 => if o / 64 % 2 == 1 then some (.sraImm g (unpackSX o)) else some (.sraReg g (unpackSX o))
  | 23 => if o / 64 % 2 == 1 then some (.rotImm g (unpackSX o)) else some (.rotReg g (unpackSX o))
  | 24 => some (.clz g (unpackSX o))
  | 25 => some (.ctz g (unpackSX o))
  | 26 => some (.popc g (unpackSX o))
  | 27 => some (.bext g (unpackSX o))
  | 28 => some (.bdep g (unpackSX o))
  | 29 => some (.sext g (unpackSX o))
  | 30 => some (.zext g (unpackSX o))
  | 32 => some (.min g (unpackSX o))
  | 33 => some (.max g (unpackSX o))
  | 34 => some (.minu g (unpackSX o))
  | 35 => some (.maxu g (unpackSX o))
  | 36 => some (.sel g (unpackSX o))
  | 37 => some (.li g (unpackSL o))
  | 38 => some (.lih g (unpackSL o))
  | 48 => if o / 32768 % 2 == 1 then some (.cmpImm g (unpackSP o)) else some (.cmpReg g (unpackSP o))
  | 49 => if o / 64 % 2 == 1 then some (.tstbImm g (unpackSP o)) else some (.tstbReg g (unpackSP o))
  | 50 => some (.pand g (unpackSP o))
  | 51 => some (.por g (unpackSP o))
  | 52 => some (.pxor g (unpackSP o))
  | 53 => some (.pnot g (unpackSP o))
  | 54 => some (.pmov g (unpackSP o))
  | 64 => some (.sfadd g (unpackSX o))
  | 65 => some (.sfmul g (unpackSX o))
  | 66 => some (.sfma g (unpackSX o))
  | 67 => some (.sfcmp g (unpackSP o))
  | 68 => some (.sfcvt g (unpackSX o))
  | 80 => some (.cderive g (unpackSK o))
  | 81 => some (.csetb g (unpackSK o))
  | 82 => some (.crights g (unpackSK o))
  | 83 => some (.cget g (unpackSK o))
  | 84 => some (.ctest g (unpackSK o))
  | 96 => some (.movsp g (unpackSM o))
  | 97 => if (64 ≤ o / 4194304 % 1024 && o / 4194304 % 1024 < 128) then some (.qcfgWrite g (unpackSM o)) else if o / 4194304 % 1024 == 22 then some (.syncpartWrite g (unpackSM o)) else if o / 4194304 % 1024 == 9 then some (.feclrWrite g (unpackSM o)) else if o / 4194304 % 1024 == 11 then some (.srseedWrite g (unpackSM o)) else some (.movts g (unpackSM o))
  | _ => none

/-- Class VA and VB: the instruction an opcode names, with its fields as they stand; none where the class does not list it. -/
def rawV (b : Bool) (opc : Nat) (g : Guard) (o : Nat) : Option Instr :=
  match opc with
  | 0 => some (.vadd g b (unpackVX o))
  | 1 => some (.vsub g b (unpackVX o))
  | 2 => some (.vmul g b (unpackVX o))
  | 3 => some (.vfma g b (unpackVY o))
  | 4 => some (.vfms g b (unpackVY o))
  | 5 => some (.vfnma g b (unpackVY o))
  | 6 => some (.vmin g b (unpackVX o))
  | 7 => some (.vmax g b (unpackVX o))
  | 8 => some (.vabs g b (unpackVX o))
  | 9 => some (.vneg g b (unpackVX o))
  | 10 => some (.vcmp g b (unpackVX o))
  | 16 => some (.vand g b (unpackVX o))
  | 17 => some (.vor g b (unpackVX o))
  | 18 => some (.vxor g b (unpackVX o))
  | 19 => some (.vshl g b (unpackVX o))
  | 20 => some (.vshr g b (unpackVX o))
  | 21 => some (.vsra g b (unpackVX o))
  | 32 => some (.vcvt g b (unpackVC o))
  | 33 => some (.vrnd g b (unpackVX o))
  | 34 => some (.vrcp g (unpackVX o))
  | 35 => some (.vrsq g (unpackVX o))
  | 36 => some (.vexp2 g (unpackVX o))
  | 37 => some (.vlog2 g (unpackVX o))
  | 48 => some (.vsum g b (unpackVX o))
  | 49 => some (.vmaxr g b (unpackVX o))
  | 50 => some (.vdot g b (unpackVX o))
  | 56 => some (.vcmul g b (unpackVX o))
  | 57 => some (.vcma g b (unpackVY o))
  | 58 => some (.vconj g b (unpackVX o))
  | 64 => some (.vperm g (unpackVX o))
  | 65 => some (.vshuf g (unpackVI o))
  | 66 => some (.vbcast g b (unpackVI o))
  | 67 => some (.vsel g b (unpackVX o))
  | 68 => some (.vmov g b (unpackVX o))
  | 69 => some (.vpack g (unpackVC o))
  | 70 => some (.vunpk g (unpackVC o))
  | 71 => some (.vscl g b (unpackVX o))
  | 72 => some (.vimad g b (unpackVY o))
  | 73 => some (.vsat g b (unpackVC o))
  | 80 => some (.vmset g b (unpackVM o))
  | 81 => some (.vmand g b (unpackVM o))
  | 82 => some (.vmor g b (unpackVM o))
  | 83 => some (.vmnot g b (unpackVM o))
  | 84 => some (.vmcnt g b (unpackVM o))
  | 85 => some (.vmfirst g b (unpackVM o))
  | 96 => some (.qadv g b (unpackVQ o))
  | _ => none

/-- Class MX: the instruction an opcode names, with its fields as they stand; none where the class does not list it. -/
def rawMX (opc : Nat) (g : Guard) (o : Nat) : Option Instr :=
  match opc with
  | 0 => some (.mma g (unpackMA o))
  | 1 => some (.mmaz g (unpackMA o))
  | 2 => some (.mmas g (unpackMA o))
  | 8 => some (.mwld g (unpackMW o))
  | 9 => some (.mwpf g (unpackMW o))
  | 16 => some (.mtrn g (unpackMT o))
  | 17 => some (.macc g (unpackMT o))
  | 18 => some (.mcvt g (unpackMT o))
  | 19 => some (.mred g (unpackMT o))
  | 20 => some (.mzero g (unpackMT o))
  | 21 => some (.mwait g (unpackMT o))
  | 32 => some (.mcfg g (unpackMC o))
  | 33 => some (.mnest g (unpackMC o))
  | _ => none

/-- Class LD: the instruction an opcode names, with its fields as they stand; none where the class does not list it. -/
def rawLD (opc : Nat) (g : Guard) (o : Nat) : Option Instr :=
  match opc with
  | 0 => some (.lds g (unpackMM o))
  | 1 => some (.ldv g (unpackMM o))
  | 2 => some (.ldb g (unpackMM o))
  | 3 => some (.ldx g (unpackMM o))
  | 8 => some (.ldr g (unpackMD o))
  | 9 => some (.ldrw g (unpackMD o))
  | 10 => some (.ldf g (unpackMM o))
  | 16 => some (.pref g (unpackMM o))
  | 24 => some (.sparm g (unpackMS o))
  | 25 => some (.spstop g (unpackMS o))
  | 32 => if o / 4096 % 2 == 1 then some (.rngwaitProd g (unpackMQ o)) else some (.rngwait g (unpackMQ o))
  | 33 => some (.rngadv g (unpackMQ o))
  | 34 => if o / 128 % 2 == 1 then some (.fscqWait g (unpackMQ o)) else if o / 64 % 2 == 1 then some (.fscqReg g (unpackMQ o)) else some (.fscq g (unpackMQ o))
  | _ => none

/-- Class ST: the instruction an opcode names, with its fields as they stand; none where the class does not list it. -/
def rawST (opc : Nat) (g : Guard) (o : Nat) : Option Instr :=
  match opc with
  | 0 => some (.sts g (unpackMM o))
  | 1 => some (.stv g (unpackMM o))
  | 2 => some (.stb g (unpackMM o))
  | 3 => some (.stx g (unpackMM o))
  | 8 => some (.str g (unpackMD o))
  | 16 => some (.atom g (unpackMD o))
  | 17 => some (.atomr g (unpackMD o))
  | 24 => some (.fence g (unpackMQ o))
  | 25 => some (.fencef g (unpackMQ o))
  | 32 => some (.rngpub g (unpackMQ o))
  | 40 => some (.arrexp g (unpackMQ o))
  | 41 => if o / 262144 % 2 == 1 then some (.arriveWait g (unpackMQ o)) else some (.arrive g (unpackMQ o))
  | _ => none

/-- Class CE: the instruction an opcode names, with its fields as they stand; none where the class does not list it. -/
def rawCE (opc : Nat) (g : Guard) (o : Nat) : Option Instr :=
  match opc with
  | 0 => some (.cpy g (unpackEC o))
  | 1 => if o % 2 == 1 then some (.cpyrPut g (unpackEC o)) else some (.cpyrGet g (unpackEC o))
  | 2 => if o % 2 == 1 then some (.subsSt g (unpackEC o)) else some (.subsLd g (unpackEC o))
  | 3 => some (.unsub g (unpackEC o))
  | 4 => some (.drain g (unpackEC o))
  | 8 => some (.sfe g (unpackEC o))
  | 16 => some (.gqpush g (unpackEC o))
  | 17 => some (.coll g (unpackEC o))
  | 18 => some (.send g (unpackEC o))
  | 24 => some (.ckmark g (unpackEC o))
  | _ => none

/-- Class SY: the instruction an opcode names, with its fields as they stand; none where the class does not list it. -/
def rawSY (opc : Nat) (g : Guard) (o : Nat) : Option Instr :=
  match opc with
  | 1 => some (.call g (unpackYJ o))
  | 2 => some (.ret g (unpackYX o))
  | 3 => some (.jmpi g (unpackYX o))
  | 4 => if o / 256 % 2 == 1 then some (.loopImm g (unpackYX o)) else some (.loopReg g (unpackYX o))
  | 9 => if o / 16 % 2 == 1 then some (.waitsReg g (unpackYX o)) else some (.waitsImm g (unpackYX o))
  | 16 => some (.tspawn g (unpackYX o))
  | 17 => some (.tjoin g (unpackYX o))
  | 18 => if o / 65536 % 2 == 1 then some (.tsealReg g (unpackYX o)) else some (.tsealImm g (unpackYX o))
  | 19 => some (.tsignal g (unpackYX o))
  | 20 => some (.texit g (unpackYX o))
  | 21 => if o / 262144 % 2 == 1 then some (.tcancelReg g (unpackYX o)) else some (.tcancelImm g (unpackYX o))
  | 22 => if o / 32 % 2 == 1 then some (.tprioReg g (unpackYX o)) else some (.tprioImm g (unpackYX o))
  | 23 => if o / 262144 % 2 == 1 then some (.tlvrecReg g (unpackYX o)) else some (.tlvrecImm g (unpackYX o))
  | 32 => some (.wfork g (unpackYX o))
  | 33 => if o / 8 % 2 == 1 then some (.wchooseReg g (unpackYX o)) else some (.wchooseImm g (unpackYX o))
  | 34 => some (.wdone g (unpackYX o))
  | 35 => some (.wdiscard g (unpackYX o))
  | 36 => if o / 8 % 2 == 1 then some (.wtagQuery g (unpackYX o)) else some (.wtagOwn g (unpackYX o))
  | 40 => some (.ertq g (unpackYX o))
  | 48 => some (.trap g (unpackYX o))
  | 49 => some (.bkpt g (unpackYX o))
  | 50 => some (.eret g (unpackYX o))
  | 51 => some (.halt g (unpackYX o))
  | 56 => some (.ctxsave g (unpackYX o))
  | 57 => some (.restore g (unpackYX o))
  | 58 => some (.otinv g (unpackYX o))
  | 8 => some (.sync (o % 65536))
  | _ => none

/-- The instruction an opcode names in a slot (R101, R103 to R106). -/
def rawOf (slot opc : Nat) (g : Guard) (o : Nat) : Option Instr :=
  match slot with
  | 0 => rawSC opc g o
  | 1 => rawV false opc g o
  | 2 => rawV true opc g o
  | 3 => rawMX opc g o
  | 4 => rawLD opc g o
  | 5 => rawST opc g o
  | 6 => rawCE opc g o
  | 7 => rawSY opc g o
  | _ => none

/-- R104: the opcodes of the cross-lane network stand in VA only, those of the approximation unit in VB only. -/
def slotClash (slot opc : Nat) : Bool :=
  (slot == 2 && (opc == 64 || opc == 65 || opc == 69 || opc == 70))
    || (slot == 1 && (opc == 34 || opc == 35 || opc == 36 || opc == 37))

/-- What the decoder reads: an instruction, or the cause of R107. -/
inductive Dec where
  | bad (cause : Nat)
  | ok (i : Instr)
  deriving DecidableEq, Repr

/-- Bits [47:0] of a syllable that a reserved field may leave non-zero: of SYNC all above the mask (R90), of the others what
the format does not name (R100). -/
def reservedClear (i : Instr) (w : Nat) : Bool :=
  match i with
  | .sync mask => w % 281474976710656 == mask
  | _ => i.opnd == w % 274877906944

/-- One syllable of a slot in a group whose tree has `leaves` leaves: hints first (R102), then PATH, opcode, slot, reserved
fields and values, ring depth (R107, step 3). -/
def decodeSyllable (slot leaves w : Nat) : Dec :=
  let opc := w / 281474976710656 % 256
  let path := w / 35184372088832 % 8
  let g : Guard := ⟨path, w / 549755813888 % 64, w / 274877906944 % 2 == 1⟩
  if 240 ≤ opc then .ok (.hint slot (opc - 240) (w % 281474976710656))
  else if !(path == 7 || path < leaves) then .bad 0x0C
  else match rawOf slot opc g (w % 274877906944) with
    | none => .bad 0x01
    | some i =>
      if slotClash slot opc then .bad 0x03
      else if !(reservedClear i w && i.fieldsOk) then .bad 0x02
      else if !i.ringsOk then .bad 0x09
      else .ok i

/-- An issue group as decoded: its instructions in slot order, the header bits that hold for the whole group (R86), its length,
the offsets of its last bundle and of the bundle that holds its SY syllable, and its slots in bundle order (R44). -/
structure Group where
  syls : List Instr
  mark : Bool
  yield : Bool
  join : Bool
  len : Nat
  lastOff : Nat
  syOff : Nat
  order : List Nat
  deriving DecidableEq, Repr

/-- The outcome of decoding a group: a group, or a cause with the slot it names and the EINFO of R384. -/
inductive DecGroup where
  | bad (cause : Nat) (slot : Option Nat) (info : Nat)
  | ok (g : Group)
  deriving DecidableEq, Repr

/-- One bundle as it stands in memory: its offset in the group, its header, its syllables with their slots, its length. -/
structure RawBundle where
  off : Nat
  hdr : Nat
  syls : List (Nat × Nat)
  len : Nat
  deriving DecidableEq, Repr

/-- Slots of a presence mask, in slot order (R81, R83). -/
def presSlots (pres : Nat) : List Nat := (List.range 8).filter (fun k => pres / 2 ^ k % 2 == 1)

/-- Bundle length in bytes for n syllables (R81). -/
def bundleLen (n : Nat) : Nat := (64 + 56 * n + 63) / 64 * 8

/-- The bundle whose first bit is bit 0 of w (R81, R82). -/
def rawBundle (off w : Nat) : RawBundle :=
  let hdr := w % 18446744073709551616
  let slots := presSlots (hdr % 256)
  ⟨off, hdr, slots.zipIdx.map (fun p => (p.1, bitsAt w (64 + 56 * p.2) 56)), bundleLen slots.length⟩

def RawBundle.stop (b : RawBundle) : Bool := b.hdr / 256 % 2 == 1
def RawBundle.mark (b : RawBundle) : Bool := b.hdr / 512 % 2 == 1
def RawBundle.yield (b : RawBundle) : Bool := b.hdr / 1024 % 2 == 1
def RawBundle.join (b : RawBundle) : Bool := b.hdr / 2048 % 2 == 1
def RawBundle.sync (b : RawBundle) : Bool := b.hdr / 4096 % 2 == 1
def RawBundle.shape (b : RawBundle) : Nat := b.hdr / 65536 % 16
/-- The SY syllable's word, if the bundle has one. -/
def RawBundle.sy (b : RawBundle) : Option Nat := (b.syls.find? (fun p => p.1 == 7)).map (·.2)

/-- The framing conditions of one bundle (R81, R83, R85, R90, R94) that stands after bundles holding the slots of `seen`, as
bundle number idx of its group, with the padding bits pad. -/
def framingOk (b : RawBundle) (seen idx pad : Nat) : Bool :=
  let pres := b.hdr % 256
  let syOpc := b.sy.map (fun w => w / 281474976710656 % 256)
  b.hdr / 8192 % 8 == 0 && b.hdr / 281474976710656 == 0 && pad == 0
    && (presSlots pres).all (fun k => seen / 2 ^ k % 2 == 0)
    && (pres != 0 || (b.stop && idx == 0))
    && (b.stop || !(b.yield || b.sync || b.shape != 0))
    && (b.stop || idx != 7)
    && (if b.sync then b.shape == 0 && syOpc == some 8
        else if b.shape != 0 then b.sy.isSome
        else syOpc != some 8)

/-- The bundles of the group that begins at bit 0 of w, checked in address order; the index of the first failure otherwise. -/
def rawGroup (fuel : Nat) (w off seen idx : Nat) : Except Nat (List RawBundle) :=
  match fuel with
  | 0 => .error 7
  | fuel + 1 =>
    let b := rawBundle off w
    let used := 64 + 56 * b.syls.length
    if !(framingOk b seen idx (bitsAt w used (8 * b.len - used))) then .error idx
    else if b.stop then .ok [b]
    else match rawGroup fuel (w / 2 ^ (8 * b.len)) (off + b.len) (seen + b.hdr % 256) (idx + 1) with
      | .error k => .error k
      | .ok bs => .ok (b :: bs)

/-- The tree syllable of a bundle with a non-zero SHAPE (R93, R94); none where the tree is malformed. -/
def decodeTree (b : RawBundle) (w : Nat) : Option Instr :=
  let i : Instr := .brt b.shape (b.hdr / 1048576 % 128) (b.hdr / 134217728 % 128) (b.hdr / 17179869184 % 128)
    (b.hdr / 2199023255552 % 128) (w % 8192) (w / 8192 % 8192) (w / 67108864 % 8192) (w / 549755813888 % 8192)
  if i.fieldsOk && w / 4503599627370496 == 0 then some i else none

/-- The syllables in slot order, the first failure with its slot (R107, step 3). -/
def decodeSyls (leaves : Nat) (l : List (Nat × Nat)) : Except (Nat × Nat × Nat) (List Instr) :=
  match l with
  | [] => .ok []
  | (slot, w) :: rest =>
    match decodeSyllable slot leaves w with
    | .bad c => .error (c, slot, w)
    | .ok i =>
      match decodeSyls leaves rest with
      | .error e => .error e
      | .ok is => .ok (i :: is)

/-- Every syllable of the group's bundles, in slot order (R81: slots are disjoint, R85). -/
def slotOrder (bs : List RawBundle) : List (Nat × Nat) :=
  (List.range 8).flatMap (fun k => bs.flatMap (fun b => b.syls.filter (fun p => p.1 == k)))

/-- The unused test fields of a bundle without a tree (R83, R93). -/
def testsClear (b : RawBundle) : Bool := b.hdr / 1048576 % 268435456 == 0

/-- The group that begins at bit 0 of w, checked in the order of R107. -/
def decodeGroup (w : Nat) : DecGroup :=
  match rawGroup 8 w 0 0 0 with
  | .error k => .bad 0x04 none k
  | .ok bs =>
    match bs.getLast? with
    | none => .bad 0x04 none 0
    | some last =>
      let g : List Instr → DecGroup := fun is => .ok {
        syls := is, mark := bs.any (·.mark), yield := last.yield, join := bs.any (·.join),
        len := last.off + last.len, lastOff := last.off,
        syOff := ((bs.find? (fun b => b.sy.isSome)).map (·.off)).getD 0
        order := bs.flatMap (fun b => b.syls.map (·.1)) }
      match bs.findIdx? (fun b => b.shape == 0 && !testsClear b) with
      | some k => .bad 0x0C none k
      | none =>
      if last.shape == 0 then
        match decodeSyls 1 (slotOrder bs) with
        | .error (c, slot, w) => .bad c (some slot) w
        | .ok [] => g [.emptyBundle last.mark last.yield last.join]
        | .ok is => g is
      else
        match decodeTree last (last.sy.getD 0) with
        | none => .bad 0x0C none (bs.length - 1)
        | some t =>
          match decodeSyls (treeLeaves last.shape) ((slotOrder bs).filter (fun p => p.1 != 7)) with
          | .error (c, slot, w) => .bad c (some slot) w
          | .ok is => g (is ++ [t])

/-- Bytes as a bit string: the first byte lowest (R6, R82). -/
def leNat (bs : List Byte) : Nat :=
  match bs with
  | [] => 0
  | b :: rest => b.toNat + 256 * leNat rest

/-- The decoder on any bytes. -/
def decodeBytes (bs : List Byte) : DecGroup := decodeGroup (leNat bs)

/-- The Shuttle's custom instructions (16 R318): opcodes 0x0B and 0x2B, FUNCT3, FUNCT7 0, and rs2 0 where unused. -/
def decodeShuttle (w : Nat) : Option Instr :=
  let rd := w / 128 % 32
  let rs1 := w / 32768 % 32
  let rs2 := w / 1048576 % 32
  if w / 33554432 != 0 then none
  else match w % 128, w / 4096 % 8 with
  | 11, 0 => if rs2 == 0 then some (.gqpop rd rs1) else none
  | 11, 1 => some (.rrput rd rs1 rs2)
  | 11, 2 => some (.ertget rd rs1 rs2)
  | 11, 3 => some (.ertset rd rs1 rs2)
  | 43, 0 => some (.park rd rs1 rs2)
  | 43, 1 => if rs2 == 0 then some (.unpark rd rs1) else none
  | 43, 2 => some (.fwdrow rd rs1 rs2)
  | 43, 3 => if rs2 == 0 then some (.dtile rd rs1) else none
  | _, _ => none

/-- The 56 bits of a syllable (R84, R90, R94, R102). -/
def Instr.syllable (i : Instr) : Nat :=
  match i with
  | .hint _ n imm => (240 + n) * 281474976710656 + imm
  | .sync mask => 8 * 281474976710656 + mask
  | .brt _ _ _ _ _ d1 d2 d3 d4 => d1 + d2 * 8192 + d3 * 67108864 + d4 * 549755813888
  | i => i.opcode * 281474976710656 + i.guard.path * 35184372088832 + i.guard.pred * 549755813888
      + (if i.guard.sense then 274877906944 else 0) + i.opnd

/-- The header parcel of the bundle that holds the instruction alone and ends its group (R83). -/
def Instr.header (i : Instr) : Nat :=
  match i with
  | .brt shape t0 t1 t2 t3 _ _ _ _ =>
    128 + 256 + shape * 65536 + t0 * 1048576 + t1 * 134217728 + t2 * 17179869184 + t3 * 2199023255552
  | .sync _ => 128 + 256 + 4096
  | .emptyBundle mark yield join =>
    256 + (if mark then 512 else 0) + (if yield then 1024 else 0) + (if join then 2048 else 0)
  | i => 2 ^ i.slot + 256

/-- The bits of an instruction: how many, and which. A Crion syllable stands alone in a bundle of 128 bits, the empty bundle
has 64, a Shuttle instruction 32 (R318); an event has none. -/
def encode (i : Instr) : Nat × Nat :=
  match i with
  | .gqpop rd rs1 => (32, 11 + rd * 128 + 0 * 4096 + rs1 * 32768)
  | .rrput rd rs1 rs2 => (32, 11 + rd * 128 + 1 * 4096 + rs1 * 32768 + rs2 * 1048576)
  | .ertget rd rs1 rs2 => (32, 11 + rd * 128 + 2 * 4096 + rs1 * 32768 + rs2 * 1048576)
  | .ertset rd rs1 rs2 => (32, 11 + rd * 128 + 3 * 4096 + rs1 * 32768 + rs2 * 1048576)
  | .park rd rs1 rs2 => (32, 43 + rd * 128 + 0 * 4096 + rs1 * 32768 + rs2 * 1048576)
  | .unpark rd rs1 => (32, 43 + rd * 128 + 1 * 4096 + rs1 * 32768)
  | .fwdrow rd rs1 rs2 => (32, 43 + rd * 128 + 2 * 4096 + rs1 * 32768 + rs2 * 1048576)
  | .dtile rd rs1 => (32, 43 + rd * 128 + 3 * 4096 + rs1 * 32768)
  | .emptyBundle m y j => (64, (Instr.emptyBundle m y j).header)
  | i => if i.slot < 8 then (128, i.header + i.syllable * 18446744073709551616) else (0, 0)

/-- The instruction the decoder reads from an opcode-table word: 32 bits or fewer are a Shuttle instruction, more are a bundle
that forms a group with one instruction. -/
def decodeTableWord (nbits w : Nat) : Option Instr :=
  if nbits ≤ 32 then decodeShuttle w
  else match decodeGroup (w % 2 ^ nbits) with
    | .ok g => match g.syls with
      | [i] => some i
      | _ => none
    | .bad _ _ _ => none

end Sys2Proof
end

