-- ==== Sys2Proof/Config.lean ====
section
/-! DEFINITION. Config.lean: what the spec leaves open, as constants without a body (free values: nothing can evaluate them
or prove a value of them), and the constants it fixes for the part. A free value that is a fixed function of operands takes
them; one that may differ each time takes the count `State.free`. -/

namespace Sys2Proof.Config

/-- The number of this module in its pod (01 R14). DESIGN CHOICE (log 17): 0; the spec numbers modules 0 to 63 by their place
in the pod and states no number. -/
def moduleNumber : Nat := 0

/-- FREE VALUE (log 7, log 8): an approximation of VRCP (0), VRSQ (1), VEXP2 (2) or VLOG2 (3), by T code and operand bits
(04 R75 to R77). -/
opaque approx : Nat → Nat → Nat → Nat

/-- FREE VALUE (log 25): whether `.sr` takes the overflow result for a value m × 2^e beyond the largest finite one, by the
format's largest code, the value and the draw (04 R71). -/
opaque srBeyond : Nat → Nat → Int → Nat → Bool

/-- FREE VALUE (log 24): the scale byte that VUNPK of a scalar broadcast uses, by ST code and scalar (08 R144, R155). -/
opaque broadcastScale : Nat → BitVec 64 → Nat

/-- FREE VALUE (log 9): the FP32 approximation of an SFE function, by FUNC and FP32 operand bits (09 R190). -/
opaque sfeApprox : Nat → Nat → Nat

/-- FREE VALUE (log 18): the cycle of a die's calendar period that each of its 32 BRG slots lies in (10 R207, R212: which they are is
not stated). -/
opaque brgCycle : Nat → Nat → Nat

/-- FREE VALUE (log 6): which way of a line-cache set is replaced (10 R204). -/
opaque lineVictim : Nat → Nat

/-- FREE VALUE (log 10): the outcome of the hardware random source of neighbour refresh (10 R211). -/
opaque refreshDraw : Nat → Nat

/-- FREE VALUE (log 19): whether the image verifies as an ECDSA P-384 signature against the fused key's hash (18 R361). -/
opaque signatureOk : List Byte → Bool

/-- FREE VALUE (log 43): the row of its stack that a granule of device memory lies in, and the bank of a row (24 R426, R427: the spec gives
no map from addresses to rows). -/
opaque rowOf : Nat → Nat
opaque bankOf : Nat → Nat

/-- FREE VALUE (log 20): the 64-bit tag of a flit in AUTH or SEAL mode, by key, IV and bytes (15 R304). -/
opaque flitTag : BitVec 256 → Nat → List Byte → BitVec 64

/-- FREE VALUE (log 20): the key stream of SEAL mode (15 R304). -/
opaque keyStream : BitVec 256 → Nat → Nat → Byte

/-- FREE VALUE (log 21): the trap vector and replay vector Garod writes at a job's start (18 R355). -/
opaque tvecOf : Nat → Nat
opaque replayvOf : Nat → Nat

/-- FREE VALUE (log 22): the beat latency of a core at a staging slice before clamping to 22 to 58 (10 R206), by core, slice and the map of
spare cores in use (01 R19). -/
opaque sliceLatency : Nat → Nat → Nat → Nat

/-- FREE VALUE (log 23): cycles a unit takes whose latency is not architected (24 R416, 16 R312, 18 R353). -/
opaque unitDelay : Nat → Nat

/-- FREE VALUE (log 15): the number of extent blocks of an object of another module at a cycle; 0 where its entry is not valid (24 R414). -/
opaque remoteBlocks : Nat → Nat → Nat

/-- FREE VALUE (log 24): the word a store of part of an undefined source would give; drawn where the spec states a value is
left open for ordinary operands. -/
opaque freeWord : Nat → BitVec 64

end Sys2Proof.Config
end

