-- ==== Sys2Proof/Machine/State.lean ====
section
/-! DEFINITION. Machine/State.lean: the state of the whole module as plain data, the reasons a step can stop, and the state
after reset. Large sparse stores are `SMap`s: lists of key and value pairs with rising keys that list no default value;
Machine/Ops.lean has their operations and defaults. Times named `due` are context cycles (03 R43), times named `at` or `fin`
are real cycles (00 R4). -/

namespace Sys2Proof.Machine

/-- A sparse store: rising keys, no entry equal to what an unlisted key reads as. -/
abbrev SMap (α : Type) := List (Nat × α)

/-! ## What a core holds for one context -/

/-- A capability with its validity tag (10 R194, R195). -/
structure Cap where
  bits : BitVec 128
  tag : Bool
  deriving DecidableEq, Repr

/-- Poison of a datum (22 R385): none, C, or L with the request's tag and incarnation number times 4,096. -/
inductive Mark where
  | clean
  | corrupt
  | late (tag : Nat)
  deriving DecidableEq, Repr

/-- A vector-queue row or ring entry with its mark. -/
structure Row where
  bits : BitVec 1024
  mark : Mark
  deriving DecidableEq, Repr

/-- What a landing write does (03 R45): its destination and its value. A row names its queue and its VRF row; `poison` is a
scalar or capability whose data arrived C-poisoned, which writes nothing and raises 0x19 (24 R420); `spoil` gives a scalar the C mark (25 R434). -/
inductive Land where
  | scalar (n : Nat) (v : BitVec 64)
  | pred (n : Nat) (v : Bool)
  | cap (n : Nat) (v : Cap)
  | mask (n : Nat) (v : BitVec 128)
  | row (q r : Nat) (v : Row)
  | port (g : Nat) (v : Row)
  | none (v : Row)
  | poison (info : Nat)
  | spoil (n : Nat)
  deriving DecidableEq, Repr

/-- A FELOG event (22 R391): kind, bundle address and slot; it is noted when its result lands. -/
structure Event where
  kind : Nat
  addr : Nat
  slot : Nat
  deriving DecidableEq, Repr

/-- The typed-buffer bytes that a load follows until it lands (11 R222): buffer code, class, address and length, and the number of the
next store to be gated as it issued: the context's own stores below it are laid over what others write. -/
structure Src where
  code : Nat
  cls : Nat
  addr : Nat
  len : Nat
  id : Nat
  deriving DecidableEq, Repr

/-- One entry of the shadow record (R45): when it lands, when it was issued, what it writes, the ring it shifts (false VA, true
VB, R54), the request it still waits for (R390), the event to note, the typed-buffer bytes it follows, whether its landing
acquires (R226), and, for a result whose arithmetic is checked by residues, the event of a mismatch and whether one has struck it (R392). -/
structure Pend where
  due : Nat
  iss : Nat
  what : Land
  ring : Option Bool
  waits : Option Nat
  note : Option Event
  src : Option Src
  acq : Bool
  check : Option Event
  struck : Bool
  deriving DecidableEq, Repr

/-- RDPTR and COUNT of a queue (R51). -/
structure QPtr where
  rd : Nat
  count : Nat
  deriving DecidableEq, Repr

/-- BASE, depth (1 to 1,024) and CLASS of a queue (R51). -/
structure QCfg where
  base : Nat
  depth : Nat
  cls : Nat
  deriving DecidableEq, Repr

/-- A stream port (R53, 11 R228, R229): its parameter set, the indices of the next vector to consume or to write, the
indices of the next to fetch, the vectors fetched, the cycle its fetches begin. -/
structure Port where
  armed : Bool
  write : Bool
  swz : Bool
  w : Nat
  cls : Nat
  buf : Nat
  base : Nat
  cnts : List Nat
  strs : List Int
  pos : Nat
  fpos : Nat
  got : List Row
  start : Nat
  deriving DecidableEq, Repr

/-- An armed loop level (07 R140): its number, and the offsets of the body's start and last bundle. -/
structure Armed where
  lvl : Nat
  start : Nat
  last : Nat
  deriving DecidableEq, Repr

/-- The registers a restart point shadows (10 R215), with the shadow record, and the rows of engine-fed queues whose data is there while
that of a row claimed before them is not (queue and VRF row, 08 R147), the loop buffer: the groups of the armed bodies that have been fetched, by
address (R53), and the registers whose stored value an uncorrectable error has struck (kind 0 scalar, 1 predicate, 2 capability, 3 lane mask, and number;
24 R421). -/
structure Regs where
  s : SMap (BitVec 64)
  sMark : SMap Mark
  p : SMap Bool
  c : SMap Cap
  e : SMap (BitVec 128)
  q : SMap QPtr
  ports : SMap Port
  nest : SMap Nat
  armed : List Armed
  ka : List Row
  kb : List Row
  shadow : List Pend
  early : List (Nat × Nat)
  loopBuf : List (Nat × List Byte)
  broken : List (Nat × Nat)
  deriving DecidableEq, Repr

/-- What trap entry sets aside (22 R380), with the context cycle of the trap; an armed level is set aside with its remaining count, since a
handler can neither read nor restore a counter (07 R141). -/
structure Aside where
  clock : Nat
  armed : List Armed
  nest : SMap Nat
  ka : List Row
  kb : List Row
  shadow : List Pend
  markRegs : Regs
  markClock : Nat
  loopBuf : List (Nat × List Byte)
  deriving DecidableEq, Repr

/-- The endpoint and walk of an engine command (09 R180): a 64-byte engine descriptor as read at issue. -/
structure Desc where
  dims : Nat
  ssp : Nat
  dsp : Nat
  ssl : Nat
  dsl : Nat
  lu : Bool
  scope : Nat
  run : Nat
  sbase : Nat
  dbase : Nat
  cnts : List Nat
  sstr : List Int
  dstr : List Int
  deriving DecidableEq, Repr

/-- What an engine command does. UNSUB and DRAIN name a ring by its buffer code and header, with the count of slots published to it as they
issue; they take no entry, and are kept only while a guard is pending (R182, R188, R189). -/
inductive CmdKind where
  | cpy
  | cpyrGet
  | cpyrPut
  | sfe (func st dt rm : Nat) (scale : Option (BitVec 32))
  | send (mod core hnd : Nat) (payload : List Byte)
  | coll (words : List Nat)
  | ckmark (seq : BitVec 64)
  | gqpush (record : List Byte) (rowOff : Nat)
  | ringOp (drain : Bool) (buf hdr head : Nat)
  deriving DecidableEq, Repr

/-- A queued engine command (R178 to R184): its operands as they stood at issue, its guard while pending (the cycle after the issue of the
write it waits for; 0 in its place for one resolved false), its cursor (the micro-step and six loop indices, 03 R57), the flits of the run sent, or 1
once its last beat has gone, the flit (plus 1) that event source 3 counted last, the end of its beats and the bytes it has gathered with their poison, its number in the core's order of requests, the request it
waits for, the context cycle of its issue, and a cause found at issue that a pending guard puts off (23 R399). -/
structure Cmd where
  kind : CmdKind
  sem : Nat
  cls : Nat
  cap : Cap
  capIx : Nat
  off : Nat
  desc : Desc
  flush : Nat
  addr : Nat
  guard : Option (Nat × Nat × Bool)
  headAt : Option Nat
  upc : Nat
  idx : List Nat
  sent : Nat
  short : Nat
  buffer : List (Byte × Bool)
  fin : Option Nat
  seq : Nat
  tag : Option Nat
  iss : Nat
  fault : Option Nat
  deriving DecidableEq, Repr

/-- A live subscription (R187 to R189): load or store, its ring (buffer code and header), the bytes moved, and what UNSUB (its semaphore and
the count of slots published before it) or DRAIN asks. -/
structure Sub where
  store : Bool
  cmd : Cmd
  buf : Nat
  hdr : Nat
  moved : Nat
  stopping : Option (Nat × Nat)
  silent : Bool
  draining : List (Nat × Nat)
  quiesced : Bool
  deriving DecidableEq, Repr

/-- A context is dormant, bound to a task, halted (07 R143), parked (12 R260), ending (R243), or waits for a fill (22 R383). -/
inductive CtxStatus where
  | dormant
  | bound
  | halted
  | parked
  | ending
  | filling
  deriving DecidableEq, Repr

/-- The trap registers, FELOG with the issue cycle of its event and the cycle it was noted, FLUSH, PRIO and handler mode (R58 to
R60). -/
structure Special where
  cause : Nat
  epc : Nat
  eslot : Nat
  einfo : BitVec 64
  felog : Option Event
  felogAt : Nat
  felogSet : Nat
  felogWas : Option Event
  flush : Nat
  prio : Nat
  hmode : Bool
  deriving DecidableEq, Repr

/-- The engine queues and tables of a context (R178, 12, 16 R316), and the UNSUBs and DRAINs whose guards are pending. -/
structure Engines where
  copy : List Cmd
  sfe : List Cmd
  send : List Cmd
  coll : List Cmd
  ck : List Cmd
  gq : List Cmd
  subs : List Sub
  ring : List Cmd
  deriving DecidableEq, Repr

/-- A request over the fabric that a context waits for, or one of its remote forms at its own module (12 R248 to R252, 25 R434): its
tag plus 4,096 times its incarnation (for an own-module request its request number), its number in the core's order of requests, its
peer, flit kind and class, its destination, whether a row is pushed on arrival, whether the pop of that row acquires, and the EINFO of a
memory cause for its operand (22 R384). -/
structure FarReq where
  tag : Nat
  seq : Nat
  peer : Nat
  kind : Nat
  cls : Nat
  dst : Land
  push : Bool
  acq : Bool
  info : Nat
  deriving DecidableEq, Repr

/-- A CTXSAVE on its way (12 R258 to R260): the context it saves, its semaphore, STOP, the image's place (address, leaf, length), the
number of the image once taken, and the cycle from which it can be performed. -/
structure SaveReq where
  target : Nat
  sem : Nat
  stop : Bool
  place : List (Nat × Nat × Nat)
  image : Option Nat
  due : Nat
  deriving DecidableEq, Repr

/-- A hardware context (R42; bit j of `semWide`: a command of scope wider than core has counted on semaphore j since the last
WAITS that dropped the lines, 12 R239): status, control, registers with their restart point, trap state, engines, binding. `hold` counts
context cycles until it may issue again (22 R379), `frozen` a freeze (24 R423), `stalled` the cycles its group has stalled, `held` the queue rows popped
since the restart point (R383), `freed` those a restart point of this cycle has let go (08 R164), `resolved` the real cycle its last access is resolved (24 R415), `acqRows` the VRF rows whose pop
acquires (12 R251), `saves` the CTXSAVEs on their way, `heldOut` a context that one of them holds out of the choice (12 R260), `merging` the fork of a WCHOOSE with the context cycle its merge
ends and whether it has been made (17 R345); `yielded` is the cycle after its last stretch ended (02 R26), and `ringWait` and `slotWait` count for the
group at issue its stalls at an RNGWAIT and the flits that stood back for it (02 R37). -/
structure Ctx where
  status : CtxStatus
  toRun : Bool
  frozen : Bool
  pc : Nat
  clock : Nat
  hold : Nat
  stalled : Nat
  regs : Regs
  markRegs : Regs
  markClock : Nat
  markPc : Nat
  held : SMap Nat
  freed : SMap Nat
  aside : Option Aside
  sp : Special
  sems : SMap Nat
  semWide : Nat
  qcfg : SMap QCfg
  fsc : SMap Nat
  eng : Engines
  pendA : List (Nat × Nat)
  stepMark : Bool
  task : Option (Nat × Nat)
  guestOf : Bool
  world : Nat
  reqs : List FarReq
  nextReq : Nat
  resolved : Nat
  acqRows : List Nat
  saves : List SaveReq
  heldOut : Bool
  merging : Option (Nat × Nat × Bool)
  yielded : Nat
  ringWait : Nat
  slotWait : Nat
  deriving DecidableEq, Repr

/-! ## What a core holds once -/

/-- Where a store goes: device memory pieces (address and length) with the world that makes it, a typed buffer in the linear or in the
swizzled layout, or a register object's offset on a die. -/
inductive Target where
  | mem (world : Nat) (pieces : List (Nat × Nat × Nat))
  | buf (code addr : Nat)
  | swz (code addr : Nat)
  | reg (die off : Nat)
  | remote (mod obj off : Nat)
  deriving DecidableEq, Repr

/-- A store, gated or released (10 R214, 11 R220): its context, class, place, bytes, capability tag and poison, its number among the
core's stores; once released its
number in the core's order of requests, the cycle it reaches a far die, its calendar slot, and the real cycle it is performed. -/
structure Store where
  ctx : Nat
  cls : Nat
  tgt : Target
  data : List Byte
  tag : Bool
  bad : Bool
  id : Nat
  seq : Nat
  reach : Option Nat
  slot : Option Nat
  fin : Option Nat
  deriving DecidableEq, Repr

/-- An atomic (operations 0 to 10), an ARREXP (16) or an ARRIVE (17) on its way to its controller (R225, R234, 12 R251): its operands,
and the request number of the destination that takes the old value. -/
structure AtomReq where
  ctx : Nat
  cls : Nat
  op : Nat
  bytes : Nat
  world : Nat
  pieces : List (Nat × Nat × Nat)
  x : BitVec 64
  y : BitVec 64
  key : Option Nat
  flush : Nat
  ord : Nat
  scope : Nat
  seq : Nat
  reach : Option Nat
  slot : Option Nat
  fin : Option Nat
  deriving DecidableEq, Repr

/-- A global load that missed (10 R208, R212, 11 R218, R223): its request number and destination; the context's own stores it
sees; whether it reads a capability and with its tag, and fills lines; where it stands as for a store, with the cycle of its
read; `exact` for one that lands at a stated cycle; and what it read. -/
structure LoadReq where
  ctx : Nat
  key : Nat
  cls : Nat
  world : Nat
  seq : Nat
  pieces : List (Nat × Nat × Nat)
  own : List Store
  dst : Land
  wantTag : Bool
  fill : Bool
  exact : Bool
  reach : Option Nat
  slot : Option Nat
  fin : Option Nat
  got : Option (List Byte × Bool × Bool)
  deriving DecidableEq, Repr

/-- A beat of an engine's run on its way (09 R183, 10 R206, R212): its command's number, the staging slice whose port it waits for, or the pieces in
another die's memory with the cycle it reaches that die, whether it writes, and the cycle it ends. -/
structure Beat where
  seq : Nat
  slice : Option Nat
  pieces : List (Nat × Nat × Nat)
  reach : Option Nat
  write : Bool
  fin : Option Nat
  deriving DecidableEq, Repr

/-- An operation in the MX queue (09 R166): what it does and its operands as read at issue (an MMA, MMAZ, MMAS or MNEST has `opc` 0,
`fn` its partner bit and twice its 2:4 bit; `ctx` is 8 more than the context while that is suspended by a slot pre-emption, 14 R285); for
each pass begun, the cycle its first A row enters and the stage it uses (2 for none); the stage that takes the weights of the pass after
it (R173, 2 for none); the A rows and the columns read so far; the generator's state at an MCVT's begin; the output rows that a residue mismatch has
struck (R392). -/
structure MxOp where
  ctx : Nat
  opc : Nat
  acc : Nat
  bt : Nat
  a : Nat
  w : Nat
  rows : Nat
  skip : BitVec 128
  fmt : Nat
  fn : Nat
  rm : Nat
  passes : Nat
  astep : Nat
  wstep : Nat
  first : Bool
  flush : Nat
  addr : Nat
  clock : Nat
  issued : Nat
  start : Option Nat
  fin : Option Nat
  starts : List Nat
  used : List Nat
  staged : Nat
  arows : List (Option (List Byte × Bool))
  cols : List (List Byte × Bool)
  draws : List Nat
  struck : List Nat
  deriving DecidableEq, Repr

/-- An entry of the weight-loader queue (R172); `nest` for the loads MNEST makes itself (R173), `done` for a loaded stage whose
MWLD has yet to issue. -/
structure WLoad where
  ctx : Nat
  stage : Nat
  w : Nat
  fmt : Nat
  form : Nat
  waitFor : Bool
  nest : Bool
  done : Bool
  start : Option Nat
  fin : Option Nat
  deriving DecidableEq, Repr

/-- A weight stage's tag: address, format, form, when its load began, and whether a write has struck it since (R172). -/
structure Stage where
  w : Nat
  fmt : Nat
  form : Nat
  start : Nat
  fin : Nat
  valid : Bool
  deriving DecidableEq, Repr

/-- A bank image in Bobbin or its backing area (03 R49, R50). -/
structure Image where
  ctx : Nat
  bank : Nat
  rows : SMap Row
  deriving DecidableEq, Repr

/-- A demand exchange in progress (R49): the demanding context, the bank, and the cycle it ends. -/
structure Exchange where
  ctx : Nat
  bank : Nat
  fin : Nat
  deriving DecidableEq, Repr

/-- The occupancy counts of a phase (14 R288). -/
structure Occ where
  busy : Nat
  stall : Nat
  idle : Nat
  disp : Nat
  preempt : Nat
  deriving DecidableEq, Repr

/-- The vector register file and Bobbin (03 R48 to R50). -/
structure Vrf where
  rows : SMap Row
  owner : SMap Nat
  images : List Image
  backing : List Image
  exch : Option Exchange
  area : SMap Ctx
  deriving DecidableEq, Repr

/-- A region's bytes in a spill area of near memory, with the 64-byte lines among them that are poisoned (14 R291; the areas' places are not
given, log 38). -/
structure Spill where
  bytes : List Host.Cell
  bad : List Nat
  deriving DecidableEq, Repr

/-- The typed buffers, their marks, region tags (partition + 1) and spilled regions by partition × 4,096 + region, and the tiles'
owners (10 R202, 22 R385, 14 R291, 03 R56). -/
structure Bufs where
  bytes : List Host.Cell
  bad : SMap Bool
  region : SMap Nat
  spills : SMap Spill
  tileOwner : SMap Nat
  deriving DecidableEq, Repr

/-- The matrix engine (09 R166, R172). -/
structure Mx where
  q : List MxOp
  wl : List WLoad
  stages : SMap Stage
  lastEnd : Nat
  lastLoad : Nat
  deriving DecidableEq, Repr

/-- A line-cache line (10 R204): its 128 bytes and the validity tags of its granules, bit i for granule i. -/
structure Line where
  bytes : List Byte
  tags : Nat
  deriving DecidableEq, Repr

/-- The memory side of a core: line cache, cycles of bound slots, loads, stores and atomics on their way, the number of the next
request, object-entry cache (10 R204, R208, R214, 24 R414), the stores gated so far, the engines' beats on their way. A line's key is its address / 128 times 64 plus the world that filled
it (17 R339). -/
structure MemSide where
  lines : SMap Line
  bound : List Nat
  gated : List Store
  released : List Store
  atoms : List AtomReq
  loads : List LoadReq
  seq : Nat
  objCache : List Nat
  objWait : List (Nat × Nat)
  gates : Nat
  beats : List Beat
  deriving DecidableEq, Repr

/-- A region that a background spiller moves (14 R291): its number, when it began, the 256-byte beats that have gone, and when the last has landed. -/
structure Spilling where
  region : Nat
  since : Nat
  beats : Nat
  fin : Nat
  deriving DecidableEq, Repr

/-- A Crion core (01 R13, R14; 03). `part` is the partition whose state is resident (its die group, plus 8 for the standby one, 14
R289), `lines` and `phase` the fields of SYNCPART (02 R39), `arrived` the lines it waits on. `exchLeft` is 1 in the last cycle of an exchange and
4 just after a context left issue, `heldOff` the cycles a pre-emption has been held off (22 R378), `syncWait` the lines of a group that has
arrived with the cycle it did. `rr` keeps whom each engine served last (09 R183): context plus 1, for the loader and the storer (2, 3) 8 times the
context plus the subscription plus 1, and under 8 the engine that last took an owned slot plus 1. `counted` is the cycle up to which its occupancy
is counted (14 R288), `spiller` what its background spiller moves (14 R291), `phaseSet` the
cycle after that in which a release last toggled PHASE, and `phaseWas` its value before (07 R134). -/
structure Core where
  vrf : Vrf
  bufs : Bufs
  mx : Mx
  ms : MemSide
  tvec : Nat
  replayv : Nat
  seed : BitVec 64
  gen : BitVec 64
  calown : BitVec 64
  tagstale : Nat
  part : Nat
  lines : Nat
  phase : Nat
  arrived : Nat
  lastIssued : Nat
  holder : Option Nat
  exchLeft : Nat
  heldOff : Nat
  occ : SMap Occ
  lastPhase : Nat
  syncWait : Option (Nat × Nat)
  rr : SMap Nat
  counted : Nat
  spiller : Option Spilling
  phaseSet : Nat
  phaseWas : Nat
  deriving DecidableEq, Repr

/-! ## What a die holds -/

/-- The states of a task record (02 R28). -/
inductive RecState where
  | free
  | ready
  | held
  | bound
  deriving DecidableEq, Repr

/-- A task record (R27) with its HSTATE: state, bound context (core and context), signal-delivered bit, world, the order in
which it became ready, the stores it still waits for (core, context and how many, R34), the s3 to s5 of a message task, the
tile slot of an expert task, and the registers of a rival (17 R335). -/
structure TaskRec where
  state : RecState
  entry : Nat
  prio : Nat
  join : Nat
  scope : Nat
  core : Nat
  arg : Cap
  launch : Nat
  graph : Nat
  phase : Nat
  job : Nat
  ctx : Option (Nat × Nat)
  signalled : Bool
  world : Nat
  order : Nat
  msg : Option (Nat × Nat × Nat)
  tile : Option Nat
  rival : Option Regs
  flush : Nat
  suspended : Bool
  deriving DecidableEq, Repr

/-- The states of a join counter (R32). -/
inductive JoinState where
  | free
  | opened
  | sealed
  deriving DecidableEq, Repr

/-- A join counter (R32), with the cycle plus 1 in which it was opened (26 R442). -/
structure JoinCtr where
  state : JoinState
  signals : Nat
  expect : Nat
  cont : Nat
  since : Nat
  deriving DecidableEq, Repr

/-- An action of the die's task unit that waits until the stores of its issuer are performed (R34): records to make ready or
held, seals, signals, completion records to be set, those of levels that are complete, and implicit signals of records that ended (R33). -/
inductive TaskAct where
  | ready (die rec : Nat)
  | seal (die join n rec : Nat)
  | signal (die join : Nat)
  | record (key die rec : Nat)
  | complete (key die rec : Nat)
  | implied (die join rec : Nat)
  deriving DecidableEq, Repr

/-- A waiting task action with the context that made it; it waits for the context's requests numbered below `upto`. -/
structure Waiting where
  core : Nat
  ctx : Nat
  upto : Nat
  act : TaskAct
  deriving DecidableEq, Repr

/-- A launch ring of one level (14 R278): the subqueues' keys in the order the next search takes them, and whether the last one
is the subqueue the pointer names; the keys that joined in the cycle before `since`. -/
structure Ring where
  order : List Nat
  ptr : Bool
  since : Nat
  fresh : List Nat
  deriving DecidableEq, Repr

/-- A dispatch on its way to a core (R280). -/
structure Flight where
  record : Nat
  core : Nat
  arrive : Nat
  deriving DecidableEq, Repr

/-- A slot pre-emption in progress (R285): the task, the victim, when the image is written, and the cycle of the choice. -/
structure Preempt where
  record : Nat
  core : Nat
  ctx : Nat
  fin : Option Nat
  chosen : Nat
  deriving DecidableEq, Repr

/-- The dispatch unit, task table and counters of a die; `view` holds the dormant contexts last reported by each core (14 R279), `crossed` the event
counters that crossed in this cycle (02 R38). -/
structure Tasks where
  recs : SMap TaskRec
  joins : SMap JoinCtr
  view : SMap Nat
  rings : SMap Ring
  window : Nat
  got : List Nat
  owed : List Nat
  flights : List Flight
  preempts : List Preempt
  waiting : List Waiting
  releases : SMap Nat
  spans : Nat
  crossed : List Nat
  deriving DecidableEq, Repr

/-- An open or spawned expert tile (16 R325): its key, rows, whether its spawn waits for a FREE record (26 R443), and its record once spawned. -/
structure Tile where
  key : Nat
  rows : List (BitVec 64 × Nat)
  due : Bool
  spawned : Option Nat
  deriving DecidableEq, Repr

/-- The routing structures of a die (16 R317, R325 to R328, 26 R446); a row that arrives has its module and the ports of its receive slots. -/
structure Experts where
  gate : List (Nat × List Byte)
  drawer : List (BitVec 64 × BitVec 64)
  tiles : SMap Tile
  inbound : SMap Bool
  arriving : List (Nat × List Nat × List Byte)
  newest : Option Nat
  keysNew : List Nat
  keysOld : List Nat
  logCount : Nat
  logValid : Bool
  logEntry : Nat × Nat × BitVec 64 × BitVec 64
  deriving DecidableEq, Repr

/-- The Shuttle core of a die (16 R312): registers, pc, scratch, CSRs, reservation, whether it waits in WFI and runs, the request of a
remote ERTGET with its answer, and the rows an UNPARK in progress has placed. -/
structure Shuttle where
  x : SMap (BitVec 64)
  pc : Nat
  scratch : List Host.Cell
  csrs : SMap (BitVec 64)
  resv : Option Nat
  wfi : Bool
  running : Bool
  asked : Option Nat
  answer : Option (List Byte)
  placed : Nat
  deriving DecidableEq, Repr

/-- A request tag of a die (25 R434): incarnation, the request outstanding under it (peer, core, context, kind, class, 256-byte span,
its number in the core's order of requests, the classes it fences or 65,536 for a release, the engine that sent it, and when it
was first sent), and the incarnations left unanswered, each with its context (core × 8 + context, 5,120 for a task that has ended) and the cycle it is released. -/
structure ReqTag where
  inc : Nat
  busy : Bool
  peer : Nat
  core : Nat
  ctx : Nat
  kind : Nat
  cls : Nat
  span : Nat
  seq : Nat
  mask : Nat
  eng : Option Nat
  sent : Option Nat
  skips : List (Nat × Nat × Nat)
  deriving DecidableEq, Repr

/-- A flit sent, kept for resends (R429): its position, the cycle it left, the flit. -/
structure Sent where
  pos : FlitPos
  left : Nat
  flit : Flit
  deriving DecidableEq, Repr

/-- A failed position at the receiver (R429, R430): its source, its place with the whole rotation index, the flit as it came (log 32),
whether its receive slot is reserved, the resends that failed, and when it was last asked for. -/
structure Failed where
  src : Nat
  pos : FlitPos
  flit : Flit
  held : Bool
  tries : Nat
  asked : Option Nat
  deriving DecidableEq, Repr

/-- A fabric key: active and inactive with the rotation it is used from (15 R305). -/
structure FabKey where
  active : BitVec 256
  next : BitVec 256
  nextAt : Option Nat
  deriving DecidableEq, Repr

/-- An operation whose flits have not all come, each with the port of its receive slot. -/
structure Part where
  src : Nat
  vc : Nat
  kind : Nat
  tag : Nat
  inc : Nat
  flits : List (Nat × Flit)
  deriving DecidableEq, Repr

/-- A remote request that this die performs for another module (R302, 24 R417): the ports of its receive slots, its bytes, when it came
whole, when it is performed once released, whether it waits for a tier fill, and the request under which it has gone on to the holder of its
block. `aux` holds the length of a run that is read, and 131,072 for a forwarded request (log 32). -/
structure Served where
  src : Nat
  vc : Nat
  cl : Nat
  kind : Nat
  tag : Nat
  inc : Nat
  aux : Nat
  ports : List Nat
  data : List Byte
  since : Nat
  at_ : Option Nat
  filling : Bool
  away : Option Nat
  deriving DecidableEq, Repr

/-- A message for a core of the module (02 R35, R308, 26 R443): the module, tag and die it came by with its receive slots, its core and
handler, its payload, and, once that is in the ring, its address and the cycle of the next try to make its task. -/
structure Msg where
  src : Nat
  die : Nat
  ports : List Nat
  tag : Nat
  inc : Nat
  core : Nat
  hnd : Nat
  data : List Byte
  placed : Option (Nat × Nat)
  deriving DecidableEq, Repr

/-- The fabric unit of a die (15, 25): flits to send and the context served last on each channel, sequence counters, flits ahead of
their order and operations in parts, each flit with the port of its receive slot, requests to perform, replies that arrived with their bytes,
replay store and resends, positions taken and failed, receive slots held (by port × 64 + source) and to return, pools (shared, VC1, VC7) and who
spent slots in order (core × 8 + context, 8,000 + VC, or 9,000 for none), audits, tags, keys, flits to relay, messages, the cycle from which
a desynchronised unit is silent, failures counted by ring, the state of its optics (25 R437, R438): rings retired, low readings, recoveries
under way; the way of operations whose flits have begun to leave (destination, VC, kind, tag and incarnation; the first hop), the cycle (plus 1) in
which each modulator last began a flit, the queued flits that event source 3 has counted (02 R37), and the requests that wait for a tag in the
order they reached the unit, each with the cycle it last asked (R434, log 33). -/
structure Fabric where
  sendQ : List Flit
  rr : SMap Nat
  txSeq : SMap Nat
  rxSeq : SMap Nat
  ooo : List (Nat × Flit)
  parts : List Part
  served : List Served
  replies : List (Flit × List Byte)
  sent : List Sent
  resend : List Sent
  taken : List (Nat × FlitPos)
  failed : List Failed
  held : SMap Nat
  toReturn : SMap Nat
  returnAt : SMap Nat
  pool : SMap Nat
  pool1 : SMap Nat
  pool7 : SMap Nat
  spent : List (Nat × Nat)
  audits : List Nat
  corrections : SMap Nat
  tags : SMap ReqTag
  keys : SMap FabKey
  txCount : SMap Nat
  relayQ : List (Nat × Flit)
  messages : List Msg
  desync : Option Nat
  badPos : Nat
  faults : SMap Nat
  retired : SMap Bool
  below : SMap Nat
  recover : SMap Nat
  ways : List (List Nat × Nat)
  lastTx : SMap Nat
  short : List Flit
  waiting : List (Nat × Nat)
  deriving DecidableEq, Repr

/-- A request held by a thermal hold (24 R422): its stack, its calendar slot, its core and its number there, its context, when the
hold of it began, and whether 0x1B has been raised for it. -/
structure HeldReq where
  stack : Nat
  slot : Nat
  core : Nat
  seq : Nat
  ctx : Nat
  since : Nat
  told : Bool
  deriving DecidableEq, Repr

/-- A compute die (01 R13): task unit, routing, Shuttle, fabric, staging slices with marks and region tags, the register
object by offset (15 R310, R311, 24 R426, 25 R441, 27 R454), the values in effect of those whose writes act later, and the routing registers by CSR number (16 R313), the
neighbour-refresh states, the requests held, the cycles of the BRG slots bound (10 R207, R212), stall cycles not yet counted, the core (plus 1) each staging slice served last (10 R206), the cycle
up to which the idle cycles of cores that have done nothing are counted (14 R288), what the spiller of its slices moves (14 R291), the rotation in
which its pattern bank last switched, and the torus mode (1 to 3) of the active bank, else 0 (15 R299, R300). -/
structure Die where
  tasks : Tasks
  ex : Experts
  sh : Shuttle
  fab : Fabric
  slices : List Host.Cell
  sliceBad : SMap Bool
  sliceRegion : SMap Nat
  sliceSpills : SMap Spill
  regs : SMap Nat
  eff : SMap Nat
  xr : SMap Nat
  y : SMap Nat
  dupcnt : Nat
  held : List HeldReq
  brg : List Nat
  stallSum : Nat
  sliceLast : SMap Nat
  idleFrom : Nat
  spiller : Option Spilling
  switched : Nat
  torus : Nat
  deriving DecidableEq, Repr

/-! ## What the I/O die holds, and the whole -/

/-- A level counter (02 R24): live count, cancel bit, completion record (die and index). -/
structure LevelCtr where
  live : Nat
  cancel : Bool
  record : Option (Nat × Nat)
  deriving DecidableEq, Repr

/-- The root task of a job (01 R17): it waits for a FREE record, is in a record not yet dispatched (die and index), or has been dispatched. -/
inductive Root where
  | waiting
  | ready (die rec : Nat)
  | dispatched
  deriving DecidableEq, Repr

/-- A job posted or running (18 R354, R355): its record's address and fields, features, partition, standby side, and its root task. -/
structure Job where
  addr : Nat
  part : Nat
  standby : Bool
  running : Bool
  features : Nat
  otbase : Nat
  nobj : Nat
  occbase : Nat
  baste : Nat
  ckpres : Nat
  cksz : Nat
  shimg : Nat
  shlen : Nat
  tier : Nat
  ckkind : Nat
  ckpeer : Nat
  ckobj : Nat
  ckhost : Nat
  root : Root
  deriving DecidableEq, Repr

/-- The states of a world (17 R331). -/
inductive WorldState where
  | free
  | running
  | done
  | discarded
  deriving DecidableEq, Repr

/-- A world entry (R330). -/
structure World where
  state : WorldState
  parent : Nat
  depth : Nat
  rival : Nat
  fork : Nat
  score : Nat
  live : Nat
  deriving DecidableEq, Repr

/-- A rival record of a fork (R334): tag, state, score. -/
structure Rival where
  tag : Nat
  state : WorldState
  score : Nat
  deriving DecidableEq, Repr

/-- A fork-table entry (R334). -/
structure Fork where
  issuer : Nat
  n : Nat
  join : Nat
  job : Nat
  rivals : List Rival
  deriving DecidableEq, Repr

/-- An overlay record (R336): its line's bytes, the validity tags and poison of its granules (10 R195, 24 R420), its written
mask, world, line, next record, and the leaf entry whose chain it is on. -/
structure Overlay where
  data : List Byte
  tags : Nat
  bad : Nat
  mask : BitVec 256
  tag : Nat
  line : Nat
  next : Nat
  leaf : Nat
  deriving DecidableEq, Repr

/-- A deferred effect (R340), as the flit-free command it is: kind, operands and bytes with the runs they fill, the class of its issuer, and,
once released, its number among its core's requests. -/
structure Effect where
  kind : Nat
  core : Nat
  ctx : Nat
  cls : Nat
  mod : Nat
  obj : Nat
  off : Nat
  size : Nat
  aux : Nat
  runs : List (Nat × Nat)
  data : List Byte
  seq : Nat
  deriving DecidableEq, Repr

/-- The rival-world tables: entries, forks, overlay records by stack and number, effects by world (17). -/
structure Worlds where
  ents : SMap World
  forks : SMap Fork
  overlays : SMap Overlay
  effects : SMap (List Effect)
  releasing : List Effect
  deriving DecidableEq, Repr

/-- A tier fill (16 R328, 24 R416): of an extent (leaf address, die, block, object and extent as EINFO has them, waiting contexts) or of an expert (key and range). -/
inductive FillKind where
  | extent (leaf die pbn info : Nat) (waiters : List (Nat × Nat))
  | expert (key die tblk nblk obj : Nat)
  deriving DecidableEq, Repr

/-- A fill with its tier block, its partition's tier base, the reads that failed, and the cycle its copy ends, 0 before that is known. -/
structure Fill where
  kind : FillKind
  tblk : Nat
  base : Nat
  tries : Nat
  fin : Nat
  deriving DecidableEq, Repr

/-- The checkpoint engine (18 R357 to R360): the marks held, the running stream with its partition, its frozen blocks still to stream
(block, object, extent block, leaf) with the preserved spans, the leaves of those streamed, the last frozen and the last complete number, the
cycle of its next act, the job whose area it fills, the partitions' write positions, and the records written at their addresses (log 37). -/
structure Ckpt where
  marks : List (Nat × Nat × Nat × BitVec 64)
  active : Option (BitVec 64 × Nat)
  frozen : List (Nat × Nat × Nat × Nat)
  preserved : SMap (List Byte)
  streamed : List Nat
  lastSeq : Option (BitVec 64)
  complete : BitVec 64
  at_ : Nat
  job : Job
  pos : SMap Nat
  out : List (Nat × List Byte)
  deriving DecidableEq, Repr

/-- What a context image holds beyond its architected header (12 R259): the context, its bank rows, its tiles' bytes and marks, its task, and whether
that task was ended by cancel while parked (26 R445). -/
structure Saved where
  ctx : Ctx
  banks : List Image
  tiles : List (Nat × Spill)
  task : Option (Nat × Nat)
  ended : Bool
  deriving DecidableEq, Repr

/-- Bring-up, mailbox and host page (18 R351 to R361); whether a strobe has come since bring-up (15 R296), and the rotation of a pattern repair
under way (25 R440); host accesses that wait for a held stack, and the cycle after BUSY last cleared; the last job that ended on each
partition, whose object table stays the partition's (10 R197). -/
structure Garod where
  accept : SMap (BitVec 64)
  arg0 : BitVec 64
  arg1 : BitVec 64
  busy : Bool
  ovr : Bool
  result : Nat
  last : Nat
  cmd : Option Nat
  boot : Nat
  imglen : Nat
  window : List Host.Cell
  mibaddr : Nat
  stale : Bool
  fail : Bool
  modFeatures : Nat
  firstJob : Bool
  parts : Nat
  standby : Nat
  power : Bool
  swap : Option (Nat × Nat)
  flipped : SMap Bool
  shortfall : Nat
  vcsec : Nat
  vcsecNext : Nat
  strobed : Bool
  repair : Option Nat
  repairFailed : Bool
  hostQ : List (Nat × Nat × Nat × Nat)
  cleared : Nat
  tables : SMap Job
  deriving DecidableEq, Repr

/-- What leaves the module: PLDM events (cause and detail), MSI-X signals, flits with their positions, host read data. -/
structure Outside where
  pldm : List (Nat × Nat)
  msix : List Nat
  flits : List (Nat × FlitPos × Flit)
  reads : List (List Byte)
  deriving DecidableEq, Repr

/-- Spare parts in use, which outlast a reset: the map of spare cores substituted (01 R19), bit 4 × die + spare; the corrected errors of each row
of memory (stack + 16 × row); the rows that Garod has reported since the last repair, those that repair has replaced by spare rows, and those
for which no spare was left (01 R21, 24 R426, R427). -/
structure Repairs where
  spares : Nat
  corrected : SMap Nat
  logged : List Nat
  fused : List Nat
  worn : List Nat
  deriving DecidableEq, Repr

/-- What hardware has set in a field that software clears (W1C or RC), in the current cycle: the unit (a die; 8 the host's page; 16 + k
core k), the register, its value as the cycle began, and what hardware has set or counted in it since (00 R8). -/
structure HwSet where
  unit : Nat
  reg : Nat
  start : Nat
  set_ : Nat
  deriving DecidableEq, Repr

/-- Whose turn it is in the current cycle: a core's issue logic, a Shuttle, an event, or units at work (0 the I/O die, 1 what
is performed and lands as the cycle begins, 8 + d the units of die d as it ends). -/
inductive Turn where
  | core (k : Nat)
  | shuttle (d : Nat)
  | event (i : Instr)
  | unit (n : Nat)
  deriving DecidableEq, Repr

/-- The state of the module. `now` is the real cycle; `rot` the rotation index and `rotAt` the cycle the rotation began (15 R296);
`core`, `cx` and `die` say which agent acts; `inbox` holds what the
surroundings bring next and `turns` what remains of the current cycle; `free` counts the free values drawn. `mem`, `tags`
and `poison` are device memory, its validity tags by granule and its poisoned granules (10 R195, R198, 24 R420); `levels` are
the level counters by job, level and identifier; `images` the bodies of context images, whose layout the spec leaves open (log 36); `tier` holds the tier range's bytes; `raises` are the raises of heat fields on their way
(cycle, leaf entry, write) and `stored` the spans written in the current cycle (10 R201); `hwSets` is what hardware has set in the
current cycle (00 R8); `repairs` is what maintenance has repaired (01 R19, R21). -/
structure State where
  now : Nat
  rot : Nat
  rotAt : Nat
  core : Nat
  cx : Nat
  die : Nat
  free : Nat
  inbox : List Instr
  turns : List Turn
  mem : List Host.Cell
  tags : SMap Bool
  poison : SMap Bool
  tier : List Host.Cell
  raises : List (Nat × Nat × Bool)
  stored : List (Nat × Nat)
  hwSets : List HwSet
  repairs : Repairs
  ctxs : SMap Ctx
  cores : SMap Core
  dies : SMap Die
  levels : SMap LevelCtr
  jobs : SMap Job
  worlds : Worlds
  fills : List Fill
  ck : Ckpt
  images : List Saved
  ga : Garod
  out : Outside
  deriving DecidableEq, Repr

/-! ## The reasons a step can stop -/

/-- The machine stops with a fault. -/
inductive Fault where
  /-- Raised by an access to a device address at or above 1 TiB (10 R198): the spec gives the module no such byte. Safe. -/
  | noSuchAddress
  deriving DecidableEq, Repr

/-- No meaning for the instruction. -/
inductive Refusal where
  /-- Raised only by an arm of Machine/Dispatch.lean that has no meaning yet. Safe. -/
  | notModelled (mnemonic : String)
  deriving DecidableEq, Repr

/-! ## The state after reset -/

def Cap.zero : Cap := ⟨0#128, false⟩
def Row.zero : Row := ⟨0#1024, .clean⟩
def QPtr.init : QPtr := ⟨0, 0⟩
def QCfg.init : QCfg := ⟨0, 1024, 0⟩
def Port.init : Port := ⟨false, false, false, 0, 0, 0, 0, [], [], 0, 0, [], 0⟩

/-- The registers at task start (02 R28), before the task's own values. -/
def Regs.init : Regs := ⟨[], [], [], [], [], [], [], [], [], [], [], [], [], [], []⟩

def Special.init : Special := ⟨0, 0, 0, 0#64, none, 0, 0, none, 0, 0, false⟩
def Engines.init : Engines := ⟨[], [], [], [], [], [], [], []⟩

/-- A dormant context (R28, R29). -/
def Ctx.init : Ctx where
  status := .dormant
  toRun := false
  frozen := false
  pc := 0
  clock := 0
  hold := 0
  stalled := 0
  regs := Regs.init
  markRegs := Regs.init
  markClock := 0
  markPc := 0
  held := []
  freed := []
  aside := none
  sp := Special.init
  sems := []
  semWide := 0
  qcfg := []
  fsc := []
  eng := Engines.init
  pendA := []
  stepMark := false
  task := none
  guestOf := false
  world := 0
  reqs := []
  nextReq := 0
  resolved := 0
  acqRows := []
  saves := []
  heldOut := false
  merging := none
  yielded := 0
  ringWait := 0
  slotWait := 0

/-- CALOWN of a core (03 R59, 10 R207): 14 distinct cycles of the 64. DESIGN CHOICE (log 3): cycle floor(64j / 14) + k, so
that no cycle of a die's calendar is owned by more than 20 of its cores. -/
def calownReset (k : Nat) : BitVec 64 :=
  (List.range 14).foldl (fun m j => m ||| ((1#64) <<< ((64 * j / 14 + k) % 64))) 0#64

/-- A Crion core at module reset: last_issued is 7 (02 R31), the generator holds R71's constant. -/
def Core.init (k : Nat) : Core where
  vrf := ⟨[], [], [], [], none, []⟩
  bufs := ⟨[], [], [], [], []⟩
  mx := ⟨[], [], [], 0, 0⟩
  ms := ⟨[], [], [], [], [], [], 0, [], [], 0, []⟩
  tvec := 0
  replayv := 0
  seed := 0#64
  gen := 0x9E3779B97F4A7C15#64
  calown := calownReset k
  tagstale := 0
  part := 0
  lines := 0
  phase := 0
  arrived := 0
  lastIssued := 7
  holder := none
  exchLeft := 0
  heldOff := 0
  occ := []
  lastPhase := 0
  syncWait := none
  rr := []
  counted := 0
  spiller := none
  phaseSet := 0
  phaseWas := 0

def TaskRec.init : TaskRec :=
  ⟨.free, 0, 0, 0, 0, 0, Cap.zero, 0, 0, 0, 0, none, false, 0, 0, none, none, none, 0, false⟩
def JoinCtr.init : JoinCtr := ⟨.free, 0, 0, 0, 0⟩
def Spill.none : Spill := ⟨[], []⟩
def Ring.init : Ring := ⟨[], false, 0, []⟩
def Tasks.init : Tasks := ⟨[], [], [], [], 0, [], [], [], [], [], [], 0, []⟩
def Experts.init : Experts := ⟨[], [], [], [], [], none, [], [], 0, false, (0, 0, 0#64, 0#64)⟩
def Shuttle.init : Shuttle := ⟨[], 0, [], [], none, false, false, none, none, 0⟩
def ReqTag.init : ReqTag := ⟨0, false, 0, 0, 0, 0, 0, 0, 0, 0, none, none, []⟩
def FabKey.init : FabKey := ⟨0#256, 0#256, none⟩
def Fabric.init : Fabric :=
  { sendQ := [], rr := [], txSeq := [], rxSeq := [], ooo := [], parts := [], served := [], replies := [], sent := [], resend := [], taken := []
    failed := [], held := [], toReturn := [], returnAt := [], pool := [], pool1 := [], pool7 := [], spent := [], audits := [], corrections := []
    tags := [], keys := [], txCount := [], relayQ := [], messages := [], desync := none, badPos := 0, faults := [], retired := [], below := []
    recover := [], ways := [], lastTx := [], short := [], waiting := [] }

/-- A compute die at module reset; the register object's values are those of `regReset` in Machine/Regs.lean. -/
def Die.init : Die where
  tasks := Tasks.init
  ex := Experts.init
  sh := Shuttle.init
  fab := Fabric.init
  slices := []
  sliceBad := []
  sliceRegion := []
  sliceSpills := []
  regs := []
  eff := []
  xr := []
  y := []
  dupcnt := 0
  held := []
  brg := []
  stallSum := 0
  sliceLast := []
  switched := 0
  torus := 0
  idleFrom := 0
  spiller := none

def LevelCtr.init : LevelCtr := ⟨0, false, none⟩
def Job.init : Job := ⟨0, 0, false, false, 0, 0, 0, 0, 0, 0, 0, 0, 0, 0, 0, 0, 0, 0, .dispatched⟩
def Line.init : Line := ⟨[], 0⟩
def Overlay.init : Overlay := ⟨[], 0, 0, 0#256, 0, 0, 0, 0⟩
def World.init : World := ⟨.free, 0, 0, 0, 0, 0, 0⟩
def Occ.init : Occ := ⟨0, 0, 0, 0, 0⟩

/-- Garod and the host page at reset (18 R351, R361): state 0, awaiting an image, one partition (14 R289). -/
def Garod.init : Garod where
  accept := []
  arg0 := 0#64
  arg1 := 0#64
  busy := false
  ovr := false
  result := 0
  last := 0
  cmd := none
  boot := 0
  imglen := 0
  window := []
  mibaddr := 0
  stale := false
  fail := false
  modFeatures := 0
  firstJob := false
  parts := 1
  standby := 0
  power := true
  swap := none
  flipped := []
  shortfall := 0
  vcsec := 0
  vcsecNext := 0
  strobed := false
  repair := none
  repairFailed := false
  hostQ := []
  cleared := 0
  tables := []

/-- The module right after reset: nothing bound, nothing queued, memory as `memDefault` of Machine/Map.lean gives it. -/
def State.reset : State where
  now := 0
  rot := 0
  rotAt := 0
  core := 0
  cx := 0
  die := 0
  free := 0
  inbox := []
  turns := []
  mem := []
  tags := []
  poison := []
  tier := []
  raises := []
  stored := []
  hwSets := []
  repairs := ⟨0, [], [], [], []⟩
  ctxs := []
  cores := []
  dies := []
  levels := []
  jobs := []
  worlds := ⟨[], [], [], [], []⟩
  fills := []
  ck := ⟨[], none, [], [], [], none, 0#64, 0, Job.init, [], []⟩
  images := []
  ga := Garod.init
  out := ⟨[], [], [], []⟩

end Sys2Proof.Machine
end

