-- ==== Sys2Proof/Machine/Map.lean ====
section
/-! DEFINITION. Machine/Map.lean: the operations of sparse stores. A store lists its keys in rising order and lists no key whose
value is what an unlisted key reads as (`d`), so equal stores are equal data. -/

namespace Sys2Proof.Machine

/-- The value at a key; `d` where the key is not listed. -/
def mapGet {α : Type} (m : List (Nat × α)) (d : α) (k : Nat) : α :=
  match m with
  | [] => d
  | (j, v) :: t => if k = j then v else if k < j then d else mapGet t d k

/-- Store `v` at a key; storing `d` removes the entry. -/
def mapSet {α : Type} [DecidableEq α] (m : List (Nat × α)) (d : α) (k : Nat) (v : α) : List (Nat × α) :=
  match m with
  | [] => if v = d then [] else [(k, v)]
  | (j, u) :: t =>
    if k < j then (if v = d then (j, u) :: t else (k, v) :: (j, u) :: t)
    else if k = j then (if v = d then t else (k, v) :: t)
    else (j, u) :: mapSet t d k v

/-- Keys below a bound do not occur, keys rise, no entry equals the default. -/
def mapWfFrom {α : Type} [DecidableEq α] (m : List (Nat × α)) (d : α) (lo : Nat) : Bool :=
  match m with
  | [] => true
  | (j, v) :: t => decide (lo ≤ j) && decide (v ≠ d) && mapWfFrom t d (j + 1)

/-- The canonical form of a sparse store with default `d`. -/
def mapWf {α : Type} [DecidableEq α] (m : List (Nat × α)) (d : α) : Bool := mapWfFrom m d 0

/-! ## Bytes -/

/-- What a byte of device memory, a typed buffer, a staging slice, a scratch memory or the image window reads as before it is
written. DESIGN CHOICE (log 1): 0; the spec states no contents after power-on. -/
def memDefault : Byte := 0#8

/-- One byte of a byte store. -/
def getByte (m : List Host.Cell) (a : Nat) : Byte := mapGet m memDefault a

/-- Write one byte; the canonical form is kept. -/
def setByte (m : List Host.Cell) (a : Nat) (v : Byte) : List Host.Cell := mapSet m memDefault a v

/-- n bytes from address a upwards. -/
def getBytes (m : List Host.Cell) (a n : Nat) : List Byte := (List.range n).map (fun i => getByte m (a + i))

/-- Write bytes from address a upwards. -/
def setBytes (m : List Host.Cell) (a : Nat) (bs : List Byte) : List Host.Cell :=
  match bs with
  | [] => m
  | b :: rest => setBytes (setByte m a b) (a + 1) rest

/-- The canonical form of a byte store (rising addresses, no byte equal to what an unlisted address reads as). -/
def memWf (m : List Host.Cell) : Bool := mapWf m memDefault
/-- The same under the name the interface gives it. -/
abbrev Memory.wf (m : List Host.Cell) : Bool := memWf m

/-- Little-endian: bytes of a number (00 R6). -/
def leBytes (n : Nat) (v : Nat) : List Byte :=
  match n with
  | 0 => []
  | n + 1 => BitVec.ofNat 8 v :: leBytes n (v / 256)

/-- The number that bytes hold, little-endian. -/
def leVal (bs : List Byte) : Nat :=
  match bs with
  | [] => 0
  | b :: rest => b.toNat + 256 * leVal rest

/-- Bits [lo + len − 1 : lo] of a number. -/
def field (w lo len : Nat) : Nat := w / 2 ^ lo % 2 ^ len

/-- A number of n bits read as two's complement. -/
def signed (n w : Nat) : Int := if w % 2 ^ n < 2 ^ (n - 1) then (w % 2 ^ n : Nat) else ((w % 2 ^ n : Nat) : Int) - (2 ^ n : Nat)

/-- An integer modulo 2^n. -/
def wrap (n : Nat) (z : Int) : Nat := (z % (2 ^ n : Nat)).toNat

end Sys2Proof.Machine
end

