-- ==== Sys2Proof/Machine/Float.lean ====
section
/-! DEFINITION. Machine/Float.lean: number formats and arithmetic (04). A finite value is a sign, a magnitude and a power of
two, so every sum and product is exact and each result is rounded once (R69). Results carry the FELOG kind they note (22
R391): 0 none, 1 invalid, 2 divide by zero, 3 overflow, 4 underflow, 5 inexact-saturate. -/

namespace Sys2Proof.Machine

/-- A floating format (R62): exponent and fraction widths, bias, and how the all-ones exponent is read: 0 infinities and NaN,
1 numbers but for one NaN (E4M3), 2 numbers only (E2M1). -/
structure FFmt where
  eb : Nat
  mb : Nat
  bias : Nat
  kind : Nat
  deriving DecidableEq, Repr

/-- The format of a T, ST or DT code (R62, R98); other codes read as FP64. -/
def fmtOf (t : Nat) : FFmt :=
  match t with
  | 0 => ⟨11, 52, 1023, 0⟩
  | 1 => ⟨8, 23, 127, 0⟩
  | 2 => ⟨5, 10, 15, 0⟩
  | 3 => ⟨8, 7, 127, 0⟩
  | 14 => ⟨4, 3, 7, 1⟩
  | 15 => ⟨5, 2, 15, 0⟩
  | 16 => ⟨2, 1, 1, 2⟩
  | 12 => ⟨8, 23, 127, 0⟩
  | _ => ⟨11, 52, 1023, 0⟩

/-- The FLUSH family of a code (03 R59): FP64 0, FP32 1, FP16 2, BF16 3, FP8 4, E2M1 5. -/
def famOf (t : Nat) : Nat :=
  match t with
  | 0 => 0 | 1 => 1 | 2 => 2 | 3 => 3 | 14 => 4 | 15 => 4 | 16 => 5 | 12 => 1 | 13 => 0 | _ => 0

/-- FLUSH.DAZf and FLUSH.FTZf (R73). -/
def dazOf (flush t : Nat) : Bool := flush / 2 ^ (2 * famOf t) % 2 == 1
def ftzOf (flush t : Nat) : Bool := flush / 2 ^ (2 * famOf t + 1) % 2 == 1

/-- A floating value: NaN, an infinity, or (−1)^neg × m × 2^e. -/
inductive FVal where
  | nan
  | inf (neg : Bool)
  | num (neg : Bool) (m : Nat) (e : Int)
  deriving DecidableEq, Repr

/-- The largest finite code without sign (R62). -/
def FFmt.maxCode (f : FFmt) : Nat :=
  match f.kind with
  | 0 => (2 ^ f.eb - 1) * 2 ^ f.mb - 1
  | 1 => 2 ^ (f.eb + f.mb) - 2
  | _ => 2 ^ (f.eb + f.mb) - 1

/-- The canonical NaN (R63); E2M1 has none, a NaN becomes +0 there (R70). -/
def FFmt.nanCode (f : FFmt) : Nat :=
  match f.kind with
  | 0 => (2 ^ f.eb - 1) * 2 ^ f.mb + 2 ^ (f.mb - 1)
  | 1 => 2 ^ (f.eb + f.mb) - 1
  | _ => 0

def FFmt.infCode (f : FFmt) : Nat := (2 ^ f.eb - 1) * 2 ^ f.mb

/-- Place the sign bit above a code. -/
def FFmt.withSign (f : FFmt) (neg : Bool) (c : Nat) : Nat := (if neg then 2 ^ (f.eb + f.mb) else 0) + c

/-- The value of an encoding (R62), subnormals read as zero under DAZ (R73). -/
def decodeF (f : FFmt) (daz : Bool) (w : Nat) : FVal :=
  let neg := w / 2 ^ (f.eb + f.mb) % 2 == 1
  let ex := w / 2 ^ f.mb % 2 ^ f.eb
  let fr := w % 2 ^ f.mb
  if ex = 2 ^ f.eb - 1 ∧ f.kind = 0 then (if fr = 0 then .inf neg else .nan)
  else if ex = 2 ^ f.eb - 1 ∧ f.kind = 1 ∧ fr = 2 ^ f.mb - 1 then .nan
  else if ex = 0 then .num neg (if daz then 0 else fr) (1 - (f.bias : Int) - f.mb)
  else .num neg (2 ^ f.mb + fr) ((ex : Int) - f.bias - f.mb)

/-- A result: its code and the kind of event it notes. -/
structure FRes where
  code : Nat
  kind : Nat
  deriving DecidableEq, Repr

/-- The overflow result of R70. -/
def overflowF (f : FFmt) (rm : Nat) (sat neg : Bool) : FRes :=
  let away : Bool := !sat && (rm == 0 || (rm == 2 && !neg) || (rm == 3 && neg))
  if away && f.kind == 0 then ⟨f.withSign neg f.infCode, 3⟩
  else if away && f.kind == 1 then ⟨f.nanCode, 1⟩
  else ⟨f.withSign neg f.maxCode, 3⟩

/-- Whether rounding mode rm goes away from zero (R69), given the value's sign, the kept part's parity and how the discarded
part compares with half: 0 none, 1 below, 2 equal, 3 above. -/
def roundsAway (rm : Nat) (neg odd : Bool) (rest : Nat) : Bool :=
  match rm with
  | 0 => rest == 3 || (rest == 2 && odd)
  | 2 => rest != 0 && !neg
  | 3 => rest != 0 && neg
  | _ => false

/-- How the remainder of a division compares with half the divisor. -/
def restOf (r d : Nat) : Nat := if r = 0 then 0 else if 2 * r < d then 1 else if 2 * r = d then 2 else 3

/-- The exponent of the last place a value of leading exponent `top` keeps (R62). -/
def FFmt.lastPlace (f : FFmt) (top : Int) : Int := max top (1 - (f.bias : Int)) - f.mb

/-- Finish a rounding: the kept magnitude is n units of the last place q. -/
def packF (f : FFmt) (rm : Nat) (sat ftz neg : Bool) (n : Nat) (q : Int) : FRes :=
  let k := (q - (1 - (f.bias : Int) - f.mb)).toNat
  let code := if k = 0 then n else k * 2 ^ f.mb + n
  if code > f.maxCode then overflowF f rm sat neg
  else if code < 2 ^ f.mb then ⟨f.withSign neg (if ftz then 0 else code), 4⟩
  else ⟨f.withSign neg code, 0⟩

/-- Round the non-zero quotient (−1)^neg × (m / d) × 2^e to a format: rm 0 to 3 (R69), or stochastically with a 16-bit draw (R71). -/
def roundQ (f : FFmt) (rm : Nat) (sat ftz : Bool) (draw : Option Nat) (neg : Bool) (m d : Nat) (e : Int) : FRes :=
  let top : Int := ((Nat.log2 m : Nat) : Int) - (Nat.log2 d : Nat) + e
  -- the leading exponent of the quotient is top or top − 1
  let top := if m * 2 ^ (e - top).toNat ≥ d * 2 ^ (top - e).toNat then top else top - 1
  let q := f.lastPlace top
  let num := m * 2 ^ (e - q).toNat
  let den := d * 2 ^ (q - e).toNat
  let lo := num / den
  let r := num % den
  match draw with
  | some x =>
    if r ≠ 0 ∧ x < 65536 * r / den then packF f (if neg then 3 else 2) sat ftz neg (lo + 1) q
    else packF f 1 sat ftz neg lo q
  | none => packF f rm sat ftz neg (if roundsAway rm neg (lo % 2 == 1) (restOf r den) then lo + 1 else lo) q

/-- m × 2^e exceeds the largest finite value of a format. -/
def beyondF (f : FFmt) (m : Nat) (e : Int) : Bool :=
  match decodeF f false f.maxCode with
  | .num _ p g => decide (p * 2 ^ (g - min e g).toNat < m * 2 ^ (e - min e g).toNat)
  | _ => false

/-- Whether a value differs from its rounding towards zero, so that `.sr` draws (R71). -/
def inexactF (f : FFmt) (v : FVal) : Bool :=
  match v with
  | .num _ m e =>
    if m = 0 then false
    else if beyondF f m e then true
    else
      let q := f.lastPlace (((Nat.log2 m : Nat) : Int) + e)
      m * 2 ^ (e - q).toNat % 2 ^ (q - e).toNat != 0
  | _ => false

/-- `.sr` beyond the largest finite value: lo is that value and hi the overflow result; which of them results is a free value, since
R71 divides by the distance of an infinity (log 25). -/
def beyondSr (f : FFmt) (sat neg : Bool) (m : Nat) (e : Int) (x : Nat) : FRes :=
  if sat || f.kind == 2 then ⟨f.withSign neg f.maxCode, 3⟩
  else if Config.srBeyond f.maxCode m e x then overflowF f (if neg then 3 else 2) false neg
  else ⟨f.withSign neg f.maxCode, 0⟩

/-- Round any value to a format (R63, R69 to R71, R73): `sat` is `.sat` of a narrowing conversion. -/
def roundF (f : FFmt) (rm : Nat) (sat ftz : Bool) (draw : Option Nat) (v : FVal) : FRes :=
  match v with
  | .nan => ⟨f.nanCode, 0⟩
  | .inf neg =>
    if sat || f.kind == 2 then ⟨f.withSign neg f.maxCode, 5⟩
    else if f.kind == 1 then ⟨f.nanCode, 1⟩
    else ⟨f.withSign neg f.infCode, 0⟩
  | .num neg m e =>
    if m = 0 then ⟨f.withSign neg 0, 0⟩
    else
      match draw with
      | some x => if beyondF f m e then beyondSr f sat neg m e x else roundQ f rm sat ftz draw neg m 1 e
      | none => roundQ f rm sat ftz draw neg m 1 e

def FVal.isNan (v : FVal) : Bool := match v with | .nan => true | _ => false
def FVal.isNeg (v : FVal) : Bool := match v with | .nan => false | .inf n => n | .num n _ _ => n
def FVal.negate (v : FVal) : FVal := match v with | .nan => .nan | .inf n => .inf (!n) | .num n m e => .num (!n) m e
def FVal.isZero (v : FVal) : Bool := match v with | .num _ m _ => m == 0 | _ => false

/-- The exact product (R74): NaN for an infinity times zero. -/
def mulV (a b : FVal) : FVal :=
  match a, b with
  | .nan, _ => .nan
  | _, .nan => .nan
  | .inf n, .inf k => .inf (n != k)
  | .inf n, .num k m _ => if m = 0 then .nan else .inf (n != k)
  | .num n m _, .inf k => if m = 0 then .nan else .inf (n != k)
  | .num n m e, .num k p g => .num (n != k) (m * p) (e + g)

/-- The exact sum of two values. An exact zero sum is −0 in RDN and where both addends are −0, +0 elsewhere (R74, second item; DEDUCED for
(+0) + (+0) in RDN, log 77). -/
def addV (rm : Nat) (a b : FVal) : FVal :=
  match a, b with
  | .nan, _ => .nan
  | _, .nan => .nan
  | .inf n, .inf k => if n = k then .inf n else .nan
  | .inf n, _ => .inf n
  | _, .inf k => .inf k
  | .num n m e, .num k p g =>
    let q := min e g
    let x : Int := (if n then -1 else 1) * ((m * 2 ^ (e - q).toNat : Nat) : Int)
    let y : Int := (if k then -1 else 1) * ((p * 2 ^ (g - q).toNat : Nat) : Int)
    let z := x + y
    if z = 0 then .num ((m == 0 && p == 0 && n && k) || rm == 3) 0 q
    else .num (decide (z < 0)) z.natAbs q

/-- The event of a result whose NaN no operand explains (R391). -/
def withInvalid (operandNan : Bool) (v : FVal) (r : FRes) : FRes :=
  if v.isNan && !operandNan then ⟨r.code, 1⟩ else r

/-- round(x + y), round(x × y) and round(x × y + z) in a format (R69, R74). -/
def addF (f : FFmt) (rm : Nat) (ftz : Bool) (x y : FVal) : FRes :=
  let v := addV rm x y
  withInvalid (x.isNan || y.isNan) v (roundF f rm false ftz none v)
def mulF (f : FFmt) (rm : Nat) (ftz : Bool) (x y : FVal) : FRes :=
  let v := mulV x y
  withInvalid (x.isNan || y.isNan) v (roundF f rm false ftz none v)
def fmaF (f : FFmt) (rm : Nat) (ftz : Bool) (x y z : FVal) : FRes :=
  let v := addV rm (mulV x y) z
  withInvalid (x.isNan || y.isNan || z.isNan) v (roundF f rm false ftz none v)
/-- round(x1 × y1 + x2 × y2 + z): the parts of the complex operations (08 R153, R159). -/
def dot2F (f : FFmt) (rm : Nat) (ftz : Bool) (x1 y1 x2 y2 : FVal) (z : Option FVal) : FRes :=
  let s := addV rm (mulV x1 y1) (mulV x2 y2)
  let v := match z with | some c => addV rm s c | none => s
  let nanIn := x1.isNan || y1.isNan || x2.isNan || y2.isNan || (match z with | some c => c.isNan | none => false)
  withInvalid nanIn v (roundF f rm false ftz none v)

/-- round(x / y) for finite x and finite non-zero y (09 R192: correctly rounded division). -/
def divF (f : FFmt) (rm : Nat) (ftz : Bool) (x y : FVal) : FRes :=
  match x, y with
  | .num n m e, .num k p g =>
    if m = 0 then ⟨f.withSign (n != k) 0, 0⟩
    else if p = 0 then ⟨f.nanCode, 1⟩
    else roundQ f rm false ftz none (n != k) m p (e - g)
  | _, _ => ⟨f.nanCode, 1⟩

/-- x < y and x = y for non-NaN values; −0 equals +0 (07 R127). -/
def valInt (a b : FVal) : Int × Int :=
  match a, b with
  | .num n m e, .num k p g =>
    let q := min e g
    ((if n then -1 else 1) * ((m * 2 ^ (e - q).toNat : Nat) : Int), (if k then -1 else 1) * ((p * 2 ^ (g - q).toNat : Nat) : Int))
  | _, _ => (0, 0)
def ltV (a b : FVal) : Bool :=
  match a, b with
  | .nan, _ => false
  | _, .nan => false
  | .inf n, .inf k => n && !k
  | .inf n, .num _ _ _ => n
  | .num _ _ _, .inf k => !k
  | .num _ _ _, .num _ _ _ => decide ((valInt a b).1 < (valInt a b).2)
def eqV (a b : FVal) : Bool :=
  match a, b with
  | .inf n, .inf k => n == k
  | .num _ _ _, .num _ _ _ => decide ((valInt a b).1 = (valInt a b).2)
  | _, _ => false

/-- The comparison codes on floating values (07 R122): ordered codes are false for NaN. -/
def cmpV (cc : Nat) (a b : FVal) : Bool :=
  let nan := a.isNan || b.isNan
  match cc with
  | 0 => eqV a b
  | 1 => !eqV a b
  | 2 => ltV a b
  | 3 => !nan && !ltV a b
  | 6 => !nan && (ltV a b || eqV a b)
  | 7 => ltV b a
  | 10 => nan
  | 11 => !nan
  | _ => false

/-- The comparison codes on integers (R122): a and b as two's complement for 2, 3, 6, 7, as unsigned for the others. -/
def cmpI (cc : Nat) (a b : Int) : Bool :=
  match cc with
  | 0 => a == b
  | 1 => a != b
  | 2 => decide (a < b)
  | 3 => decide (b ≤ a)
  | 6 => decide (a ≤ b)
  | 7 => decide (b < a)
  | _ => false

/-- Which of two values minimum and maximum return (R74): the non-NaN one, −0 below +0. -/
def minV (a b : FVal) : FVal :=
  if a.isNan then b else if b.isNan then a
  else if ltV a b then a else if ltV b a then b else if a.isNeg then a else b
def maxV (a b : FVal) : FVal :=
  if a.isNan then b else if b.isNan then a
  else if ltV a b then b else if ltV b a then a else if a.isNeg then b else a

/-- The exact value of an integer. -/
def ofIntV (z : Int) : FVal := .num (decide (z < 0)) z.natAbs 0

/-- A value rounded to an integer by rm (R69): magnitude rounding with sign. -/
def toIntegral (rm : Nat) (neg : Bool) (m : Nat) (e : Int) : Nat :=
  if 0 ≤ e then m * 2 ^ e.toNat
  else
    let d := 2 ^ (-e).toNat
    let lo := m / d
    if roundsAway rm neg (lo % 2 == 1) (restOf (m % d) d) then lo + 1 else lo

/-- Clamp an integer to a range; the kind is 5 where it was outside. -/
def clampI (lo hi z : Int) : Int × Nat := if z < lo then (lo, 5) else if hi < z then (hi, 5) else (z, 0)

/-- The range of an integer T code (R66): signed below 8. -/
def intLo (t b : Nat) : Int := if t < 8 then -((2 ^ (b - 1) : Nat) : Int) else 0
def intHi (t b : Nat) : Int := if t < 8 then ((2 ^ (b - 1) : Nat) : Int) - 1 else ((2 ^ b : Nat) : Int) - 1

/-- Float to integer (R67): rounds by rm, saturates, NaN becomes 0. -/
def toIntF (t b rm : Nat) (v : FVal) : FRes :=
  match v with
  | .nan => ⟨0, 1⟩
  | .inf neg => ⟨wrap b (if neg then intLo t b else intHi t b), 5⟩
  | .num neg m e =>
    let n : Int := toIntegral rm neg m e
    let r := clampI (intLo t b) (intHi t b) (if neg then -n else n)
    ⟨wrap b r.1, r.2⟩

/-- VRND (08 R151): an integral value of the same format; a zero keeps the sign. -/
def rndV (rm : Nat) (v : FVal) : FVal :=
  match v with
  | .num neg m e => if m = 0 then v else .num neg (toIntegral rm neg m e) 0
  | w => w

/-- An element as its integer T code reads it. -/
def intOf (t b w : Nat) : Int := if t < 8 then signed b w else ((w % 2 ^ b : Nat) : Int)

/-- floor(log2 |m × 2^e|) of a non-zero value. -/
def ilog2 (m : Nat) (e : Int) : Int := ((Nat.log2 m : Nat) : Int) + e

/-! ## Approximations (R75 to R77) -/

/-- Bits from a code with a format's sign and magnitude. -/
def signOf (f : FFmt) (w : Nat) : Bool := w / 2 ^ (f.eb + f.mb) % 2 == 1

/-- |r − 1/x| ≤ 2^−12 × |1/x| for x = m × 2^e and r = p × 2^g, both positive: |p·m·2^(e+g) − 1| ≤ 2^−12. -/
def rcpClose (m p : Nat) (e : Int) : Bool :=
  let k := m * p * 4096
  if 0 ≤ e then decide (4095 ≤ k * 2 ^ e.toNat) && decide (k * 2 ^ e.toNat ≤ 4097)
  else decide (4095 * 2 ^ (-e).toNat ≤ k) && decide (k ≤ 4097 * 2 ^ (-e).toNat)

/-- Relative error of r = p × 2^g against 1/sqrt(x), x = m × 2^e, at most 2^−12: (1 − 2^−12)² ≤ r²·x ≤ (1 + 2^−12)². -/
def rsqClose (m p : Nat) (e : Int) : Bool :=
  let k := m * p * p * 4096 * 4096
  if 0 ≤ e then decide (4095 * 4095 ≤ k * 2 ^ e.toNat) && decide (k * 2 ^ e.toNat ≤ 4097 * 4097)
  else decide (4095 * 4095 * 2 ^ (-e).toNat ≤ k) && decide (k ≤ 4097 * 4097 * 2 ^ (-e).toNat)

/-- floor(sqrt n) for n < 4^k, bit by bit from r. -/
def sqrtBits (n k r : Nat) : Nat :=
  match k with
  | 0 => r
  | k + 1 => sqrtBits n k (if (r + 2 ^ k) * (r + 2 ^ k) ≤ n then r + 2 ^ k else r)

/-- A positive 1/sqrt(m × 2^e) near enough for the bound: with s = floor(sqrt(2^(2k) / m')) for an even exponent. -/
def rsqNear (f : FFmt) (m : Nat) (e : Int) : Nat :=
  let m' := if e % 2 = 0 then m else 2 * m
  let e' := if e % 2 = 0 then e else e - 1
  let k := 70 + Nat.log2 m'
  (roundQ f 0 false false none false (sqrtBits (2 ^ (2 * k) / m') (k + 1) 0) 1 (-(k : Int) - e' / 2)).code

/-- VRCP (R75). The approximation is the free value where that keeps the bound, else the nearest value, which does. -/
def rcpF (t : Nat) (daz : Bool) (w : Nat) : FRes :=
  let f := fmtOf t
  let emax : Int := f.bias
  match decodeF f daz w with
  | .nan => ⟨f.nanCode, 0⟩
  | .inf neg => ⟨f.withSign neg 0, 0⟩
  | .num neg m e =>
    if m = 0 then ⟨f.withSign neg f.infCode, 2⟩
    else
      let aboveHalf : Bool := decide (ilog2 m e > emax - 1) || (decide (ilog2 m e = emax - 1) && m != 2 ^ Nat.log2 m)
      let tiny : Bool := decide (ilog2 m e < -(emax + 1)) || (decide (ilog2 m e = -(emax + 1)) && m == 2 ^ Nat.log2 m)
      if tiny then ⟨f.withSign neg f.infCode, 3⟩
      else if aboveHalf then ⟨f.withSign neg 0, 4⟩
      else
        let a := Config.approx 0 t w % 2 ^ (f.eb + f.mb)
        let good := match decodeF f false a with
          | .num _ p g => a ≤ f.maxCode && 2 ^ f.mb ≤ a && rcpClose m p (e + g)
          | _ => false
        if good then ⟨f.withSign neg a, 0⟩
        else
          let r := roundQ f 0 false false none false 1 m (-e)
          if r.code > f.maxCode then ⟨f.withSign neg f.maxCode, 3⟩ else ⟨f.withSign neg r.code, 0⟩

/-- VRSQ (R76). -/
def rsqF (t : Nat) (daz : Bool) (w : Nat) : FRes :=
  let f := fmtOf t
  match decodeF f daz w with
  | .nan => ⟨f.nanCode, 0⟩
  | .inf true => ⟨f.nanCode, 1⟩
  | .inf false => ⟨0, 0⟩
  | .num neg m e =>
    if m = 0 then ⟨f.withSign neg f.infCode, 2⟩
    else if neg then ⟨f.nanCode, 1⟩
    else
      let a := Config.approx 1 t w % 2 ^ (f.eb + f.mb)
      let good := match decodeF f false a with
        | .num _ p g => a ≤ f.maxCode && 2 ^ f.mb ≤ a && rsqClose m p (e + 2 * g)
        | _ => false
      ⟨if good then a else rsqNear f m e, 0⟩

/-- The integer a value is, if it is one. -/
def integerOf (neg : Bool) (m : Nat) (e : Int) : Option Int :=
  if 0 ≤ e then some ((if neg then -1 else 1) * ((m * 2 ^ e.toNat : Nat) : Int))
  else if m % 2 ^ (-e).toNat = 0 then some ((if neg then -1 else 1) * ((m / 2 ^ (-e).toNat : Nat) : Int))
  else none

/-- 2^(f / 2^k) × 2^100 to about 90 bits: `root` is 2^(2^-j) × 2^100 for the bit at hand. -/
def exp2Frac (f k root acc : Nat) : Nat :=
  match k with
  | 0 => acc
  | k + 1 => exp2Frac f k (sqrtBits (root * 2 ^ 100) 101 0) (if f.testBit k then acc * root / 2 ^ 100 else acc)

/-- 2^x for x = (−1)^neg × m × 2^e, as M × 2^(n − 100). -/
def exp2Near (neg : Bool) (m : Nat) (e : Int) : Nat × Int :=
  let z : Int := if 0 ≤ e + 60 then (m * 2 ^ (e + 60).toNat : Nat) else (m / 2 ^ (-(e + 60)).toNat : Nat)
  let z := if neg then -z else z
  (exp2Frac (z % 2 ^ 60).toNat 60 (sqrtBits (2 ^ 201) 101 0) (2 ^ 100), z / 2 ^ 60)

/-- Fraction bits of log2 y for y / 2^200 in [1, 2). -/
def log2Frac (y k acc : Nat) : Nat :=
  match k with
  | 0 => acc
  | k + 1 => let z := y * y / 2 ^ 200; if 2 ^ 201 ≤ z then log2Frac (z / 2) k (2 * acc + 1) else log2Frac z k (2 * acc)

/-- log2 (m × 2^e) × 2^100. -/
def log2Near (m : Nat) (e : Int) : Int := ilog2 m e * 2 ^ 100 + log2Frac (m * 2 ^ (200 - Nat.log2 m)) 100 0

/-- A code is a finite number within 2 units in the last place of v = (−1)^neg × m × 2^e (R77). -/
def withinTwo (f : FFmt) (a : Nat) (neg : Bool) (m : Nat) (e : Int) : Bool :=
  match decodeF f false a with
  | .num k p g =>
    let u := f.lastPlace (ilog2 m e)
    let q := min u (min e g)
    let x : Int := (if k then -1 else 1) * ((p * 2 ^ (g - q).toNat : Nat) : Int)
    let y : Int := (if neg then -1 else 1) * ((m * 2 ^ (e - q).toNat : Nat) : Int)
    decide ((x - y).natAbs ≤ 2 * 2 ^ (u - q).toNat)
  | _ => false

/-- The free approximation where it keeps R77's bound, otherwise the nearest value, which does. -/
def boundedApprox (f : FFmt) (ftz : Bool) (a : Nat) (neg : Bool) (m : Nat) (e : Int) : FRes :=
  if withinTwo f a neg m e then
    if a % 2 ^ (f.eb + f.mb) < 2 ^ f.mb then ⟨f.withSign neg (if ftz then 0 else a % 2 ^ f.mb), 4⟩ else ⟨a, 0⟩
  else roundQ f 0 false ftz none neg m 1 e

/-- VEXP2 (R77): exact where stated, the free value within its bound elsewhere (log 8). -/
def exp2F (t : Nat) (daz ftz : Bool) (w : Nat) : FRes :=
  let f := fmtOf t
  let emax : Int := f.bias
  let emin : Int := 1 - f.bias
  match decodeF f daz w with
  | .nan => ⟨f.nanCode, 0⟩
  | .inf true => ⟨0, 0⟩
  | .inf false => ⟨f.infCode, 0⟩
  | .num neg m e =>
    if m = 0 then roundQ f 0 false false none false 1 1 0
    else if !neg && decide (emax + 1 ≤ toIntegral 1 neg m e) then ⟨f.infCode, 3⟩
    else if neg && decide ((-(emin - f.mb)).toNat * 2 ^ (-e).toNat < m * 2 ^ e.toNat) then ⟨0, 4⟩
    else match integerOf neg m e with
      | some n => roundQ f 0 false ftz none false 1 1 n
      | none =>
        let v := exp2Near neg m e
        boundedApprox f ftz (Config.approx 2 t w % 2 ^ (f.eb + f.mb)) false v.1 (v.2 - 100)

/-- VLOG2 (R77). -/
def log2F (t : Nat) (daz ftz : Bool) (w : Nat) : FRes :=
  let f := fmtOf t
  match decodeF f daz w with
  | .nan => ⟨f.nanCode, 0⟩
  | .inf true => ⟨f.nanCode, 1⟩
  | .inf false => ⟨f.infCode, 0⟩
  | .num neg m e =>
    if m = 0 then ⟨f.withSign true f.infCode, 2⟩
    else if neg then ⟨f.nanCode, 1⟩
    else if m = 2 ^ Nat.log2 m then roundF f 0 false ftz none (ofIntV (ilog2 m e))
    else
      let z := log2Near m e
      boundedApprox f ftz (Config.approx 3 t w % 2 ^ (1 + f.eb + f.mb)) (decide (z < 0)) z.natAbs (-100)

/-! ## MX blocks (R64, R65) -/

/-- The exact value of an E8M0 scale (R64); X = 0xFF is NaN. -/
def scaleV (x : Nat) : FVal := if x = 255 then .nan else .num false 1 ((x : Int) - 127)

/-- The element format, its bits and emax_el of an MX code (R64, R65): 18 E4M3, 19 E5M2, 20 E2M1. -/
def mxElem (t : Nat) : FFmt × Nat × Int :=
  match t with
  | 18 => (fmtOf 14, 8, 8)
  | 19 => (fmtOf 15, 8, 15)
  | _ => (fmtOf 16, 4, 2)

/-- The scale byte of 32 values (R65): 0xFF for a NaN, 0 for all zeros, else the clamped exponent. -/
def blockScale (emaxEl : Int) (srcMax : FVal) (vs : List FVal) : Nat :=
  if vs.any FVal.isNan then 255
  else
    let mags : List FVal := vs.map (fun v => match v with
      | .inf _ => srcMax
      | .num _ m e => FVal.num false m e
      | .nan => FVal.nan)
    let amax := mags.foldl (fun a v => if ltV a v then v else a) (FVal.num false 0 0)
    match amax with
    | .num _ m e => if m = 0 then 0 else (max (-127) (min 127 (ilog2 m e - emaxEl)) + 127).toNat
    | _ => 0

/-- One element of a block: value / 2^e rounded, saturating at the largest finite value whatever `.sat` says (R65). -/
def blockElem (f : FFmt) (rm : Nat) (ftz : Bool) (draw : Option Nat) (srcMax : FVal) (x : Nat) (v : FVal) : FRes :=
  let v : FVal := match v with
    | .inf neg => (match srcMax with | .num _ m e => FVal.num neg m e | w => w)
    | w => w
  match v with
  | .num neg m e =>
    let r := roundF f rm true ftz draw (.num neg m (e - ((x : Int) - 127)))
    ⟨r.code, if r.kind = 3 then 5 else r.kind⟩
  | _ => ⟨0, 0⟩

/-- The largest finite value of a format. -/
def largestV (f : FFmt) : FVal := decodeF f false f.maxCode

end Sys2Proof.Machine
end

