-- ==== Sys2Proof/Machine/Ops.lean ====
section
/-! DEFINITION. Machine/Ops.lean: the named operations on contexts, cores and registers: accessors, the landing of shadow-record
writes (03 R43 to R54), queues (R49 to R52), and taking and leaving a trap (22 R379 to R383). -/

namespace Sys2Proof.Machine

/-! ## Agents -/

def coreOf (s : State) (k : Nat) : Core := mapGet s.cores (Core.init k) k
def setCore (s : State) (k : Nat) (c : Core) : State := { s with cores := mapSet s.cores (Core.init k) k c }
def ctxOf (s : State) (k x : Nat) : Ctx := mapGet s.ctxs Ctx.init (8 * k + x)
def setCtx (s : State) (k x : Nat) (c : Ctx) : State := { s with ctxs := mapSet s.ctxs Ctx.init (8 * k + x) c }
def dieOf (s : State) (d : Nat) : Die := mapGet s.dies Die.init d
def setDie (s : State) (d : Nat) (v : Die) : State := { s with dies := mapSet s.dies Die.init d v }

/-- Context area x of a core (03 R50), and what acts on the task it holds as on a bound one (14 R285). -/
def areaOf (s : State) (k x : Nat) : Ctx := mapGet (coreOf s k).vrf.area Ctx.init x
def onArea (s : State) (k x : Nat) (f : State → State) : State :=
  let guest := ctxOf s k x
  let s := f (setCtx s k x (areaOf s k x))
  let c := coreOf s k
  setCtx (setCore s k { c with vrf := { c.vrf with area := mapSet c.vrf.area Ctx.init x (ctxOf s k x) } }) k x guest

/-- The acting context and its core (log 11). -/
def actCtx (s : State) : Ctx := ctxOf s s.core s.cx
def setAct (s : State) (c : Ctx) : State := setCtx s s.core s.cx c
def actCore (s : State) : Core := coreOf s s.core
def setActCore (s : State) (c : Core) : State := setCore s s.core c

/-- The die of a logical core (01 R14). -/
def dieOfCore (k : Nat) : Nat := k / 80

/-! ## Registers (R42, R46, R47, R53) -/

/-- s0 reads as zero. -/
def readS (c : Ctx) (n : Nat) : BitVec 64 := if n = 0 then 0#64 else mapGet c.regs.s 0#64 n
/-- A register is written: an error that struck its old value is gone (24 R421). -/
def mended (c : Ctx) (kind n : Nat) : List (Nat × Nat) := c.regs.broken.filter (fun b => b != (kind, n))
/-- Writes to s0 are discarded. A write replaces the scalar whole and clears its mark (22 R385). -/
def writeS (c : Ctx) (n : Nat) (v : BitVec 64) : Ctx :=
  if n = 0 then c
  else { c with regs := { c.regs with s := mapSet c.regs.s 0#64 n v, sMark := mapSet c.regs.sMark .clean n .clean, broken := mended c 0 n } }
def markS (c : Ctx) (n : Nat) (m : Mark) : Ctx :=
  if n = 0 then c else { c with regs := { c.regs with sMark := mapSet c.regs.sMark .clean n m } }
def sMarkOf (c : Ctx) (n : Nat) : Mark := if n = 0 then .clean else mapGet c.regs.sMark .clean n
/-- p0 reads as true. -/
def readP (c : Ctx) (n : Nat) : Bool := if n = 0 then true else mapGet c.regs.p false n
def writeP (c : Ctx) (n : Nat) (v : Bool) : Ctx :=
  if n = 0 then c else { c with regs := { c.regs with p := mapSet c.regs.p false n v, broken := mended c 1 n } }
def readC (c : Ctx) (n : Nat) : Cap := mapGet c.regs.c Cap.zero n
def writeC (c : Ctx) (n : Nat) (v : Cap) : Ctx := { c with regs := { c.regs with c := mapSet c.regs.c Cap.zero n v, broken := mended c 2 n } }
def readE (c : Ctx) (n : Nat) : BitVec 128 := mapGet c.regs.e 0#128 n
def writeE (c : Ctx) (n : Nat) (v : BitVec 128) : Ctx :=
  { c with regs := { c.regs with e := mapSet c.regs.e 0#128 n v, broken := mended c 3 n } }
def portOf (c : Ctx) (n : Nat) : Port := mapGet c.regs.ports Port.init n
def setPort (c : Ctx) (n : Nat) (p : Port) : Ctx :=
  { c with regs := { c.regs with ports := mapSet c.regs.ports Port.init n p } }
def semOf (c : Ctx) (n : Nat) : Nat := mapGet c.sems 0 n
/-- Semaphores count modulo 65,536 (R55). -/
def addSem (c : Ctx) (n v : Nat) : Ctx := { c with sems := mapSet c.sems 0 n ((semOf c n + v) % 65536) }
def fscOf (c : Ctx) (n : Nat) : Nat := mapGet c.fsc 0 n
def setFsc (c : Ctx) (n v : Nat) : Ctx := { c with fsc := mapSet c.fsc 0 n v }
/-- A ring entry; one that no result has reached reads 0 (23 R400). -/
def ringOf (c : Ctx) (vb : Bool) (n : Nat) : Row := (if vb then c.regs.kb else c.regs.ka).getD n Row.zero
/-- The ring shifts and the result enters at entry 0 (R54). -/
def shiftRing (c : Ctx) (vb : Bool) (v : Row) : Ctx :=
  if vb then { c with regs := { c.regs with kb := (v :: c.regs.kb).take 8 } }
  else { c with regs := { c.regs with ka := (v :: c.regs.ka).take 8 } }

/-! ## Queues (R51, R52) -/

def qcfgOf (c : Ctx) (n : Nat) : QCfg := mapGet c.qcfg QCfg.init n
def qptrOf (c : Ctx) (n : Nat) : QPtr := mapGet c.regs.q QPtr.init n
def setQPtr (c : Ctx) (n : Nat) (q : QPtr) : Ctx := { c with regs := { c.regs with q := mapSet c.regs.q QPtr.init n q } }
/-- Rows of an engine-fed queue claimed and not yet in COUNT (08 R147, rule 4): pushes on their way, rows that a remote reply will
push, and rows whose data is there before that of an earlier one. -/
def claimedRows (c : Ctx) (n : Nat) : Nat :=
  (c.regs.shadow.filter (fun p => match p.what with | .row q _ _ => q == n | _ => false)).length
    + (c.reqs.filter (fun r => r.push && (match r.dst with | .row q _ _ => q == n | _ => false))).length
    + (c.regs.early.filter (fun p => p.1 == n)).length
/-- The row of the k-th place from the head. -/
def rowAt (c : Ctx) (n k : Nat) : Nat := (qcfgOf c n).base + ((qptrOf c n).rd + k) % (qcfgOf c n).depth

/-! ## The register file's banks (R48, R49) -/

/-- The owner of a bank as the context number plus 1, plus 8 for a suspended one (14 R287) and 16 for one of the partition on standby
(R291); 0 for none. -/
def bankOwner (v : Vrf) (b : Nat) : Nat := mapGet v.owner 0 b
/-- A bank image of a context is kept (R50). -/
def hasImage (v : Vrf) (x b : Nat) : Bool := (v.images ++ v.backing).any (fun i => i.ctx == x && i.bank == b)
/-- A bank a context may use without an exchange: its own, or no one's of which it has no image. -/
def bankFree (v : Vrf) (x b : Nat) : Bool :=
  (bankOwner v b == 0 && !hasImage v x b) || bankOwner v b == x + 1
/-- Rows of an image, or no rows. -/
def imageRows (v : Vrf) (x b : Nat) : SMap Row :=
  match (v.images ++ v.backing).find? (fun i => i.ctx == x && i.bank == b) with
  | some i => i.rows
  | none => []
/-- The rows of a bank in the register file, by offset in the bank. -/
def bankRows (v : Vrf) (b : Nat) : SMap Row :=
  (v.rows.filter (fun p => p.1 / 128 == b)).map (fun p => (p.1 % 128, p.2))
/-- Replace the rows of a bank. -/
def setBankRows (v : Vrf) (b : Nat) (rs : SMap Row) : Vrf :=
  let others := v.rows.filter (fun p => p.1 / 128 != b)
  { v with rows := rs.foldl (fun m p => mapSet m Row.zero (128 * b + p.1) p.2) others }
/-- Store an image; Bobbin holds 48, the least recently demanded goes to the backing area (R50). -/
def putImage (v : Vrf) (i : Image) : Vrf :=
  let rest := v.images.filter (fun j => !(j.ctx == i.ctx && j.bank == i.bank))
  let back := v.backing.filter (fun j => !(j.ctx == i.ctx && j.bank == i.bank))
  let all := rest ++ [i]
  if all.length ≤ 48 then { v with images := all, backing := back }
  else { v with images := all.drop 1, backing := all.take 1 ++ back }
/-- The demand exchange of a bank towards context x (R49): the outgoing rows become an image, the incoming image is
restored, from Bobbin or from the backing area (log 83). -/
def exchangeBank (v : Vrf) (x b : Nat) : Vrf :=
  let o := bankOwner v b
  let v1 := if o = 0 then v else putImage v ⟨o - 1, b, bankRows v b⟩
  let mine := imageRows v1 x b
  let v2 := { v1 with images := v1.images.filter (fun j => !(j.ctx == x && j.bank == b)),
                      backing := v1.backing.filter (fun j => !(j.ctx == x && j.bank == b)) }
  let v3 := setBankRows v2 b mine
  { v3 with owner := mapSet v3.owner 0 b (x + 1) }
/-- Take an unowned bank: its rows read 0 until written (R49). -/
def claimBank (v : Vrf) (x b : Nat) : Vrf :=
  if bankOwner v b = 0 && !hasImage v x b then { setBankRows v b [] with owner := mapSet v.owner 0 b (x + 1) } else v
/-- The row as context x holds it, in the register file or in its image. -/
def vrfRead (v : Vrf) (x r : Nat) : Row :=
  if bankOwner v (r / 128) = x + 1 then mapGet v.rows Row.zero r else mapGet (imageRows v x (r / 128)) Row.zero (r % 128)
/-- A row is written where it lies: a bank that another context has taken since, or that the context has an image of, takes it in the image as it
stands in Bobbin or in the backing area, without an exchange (log 83). -/
def vrfWrite (v : Vrf) (x r : Nat) (w : Row) : Vrf :=
  let v := claimBank v x (r / 128)
  let put : Image → Image := fun i => if i.ctx == x && i.bank == r / 128 then { i with rows := mapSet i.rows Row.zero (r % 128) w } else i
  if bankOwner v (r / 128) = x + 1 then { v with rows := mapSet v.rows Row.zero r w }
  else if hasImage v x (r / 128) then { v with images := v.images.map put, backing := v.backing.map put }
  else putImage v ⟨x, r / 128, mapSet [] Row.zero (r % 128) w⟩

/-! ## Pending causes and the event log (22 R382, R391, R60) -/

/-- A class-A cause becomes pending with its EINFO. -/
def raiseA (c : Ctx) (code info : Nat) : Ctx := { c with pendA := c.pendA ++ [(code, info)] }

/-- FELOG takes an event in cycle `at_`; what it held as that cycle began is kept beside it for a MOVSP of the cycle (07 R134). -/
def setEvent (c : Ctx) (at_ iss : Nat) (e : Event) : Ctx :=
  { c with sp := { c.sp with felog := some e, felogAt := iss, felogSet := at_ + 1, felogWas := if c.sp.felogSet = at_ + 1 then c.sp.felogWas else c.sp.felog } }
/-- Note an event in cycle `at_`: FELOG takes it while empty, and after that only from a group issued earlier on the context clock (R391). -/
def noteEvent (c : Ctx) (at_ iss : Nat) (e : Event) : Ctx :=
  match c.sp.felog with
  | none => setEvent c at_ iss e
  | some old => if iss < c.sp.felogAt || (iss == c.sp.felogAt && e.slot < old.slot) then setEvent c at_ iss e else c

/-! ## Landing (R43 to R45, R54) -/

/-- The walk position of a port as an offset from BASE (11 R228): index j of dimension i from a count of vectors taken. -/
def walkOffset (cnts : List Nat) (strs : List Int) (pos : Nat) : Int :=
  match cnts, strs with
  | c :: cs, t :: ts => ((pos % (c + 1) : Nat) : Int) * t + walkOffset cs ts (pos / (c + 1))
  | _, _ => 0
/-- How many vectors a walk has. -/
def walkLength (cnts : List Nat) : Nat := cnts.foldl (fun n c => n * (c + 1)) 1

/-- Size and code of a typed buffer (10 R202): 0 W, 1 A, 2 C, 3 S. -/
def bufSize (b : Nat) : Nat := match b with | 0 => 2097152 | 1 => 1048576 | 2 => 1310720 | _ => 1048576
/-- The key of a typed-buffer byte in the core's byte store. -/
def bufKey (b a : Nat) : Nat := b * 2097152 + a
/-- The swizzled layout (10 R203): the physical byte of address y. -/
def swizzle (y : Nat) : Nat := (y / 64 ^^^ (y / 64 / 16 % 16)) * 64 + y % 64

/-- A store as it enters the gate. -/
def Store.fresh (x cls : Nat) (tgt : Target) (data : List Byte) (tag bad : Bool) : Store :=
  ⟨x, cls, tgt, data, tag, bad, 0, 0, none, none, none⟩
/-- A store enters the gated store buffer under the next number (10 R214). -/
def MemSide.gate (m : MemSide) (t : Store) : MemSide := { m with gated := m.gated ++ [{ t with id := m.gates }], gates := m.gates + 1 }
/-- A context invalidates its core's line cache: an acquire wider than core (10 R204). What its semaphores had counted till then asks for no other
(12 R239). -/
def dropLines (s : State) (k x : Nat) : State :=
  let c := coreOf s k
  let s := setCore s k { c with ms := { c.ms with lines := [] } }
  setCtx s k x { ctxOf s k x with semWide := 0 }

/-- A result that lands in a write port takes the next position of the walk and is gated as a store (11 R229); one past the
walk raises 0x0A (23 R403). -/
def landPort (s : State) (k x g : Nat) (v : Row) : State :=
  let c := ctxOf s k x
  let p := portOf c g
  if !(p.armed && p.write) then setCtx s k x (raiseA c 0x0A g)
  else
    let addr := ((p.base : Int) + walkOffset p.cnts p.strs p.pos).toNat
    let n := 32 * 2 ^ p.w
    let tgt : Target := if p.swz then .swz p.buf addr else .buf p.buf addr
    let st := Store.fresh x p.cls tgt (leBytes n v.bits.toNat) false (v.mark != .clean)
    let core := coreOf s k
    let s := setCore s k { core with ms := core.ms.gate st }
    setCtx s k x (setPort c g { p with pos := p.pos + 1, armed := decide (p.pos + 1 < walkLength p.cnts) })

/-- COUNT of an engine-fed queue takes the rows whose data is there, in the order of their places: never a row before its data (08 R147,
rule 4). -/
def Regs.countRows (g : Regs) (cfg : QCfg) (q fuel : Nat) : Regs :=
  match fuel with
  | 0 => g
  | fuel + 1 =>
    let p := mapGet g.q QPtr.init q
    let r := cfg.base + (p.rd + p.count) % cfg.depth
    if g.early.contains (q, r) then
      Regs.countRows { g with q := mapSet g.q QPtr.init q { p with count := p.count + 1 }, early := g.early.erase (q, r) } cfg q fuel
    else g
/-- A row's data is there. -/
def Regs.landed (g : Regs) (cfg : QCfg) (q r : Nat) : Regs := Regs.countRows { g with early := g.early ++ [(q, r)] } cfg q (g.early.length + 1)
/-- A row lands in its queue: the register file takes it, and an engine-fed queue counts it (08 R147). -/
def landRow (s : State) (k x q r : Nat) (v : Row) : State :=
  let core := coreOf s k
  let s := setCore s k { core with vrf := vrfWrite core.vrf x r v }
  let c := ctxOf s k x
  if (qcfgOf c q).cls = 2 then setCtx s k x { c with regs := c.regs.landed (qcfgOf c q) q r } else s
/-- A row that an engine or a reply pushes is no write of the context: a rollback leaves it in the queue (22 R383), so the restart points
count it too. -/
def pushRow (s : State) (k x q r : Nat) (v : Row) : State :=
  let s := landRow s k x q r v
  let c := ctxOf s k x
  let cfg := qcfgOf c q
  if cfg.cls = 2 then
    setCtx s k x { c with
      markRegs := c.markRegs.landed cfg q r
      aside := c.aside.map (fun a => { a with markRegs := a.markRegs.landed cfg q r }) }
  else s

/-! ## Guards of engine commands (09 R182) -/

/-- Change every queued command of a context. -/
def Engines.mapCmds (f : Cmd → Cmd) (e : Engines) : Engines :=
  { copy := e.copy.map f, sfe := e.sfe.map f, send := e.send.map f, coll := e.coll.map f, ck := e.ck.map f, gq := e.gq.map f,
    subs := e.subs.map (fun u => { u with cmd := f u.cmd }), ring := e.ring.map f }
/-- A write to predicate n, issued the cycle before `after`, has landed: the guards that wait for it take its value; 0 in the place of
the cycle is resolved false. -/
def resolveGuards (c : Ctx) (after n : Nat) (v : Bool) : Ctx :=
  let f : Cmd → Cmd := fun m => match m.guard with
    | some (d, p, sense) => if d = after && p = n && d ≠ 0 then { m with guard := if v != sense then none else some (0, p, sense) } else m
    | none => m
  { c with eng := c.eng.mapCmds f }
/-- A value that lands with a residue mismatch is C-poisoned (22 R392). -/
def Land.spoilt (w : Land) : Land :=
  match w with
  | .row q r v => .row q r { v with mark := .corrupt }
  | .port g v => .port g { v with mark := .corrupt }
  | .none v => .none { v with mark := .corrupt }
  | w => w
/-- The destination selector of a vector result (05 R97). -/
def Land.selector (w : Land) : Nat := match w with | .row q _ _ => q | .port g _ => 64 + g | _ => 127
/-- One entry becomes visible, as the next cycle begins. An entry that still waits for its request marks its destination L (22 R390); one with a
residue mismatch notes it and raises 0x1E (22 R392). -/
def landOne (s : State) (k x : Nat) (p : Pend) : State :=
  let p := if p.struck then { p with what := p.what.spoilt, note := p.check } else p
  let s := if p.struck then setCtx s k x (raiseA (ctxOf s k x) 0x1E p.what.selector) else s
  let c := ctxOf s k x
  let s1 : State := match p.what, p.waits with
    | .scalar n _, some t => setCtx s k x (markS c n (.late t))
    | .scalar n v, none => setCtx s k x (writeS c n v)
    | .pred n v, _ => setCtx s k x (resolveGuards (writeP c n v) (p.iss + 1) n v)
    | .cap n v, _ => setCtx s k x (writeC c n v)
    | .mask n v, _ => setCtx s k x (writeE c n v)
    | .row q r v, some t => landRow s k x q r { v with mark := .late t }
    | .row q r v, none => landRow s k x q r v
    | .port g v, _ => landPort s k x g v
    | .none _, _ => s
    | .poison info, _ => setCtx s k x (raiseA c 0x19 info)
    | .spoil n, _ => setCtx s k x (markS c n .corrupt)
  let s2 := match p.note with
    | some e => setCtx s1 k x (noteEvent (ctxOf s1 k x) (s1.now + 1) p.iss e)
    | none => s1
  let s3 := if p.acq then dropLines s2 k x else s2
  match p.ring, p.what with
  | some vb, .row _ _ v => setCtx s3 k x (shiftRing (ctxOf s3 k x) vb v)
  | some vb, .port _ v => setCtx s3 k x (shiftRing (ctxOf s3 k x) vb v)
  | some vb, .none v => setCtx s3 k x (shiftRing (ctxOf s3 k x) vb v)
  | _, _ => s3

/-- A request with a stated landing point whose data has not arrived (24 R423). -/
def exactOpen (m : MemSide) (x key : Nat) : Bool :=
  m.loads.any (fun l => l.ctx == x && l.key == key && l.exact) || m.atoms.any (fun a => a.ctx == x && a.key == some key)
/-- An entry stands at its landing point while its data is held: it lands when the data is there (24 R423). -/
def heldBack (m : MemSide) (x clock : Nat) (p : Pend) : Bool :=
  decide (p.due ≤ clock) && (match p.waits with | some key => exactOpen m x key | none => false)
/-- Every entry due at the context clock lands, in issue order. -/
def landDue (s : State) (k x : Nat) : State :=
  let c := ctxOf s k x
  let m := (coreOf s k).ms
  let now : Pend → Bool := fun p => decide (p.due ≤ c.clock) && !heldBack m x c.clock p
  let due := c.regs.shadow.filter now
  let s := setCtx s k x { c with regs := { c.regs with shadow := c.regs.shadow.filter (fun p => !now p) } }
  due.foldl (fun s p => landOne s k x p) s

/-- One context cycle passes: the clock advances and what is due lands (R43, R44). -/
def tick (s : State) (k x : Nat) : State :=
  let c := ctxOf s k x
  landDue (setCtx s k x { c with clock := c.clock + 1 }) k x

/-! ## Traps (22 R376 to R384) -/

/-- The restart point (10 R215): the registers as they stand, and the clock and pc it belongs to. -/
def placeMark (c : Ctx) : Ctx :=
  { c with markRegs := c.regs, markClock := c.clock, markPc := c.pc, held := [],
           freed := c.held.foldl (fun m p => mapSet m 0 p.1 (mapGet m 0 p.1 + p.2)) c.freed }

/-- Set the interrupted state aside (R380): the handler starts with an empty shadow record, no armed level and empty rings. -/
def setAside (c : Ctx) : Ctx :=
  let c' : Ctx := { c with
    merging := none
    aside := some ⟨c.clock, c.regs.armed, c.regs.nest, c.regs.ka, c.regs.kb, c.regs.shadow, c.markRegs, c.markClock, c.regs.loopBuf⟩
    regs := { c.regs with armed := [], ka := [], kb := [], shadow := [], loopBuf := [] } }
  placeMark c'

/-- The EINFO and ESLOT of an entry: the slot it is attributed to, or none (R376). -/
def eslotOf (slot : Option Nat) : Nat := match slot with | some n => 8 + n % 8 | none => 0

/-- Trap entry (R379): state set aside, CAUSE, EPC, ESLOT and EINFO written, handler mode, the pc at REPLAYV for 0x1A and at TVEC
otherwise; the first handler group issues 6 context cycles after the group's cycle. -/
def enterTrap (c : Ctx) (tvec replayv cause epc : Nat) (slot : Option Nat) (info : Nat) : Ctx :=
  let c1 := setAside c
  { c1 with
    sp := { c1.sp with cause := cause % 64, epc := epc / 8 * 8 % 281474976710656, eslot := eslotOf slot, einfo := BitVec.ofNat 64 info, hmode := true }
    pc := if cause = 0x1A then replayv else tvec
    hold := 6
    stalled := 0 }

/-- A handler that ends (R381): the set-aside record resumes with its counts measured from the resumed group; what the ERET group
itself left pending follows it. -/
def leaveTrap (c : Ctx) (resume : Nat) : Ctx :=
  match c.aside with
  | none => { c with pc := resume, sp := { c.sp with hmode := false } }
  | some a =>
    let shift : Pend → Pend := fun p => { p with due := p.due + c.clock - a.clock }
    let mark : Regs := { a.markRegs with shadow := a.markRegs.shadow.map shift }
    { c with
      pc := resume
      sp := { c.sp with hmode := false }
      aside := none
      regs := { c.regs with armed := a.armed, nest := a.nest, ka := a.ka, kb := a.kb, shadow := a.shadow.map shift ++ c.regs.shadow, loopBuf := a.loopBuf }
      markRegs := mark
      markClock := a.markClock + c.clock - a.clock }

/-- Rollback to the restart point (R383): the shadowed registers return, with the entries pending there counted from it; the rows
popped since are back in their queues with the pointers. -/
def rollback (c : Ctx) : Ctx :=
  { c with
    regs := { c.markRegs with
      shadow := c.markRegs.shadow.map (fun p => { p with due := p.due + c.clock - c.markClock })
      ports := c.markRegs.ports.map (fun p => (p.1, { p.2 with got := [], fpos := p.2.pos })) }
    markClock := c.clock
    pc := c.markPc
    held := []
    merging := none }

/-- Halt (07 R143): the task stays bound and the context leaves the candidates. -/
def haltCtx (c : Ctx) : Ctx := { c with status := .halted, toRun := false }

end Sys2Proof.Machine
end

