-- ==== Sys2Proof/Machine/Flags.lean ====
section
/-! DEFINITION. Machine/Flags.lean: the FLUSH families as an operation reads them (04 R73), the kinds of event an element notes
(22 R391), the stochastic draws (04 R71, R72), and the parity of results. -/

namespace Sys2Proof.Machine

/-- Kinds in the order in which one element that meets several notes one: 6, 1, 2, 3, 4, 5 (R391). -/
def kindRank (k : Nat) : Nat :=
  match k with
  | 6 => 0
  | 0 => 7
  | 7 => 7
  | n => n
def worseKind (a b : Nat) : Nat := if kindRank a ≤ kindRank b then a else b

/-- The kind an instruction notes: that of its lowest element with an event (R391); 0 for none. -/
def firstKind (ks : List Nat) : Nat :=
  match ks with
  | [] => 0
  | k :: rest => if k = 0 then firstKind rest else k

/-- The event of a result noted at its landing, or none. -/
def eventOf (kind addr slot : Nat) : Option Event := if kind = 0 then none else some ⟨kind, addr, slot⟩

/-- One draw of the core's generator (R71): the next state, and its top 16 bits. -/
def drawNext (x : BitVec 64) : BitVec 64 :=
  let x := x ^^^ (x <<< 13)
  let x := x ^^^ (x >>> 7)
  x ^^^ (x <<< 17)
def drawBits (x : BitVec 64) : Nat := (x >>> 48).toNat

/-- SRSEED.SEED as a write loads it (R71). -/
def seedLoad (v : BitVec 64) : BitVec 64 := if v = 0#64 then 0x9E3779B97F4A7C15#64 else v

/-- Round the values of a conversion in element order, a draw for each inexact one under `.sr` (R71, R72). -/
def roundDraws (f : FFmt) (rm : Nat) (sat ftz : Bool) (vs : List FVal) (x : BitVec 64) : List FRes × BitVec 64 :=
  match vs with
  | [] => ([], x)
  | v :: rest =>
    let inexact := rm = 4 && inexactF f v
    let y := if inexact then drawNext x else x
    let r := roundF f rm sat ftz (if inexact then some (drawBits y) else none) v
    let t := roundDraws f rm sat ftz rest y
    (r :: t.1, t.2)

/-- The residue modulo 7 that the checks of the vector slots and the matrix engine use (22 R392). -/
def residue7 (z : Int) : Nat := (z % 7).toNat

/-! ## Trees and blocks (04 R65, R79) -/

/-- A node of a reduction: its value and the first event below it, as (lowest element, level, kind). -/
structure Node where
  v : FVal
  ev : Option (Nat × Nat × Nat)
/-- Of two events the one with the lower element, then the lower level (22 R391). -/
def firstEvent (a b : Option (Nat × Nat × Nat)) : Option (Nat × Nat × Nat) :=
  match a, b with
  | none, e => e
  | e, none => e
  | some x, some y => if x.1 < y.1 || (x.1 = y.1 && x.2.1 ≤ y.2.1) then some x else some y
/-- One level of the tree over nodes that each cover `span` elements; `at_` is the first element. -/
def treeLevel (fn : FVal → FVal → FRes) (g : FFmt) (level span at_ : Nat) (ns : List Node) : List Node :=
  match ns with
  | a :: b :: rest =>
    let r := fn a.v b.v
    let own := if r.kind = 0 then none else some (at_, level, r.kind)
    ⟨decodeF g false r.code, firstEvent (firstEvent a.ev b.ev) own⟩ :: treeLevel fn g level span (at_ + 2 * span) rest
  | l => l
def treeSum (fn : FVal → FVal → FRes) (g : FFmt) (fuel level span at_ : Nat) (ns : List Node) : Node :=
  match fuel with
  | 0 => ns.headD ⟨.num false 0 0, none⟩
  | fuel + 1 =>
    match ns with
    | [n] => n
    | _ => treeSum fn g fuel (level + 1) (2 * span) at_ (treeLevel fn g level span at_ ns)

/-- The event a tree notes, or k. -/
def evKind (e : Option (Nat × Nat × Nat)) (k : Nat) : Nat := match e with | some x => x.2.2 | none => k

/-- An element divided by its block's scale; an infinity takes the largest magnitude of the source format (R65). -/
def unscaled (sc : Nat) (big v : FVal) : FVal :=
  match v, big with
  | .num s m e, _ => .num s m (e - ((sc : Int) - 127))
  | .inf s, .num _ m e => .num s m (e - ((sc : Int) - 127))
  | .inf _, w => w
  | w, _ => w
/-- One block of a conversion to an MX format (R65): the scale byte and its elements. Under .sr an element whose scaled value is
inexact takes a draw, an infinite one, read as the largest finite value, among them (log 89). -/
def packBlock (flush st dt rm : Nat) (vs : List FVal) (x : BitVec 64) : Nat × List FRes × BitVec 64 :=
  let el := mxElem dt
  let big := largestV (fmtOf st)
  let sc := blockScale el.2.2 big vs
  let dtf := match dt with | 18 => 14 | 19 => 15 | _ => 16
  if sc = 255 || vs.all FVal.isZero then (sc, vs.map (fun _ => ⟨0, 0⟩), x)
  else
    let r := vs.foldl (fun (acc : List FRes × BitVec 64) v =>
      let scaled : FVal := unscaled sc big v
      let y := if rm = 4 && inexactF el.1 scaled then drawNext acc.2 else acc.2
      (acc.1 ++ [blockElem el.1 rm (ftzOf flush dtf) (if rm = 4 && inexactF el.1 scaled then some (drawBits y) else none) big sc v], y))
      (([] : List FRes), x)
    (sc, r.1, r.2)

end Sys2Proof.Machine
end

