-- ==== Sys2Proof/Machine/Regs.lean ====
section
/-! DEFINITION. Machine/Regs.lean: the register object of a die (15 R310, R311, 24 R426, 25 R441, 27 R454): reset values, the
bits a store writes, and reads. A register is keyed by its byte offset, as 64 bits; the slot patterns hold four entries each. -/

namespace Sys2Proof.Machine

/-- One 8-byte word of the reset slot pattern (R297): entry 256s + 8k + m has TXCH = RXCH = 8s + m and both enables. -/
def patternReset (off : Nat) : Nat :=
  let e := (off - 0x1000) % 0x1000 / 2
  (List.range 4).foldl (fun n i =>
    let c := 8 * ((e + i) / 256) + (e + i) % 8
    n + (c + 64 + 256 * c + 16384) * 65536 ^ i) 0

/-- The reset value of a register; those the spec calls calibrated, measured or unstated read 0 (log 2). -/
def regReset (off : Nat) : Nat :=
  if 0x1000 ≤ off && off < 0x3000 then patternReset off
  else if off = 0x0710 then 1 + 1280 * 2 + 8 * 16384
  else if off = 0x0740 then 256 + 1024 * 4096 + 4 * 16777216
  else if off = 0x0758 then 64
  else if off = 0x3010 then 10
  else if off = 0x3020 then 1024
  else if 0x3300 ≤ off && off < 0x3500 then 0xFFFFFFFF
  else if off = 0x3810 then 4
  else 0

/-- The stored value of a register. -/
def regRaw (d : Die) (off : Nat) : Nat := mapGet d.regs (regReset off) off
def setReg (d : Die) (off v : Nat) : Die := { d with regs := mapSet d.regs (regReset off) off v }
def effRaw (d : Die) (off : Nat) : Nat := mapGet d.eff (regReset off) off
def setEff (d : Die) (off v : Nat) : Die := { d with eff := mapSet d.eff (regReset off) off v }

/-- Registers only Garod writes (R310, R311, R426, R441); every other write is ignored. -/
def garodOnly (off : Nat) : Bool :=
  (0x0600 ≤ off && off < 0x0680) || off = 0x0708 || off = 0x0710 || off = 0x0718 || (0x1000 ≤ off && off < 0x3000)
    || off = 0x3020 || off = 0x3810 || off = 0x0740 || off = 0x0758

/-- The bits a write changes. -/
def regMask (off : Nat) : Nat :=
  if off < 0x0200 then 0xFFF
  else if off < 0x0400 then 0
  else if off < 0x0600 then 0x3FFF
  else if off < 0x0680 then 0x7F
  else if off = 0x0708 then 0xFFFFFFFF00000002
  else if off = 0x0710 then 0x3FFFFF
  else if off = 0x0718 then 0xFFFF
  else if off = 0x0740 then 0xFFFFFFFF
  else if off = 0x0758 then 0xFF
  else if 0x1000 ≤ off && off < 0x3000 then 0x7F7F7F7F7F7F7F7F
  else if off = 0x3000 then 0xFFFFFFFFFF
  else if off = 0x3008 then 0xFFFF
  else if off = 0x3010 then 0x11F
  else if off = 0x3018 then 0xFFFFFFFF
  else if off = 0x3020 then 0xFFFF
  else if 0x3100 ≤ off && off < 0x3300 then 0xFFFFFFFF
  else if 0x3300 ≤ off && off < 0x3500 then 0xF3FFFFFFFF
  else if 0x3500 ≤ off && off < 0x3700 then 0x3FFF
  else if off = 0x3800 then 0x1FFFFFFFFFF
  else if off = 0x3808 then 0xFFFFFFFF
  else if off = 0x3810 then 0x11F
  else if 0x3900 ≤ off && off < 0x3B80 then 0x1FFFFF
  else 0

/-- Bitwise AND and AND NOT of numbers. -/
def maskTo (v m : Nat) : Nat := v &&& m
def without (v m : Nat) : Nat := v - (v &&& m)

/-- Values that a write does not store as written (R211, R283, R310, R426, R441). -/
def regClamp (off v : Nat) : Nat :=
  if off = 0x3010 then (v - v % 32) + (if v % 32 < 6 then 6 else if 16 < v % 32 then 16 else v % 32)
  else if off = 0x3020 then (if v % 65536 = 0 then v + 1 else v)
  else if off = 0x3810 then (v - v % 32) + (if 23 < v % 32 then 23 else v % 32)
  else if off = 0x0710 then (if field v 14 8 = 0 then v + 16384 else v)
  else if off = 0x0740 then (if field v 24 8 = 0 then v + 16777216 else v)
  else if off = 0x0758 then (if v % 256 < 32 then v - v % 256 + 32 else v)
  else v

/-- A write to the stored bits of a register: its writable bits change; OPTEVT.KIND clears where a 1 is written. -/
def regPut (d : Die) (off v : Nat) : Die :=
  if off = 0x0748 then setReg d off (without (regRaw d off) (maskTo v 0xF))
  else setReg d off (without (regRaw d off) (regMask off) + maskTo (regClamp off (maskTo v (regMask off))) (regMask off))

/-! ## A set and a clear in one cycle (00 R8) -/

/-- What hardware has set in a register in this cycle. -/
def hwOf (s : State) (u r : Nat) : Option HwSet := s.hwSets.find? (fun h => h.unit == u && h.reg == r)
/-- Hardware changes a field that reads as `cur`: its value at the cycle's beginning is kept, and what was set is gathered. -/
def noteHw (s : State) (u r cur : Nat) (f : Nat → Nat) : State :=
  match hwOf s u r with
  | some h => { s with hwSets := ⟨u, r, h.start, f h.set_⟩ :: s.hwSets.filter (fun e => !(e.unit == u && e.reg == r)) }
  | none => { s with hwSets := ⟨u, r, cur, f 0⟩ :: s.hwSets }
/-- What a read in this cycle returns: the value before hardware's change (log 86). -/
def hwStart (s : State) (u r cur : Nat) : Nat := match hwOf s u r with | some h => h.start | none => cur
/-- What a clear in this cycle leaves: what hardware set in it; the set wins. -/
def hwLeft (s : State) (u r : Nat) : Nat := match hwOf s u r with | some h => h.set_ | none => 0
/-- A register of the register object that is cleared where 1 is written: a bit hardware set in this cycle stays. -/
def clearingBits (s : State) (u r v : Nat) : Nat := without v (maskTo v (hwLeft s u r))
/-- Registers no special register or offset names: DUPCNT, SCLOGC and SCLOG0 of a die. -/
def dupKey : Nat := 0x10015
def causeCountKey : Nat := 0x10FC1
def causeKey : Nat := 0x10FC2

/-- What a read of a register returns (R310): ROTIDX from the rotation clock, FABCFG.RLEN 0 while relay is off, VCSEC once for
the module. -/
def regRead (s : State) (d off : Nat) : Nat :=
  if off = 0x0700 then
    let c := (s.now - s.rotAt) % 5120
    s.rot % 4294967296 + 4294967296 * (c / 640) + 34359738368 * (c % 640)
  else if off = 0x0710 then
    (if field s.ga.modFeatures 2 1 = 1 then regRaw (dieOf s d) off else without (regRaw (dieOf s d) off) 1)
  else if off = 0x0718 then s.ga.vcsec
  else hwStart s d off (regRaw (dieOf s d) off)

/-- A read-to-clear register (R426, R441) holds after its read what hardware set in that cycle, else 0 (00 R8). -/
def regReadClears (off : Nat) : Bool :=
  off = 0x3028 || off = 0x3030 || off = 0x3038 || off = 0x3040 || off = 0x0750
def regAfterRead (s : State) (d off : Nat) : State :=
  if regReadClears off then setDie s d (setReg (dieOf s d) off (hwLeft s d off)) else s

/-- PREEMPT_GAP and FLOOR (R283), HOLD_LIMIT in cycles (R426). -/
def pgap (d : Die) : Nat := field (regRaw d 0x3810) 0 5
def floorOn (d : Die) : Bool := field (regRaw d 0x3810) 8 1 = 1
def holdLimit (d : Die) : Nat := 1024 * field (regRaw d 0x3020) 0 16
/-- The span in effect of sync line i (R39): 3 is read as die. -/
def spanOf (d : Die) (i : Nat) : Nat := let v := field (effRaw d 0x3808) (2 * i) 2; if v = 3 then 1 else v
/-- A stack of the module is in self-refresh (R422): HOLDCFG.HELD0 or HELD1 of its die. -/
def stackHeld (s : State) (st : Nat) : Bool := field (regRaw (dieOf s (st / 2)) 0x3020) (16 + st % 2) 1 = 1

end Sys2Proof.Machine
end

