-- ==== Sys2Proof/Machine/Mem.lean ====
section
/-! DEFINITION. Machine/Mem.lean: device memory as contexts reach it: the object table and its walk (10 R197 to R199, 24 R414,
R415), the overlays of worlds (17 R336 to R339), the line cache (10 R204, 11 R218), calendar slots (10 R207, R208), and the
way of a store from its gate to the stack (10 R214, 11 R220). -/

namespace Sys2Proof.Machine

/-! ## Places -/

/-- The end of device memory: 1 TiB (10 R198). -/
def deviceBytes : Nat := 1099511627776
/-- Stack and die of a device address (10 R198, 01 R14). -/
def stackOf (p : Nat) : Nat := p / 68719476736
def dieOfAddr (p : Nat) : Nat := p / 137438953472
/-- Bridges between two dies (01 R15). -/
def hops (a b : Nat) : Nat := Nat.min ((a + 8 - b) % 8) ((b + 8 - a) % 8)
/-- Two dies are of one partition (14 R289). -/
def sameGroup (s : State) (a b : Nat) : Bool := a / (8 / s.ga.parts) == b / (8 / s.ga.parts)
/-- The dies of the partition of a die. -/
def groupDies (s : State) (d : Nat) : List Nat := (List.range 8).filter (fun e => sameGroup s d e)
/-- A job's entry, and the job of a context's task (02 R27); job 0 where no task is bound. -/
def jobOf (s : State) (j : Nat) : Job := mapGet s.jobs Job.init j
def taskOf (s : State) (d r : Nat) : TaskRec := mapGet (dieOf s d).tasks.recs TaskRec.init r
def jobIdOf (s : State) (k x : Nat) : Nat :=
  match (ctxOf s k x).task with
  | some (d, r) => (taskOf s d r).job
  | none => 0
/-- The job whose record names the object table a context uses: its own, and once that has ended, the last that ended on the
partition (10 R197, log 75). -/
def ctxJob (s : State) (k x : Nat) : Job :=
  if s.jobs.any (fun p => p.1 == jobIdOf s k x) then jobOf s (jobIdOf s k x) else mapGet s.ga.tables Job.init (coreOf s k).part
/-- A feature of the job (00 R12, 18 R352). -/
def feature (s : State) (k x n : Nat) : Bool := field (jobOf s (jobIdOf s k x)).features n 1 = 1

/-- Bytes, granule tags and poison of committed memory. -/
def tagAt (s : State) (p : Nat) : Bool := mapGet s.tags false (p / 16)
def badAt (s : State) (p : Nat) : Bool := mapGet s.poison false (p / 64)
/-- Any 64-byte granule of a span is poisoned (24 R420). -/
def badSpan (s : State) (p n : Nat) : Bool :=
  (List.range ((p % 64 + n + 63) / 64)).any (fun i => badAt s (p / 64 * 64 + 64 * i))

/-- Split a span into pieces that cross no multiple of `m`. -/
def pieces (m p n : Nat) (fuel : Nat) : List (Nat × Nat) :=
  match fuel with
  | 0 => []
  | fuel + 1 =>
    if n = 0 then []
    else
      let k := Nat.min n (m - p % m)
      (p, k) :: pieces m (p + k) (n - k) fuel

/-! ## The object table (R197 to R199, R414, R415) -/

/-- Where a local access's block lies. -/
inductive Walk where
  | hbm (phys leaf : Nat)
  | tier (block leaf : Nat)
  | peer (mod leaf : Nat)
  | absent (outside : Bool)
  deriving DecidableEq, Repr

/-- The object entry as (DIRBLK, number of blocks), or none where VALID is 0, the index is past NOBJ, or the directory lies
outside the partition (R414, R415). -/
def objEntry (s : State) (job : Job) (d ix : Nat) : Option (Nat × Nat) :=
  let a := job.otbase + 16 * ix
  let w := leVal (getBytes s.mem a 8)
  let dir := field w 0 24
  if job.nobj ≤ ix || field w 48 1 = 0 || !sameGroup s d (dir / 2097152) then none
  else some (dir, if field w 24 24 = 0 then 16777216 else field w 24 24)

/-- A valid entry of the object table whose directory lies outside the partition (R415). -/
def dirOutside (s : State) (job : Job) (d ix : Nat) : Bool :=
  let w := leVal (getBytes s.mem (job.otbase + 16 * ix) 8)
  decide (ix < job.nobj) && field w 48 1 = 1 && !sameGroup s d (field w 0 24 / 2097152)
/-- The walk of offset `o` of an object whose directory block is `dir`. -/
def walk (s : State) (d dir o : Nat) : Walk :=
  let x := o / 65536
  let e := leVal (getBytes s.mem (dir * 65536 + 8 * (x / 8192)) 8)
  if field e 24 1 = 0 then .absent false
  else if !sameGroup s d (field e 0 24 / 2097152) then .absent true
  else
    let la := field e 0 24 * 65536 + 8 * (x % 8192)
    let l := leVal (getBytes s.mem la 8)
    match field l 28 2 with
    | 0 => if sameGroup s d (field l 0 24 / 2097152) then .hbm (field l 0 24 * 65536 + o % 65536) la else .absent true
    | 1 => .tier (field l 0 24) la
    | 2 => .peer (field l 0 6) la
    | _ => .absent false

/-- Every granule a write touches gets the tag `tag` (10 R195: false but for STX). -/
def tagWrite (m : SMap Bool) (phys n : Nat) (tag : Bool) : SMap Bool :=
  (List.range ((phys % 16 + n + 15) / 16)).foldl (fun m i => mapSet m false (phys / 16 + i) tag) m
/-- A unit of the module writes a word of its tables: like every other write it clears the tags of the granules it touches (R195). -/
def putUnit (s : State) (a : Nat) (bs : List Byte) : State :=
  { s with mem := setBytes s.mem a bs, tags := tagWrite s.tags a bs.length false }

/-- RHEAT rises for a read and WHEAT for a write, saturating at 3 (R201). -/
def heat (s : State) (leaf : Nat) (write : Bool) : State :=
  let sh := if write then 6 else 4
  let b := getByte s.mem (leaf + 3)
  let hi := getByte s.mem (leaf + 4)
  if write then
    let h := hi.toNat % 4
    putUnit s (leaf + 4) [BitVec.ofNat 8 (hi.toNat - h + Nat.min 3 (h + 1))]
  else
    let h := field b.toNat (sh + 2) 2
    putUnit s (leaf + 3) [BitVec.ofNat 8 (b.toNat - 64 * h + 64 * Nat.min 3 (h + 1))]
/-- A walk raises its leaf's heat where the update is performed, 40 cycles on, when the entry is resolved (R201, 24 R415; log 56). -/
def raiseHeat (s : State) (leaf : Nat) (write : Bool) : State := { s with raises := s.raises ++ [(s.now + 40, leaf, write)] }
/-- Bytes of the span were stored in this cycle: such a store wins over the raises and lowerings of the cycle (R201). -/
def storedNow (s : State) (a n : Nat) : Bool := s.stored.any (fun p => decide (p.1 < a + n) && decide (a < p.1 + p.2))
/-- The raises of this cycle are performed. -/
def applyRaises (s : State) : State :=
  (s.raises.filter (fun r => r.1 ≤ s.now)).foldl (fun s r => if storedNow s r.2.1 8 then s else heat s r.2.1 r.2.2)
    { s with raises := s.raises.filter (fun r => s.now < r.1) }

/-! ## Worlds (R336 to R339) -/

def worldOf (s : State) (w : Nat) : World := mapGet s.worlds.ents World.init w
/-- The chain from a world to its last ancestor above the base (depth at most 4, R330). -/
def worldChain (s : State) (w fuel : Nat) : List Nat :=
  match fuel with
  | 0 => []
  | fuel + 1 => if w = 0 then [] else w :: worldChain s (worldOf s w).parent fuel
def overlayKey (stack n : Nat) : Nat := stack * 33554432 + n
def overlayOf (s : State) (stack n : Nat) : Overlay := mapGet s.worlds.overlays Overlay.init (overlayKey stack n)
/-- WOV of a leaf entry (R199), and its write, which leaves the other fields. -/
def wovOf (s : State) (leaf : Nat) : Nat := field (leVal (getBytes s.mem leaf 8)) 35 25
def setWov (s : State) (leaf n : Nat) : State :=
  let w := leVal (getBytes s.mem leaf 8)
  putUnit s leaf (leBytes 8 (w - 34359738368 * field w 35 25 + 34359738368 * n))
/-- The record of a world for a line on a chain that begins at record n. -/
def findOverlay (s : State) (stack n w line fuel : Nat) : Option Nat :=
  match fuel with
  | 0 => none
  | fuel + 1 =>
    if n = 0 then none
    else
      let r := overlayOf s stack n
      if r.tag = w && r.line = line then some n else findOverlay s stack r.next w line fuel
/-- The record of the nearest world of the chain that holds the line (R337, Read). -/
def nearestOverlay (s : State) (w phys leaf : Nat) : Option Nat :=
  let st := stackOf phys
  (worldChain s w 5).findSome? (fun v =>
    findOverlay s st (wovOf s leaf) v (phys % 65536 / 256) (s.worlds.overlays.length + 1))
/-- A line as world w reads it: 256 bytes, granule tags and poison. -/
def lineIn (s : State) (w phys leaf : Nat) : List Byte × Nat × Nat :=
  let base := phys / 256 * 256
  match nearestOverlay s w phys leaf with
  | some n => let r := overlayOf s (stackOf phys) n; (r.data, r.tags, r.bad)
  | none =>
    (getBytes s.mem base 256,
      (List.range 16).foldl (fun m i => if tagAt s (base + 16 * i) then m + 2 ^ i else m) 0,
      (List.range 4).foldl (fun m i => if badAt s (base + 64 * i) then m + 2 ^ i else m) 0)
/-- n bytes within one line, as world w reads them. -/
def readIn (s : State) (w phys leaf n : Nat) : List Byte :=
  if w = 0 then getBytes s.mem phys n else ((lineIn s w phys leaf).1.drop (phys % 256)).take n
def badIn (s : State) (w phys leaf n : Nat) : Bool :=
  if w = 0 then badSpan s phys n
  else
    let b := (lineIn s w phys leaf).2.2
    (List.range 4).any (fun i => field b i 1 = 1 && decide (phys % 256 < 64 * i + 64) && decide (64 * i < phys % 256 + n))
def tagIn (s : State) (w phys leaf : Nat) : Bool :=
  if w = 0 then tagAt s phys else field (lineIn s w phys leaf).2.1 (phys % 256 / 16) 1 = 1

/-- Records in a stack's share of the basting store (R336). -/
def shareOf (s : State) (k x : Nat) : Nat :=
  let b := (jobOf s (jobIdOf s k x)).baste
  (if b = 0 then 512 else b) * 1048576 / 320
/-- The lowest record number of a stack from n upwards that is in no use (log 26). -/
def freeRecord (s : State) (stack n fuel : Nat) : Nat :=
  match fuel with
  | 0 => n
  | fuel + 1 => if overlayOf s stack n = Overlay.init then n else freeRecord s stack (n + 1) fuel
/-- Records in use on a stack. -/
def usedRecords (s : State) (stack : Nat) : Nat :=
  (s.worlds.overlays.filter (fun p => p.1 / 33554432 == stack)).length
/-- The record of world w for a line, made by a first copy where there is none (R337, First write). -/
def claimOverlay (s : State) (w phys leaf : Nat) : State × Nat :=
  let st := stackOf phys
  match findOverlay s st (wovOf s leaf) w (phys % 65536 / 256) (s.worlds.overlays.length + 1) with
  | some n => (s, n)
  | none =>
    let n := freeRecord s st 1 (s.worlds.overlays.length + 1)
    let l := lineIn s w phys leaf
    let r : Overlay := { data := l.1, tags := l.2.1, bad := l.2.2, mask := 0#256, tag := w, line := phys % 65536 / 256,
                         next := wovOf s leaf, leaf := leaf }
    let s1 := { s with worlds := { s.worlds with overlays := mapSet s.worlds.overlays Overlay.init (overlayKey st n) r } }
    (setWov s1 leaf n, n)

/-! ## Writes at the stack -/

/-- A mask of n ones from bit a. -/
def ones (a n : Nat) : Nat := (2 ^ n - 1) * 2 ^ a
def setBits (v m : Nat) (on : Bool) : Nat := if on then v ||| m else v - (v &&& m)

/-- The first write after a freeze to a span of a frozen block keeps the span's old bytes (18 R357). A frozen block is listed
as (pbn, object, extent, leaf). -/
def preserve (s : State) (phys : Nat) : State :=
  if s.ck.frozen.any (fun b => b.1 == phys / 65536) && mapGet s.ck.preserved [] (phys / 256) == [] then
    { s with ck := { s.ck with preserved := mapSet s.ck.preserved [] (phys / 256) (getBytes s.mem (phys / 256 * 256) 256) } }
  else s

/-- Mark the poison of a write: covered granules take the write's poison, partly written ones gain it or keep theirs (22 R385,
R386, 24 R420). -/
def poisonWrite (m : SMap Bool) (phys n : Nat) (bad : Bool) : SMap Bool :=
  (List.range ((phys % 64 + n + 63) / 64)).foldl (fun m i =>
    let g := phys / 64 + i
    if bad then mapSet m false g true
    else if phys ≤ 64 * g && 64 * g + 64 ≤ phys + n then mapSet m false g false
    else m) m
/-- A block holds a job's leaf page: a valid entry of a directory that a valid entry of the job's object table names (10 R197, R198).
Memory bytes no one has written are 0, so such entries have a listed byte with their VALID bit. -/
def isDirectory (s : State) (j : Job) (blk n : Nat) : Bool :=
  s.mem.any (fun c => c.1 % 16 == j.otbase % 16 + 6 && decide (j.otbase ≤ c.1) && decide (c.1 < j.otbase + 16 * j.nobj) && c.2.toNat % 2 == 1
    && (let w := leVal (getBytes s.mem (c.1 - 6) 6)
        field w 0 24 == blk && decide (8192 * n < (if field w 24 24 = 0 then 16777216 else field w 24 24))))
def isLeafPage (s : State) (blk : Nat) : Bool :=
  s.mem.any (fun c => c.1 % 8 == 3 && c.2.toNat % 2 == 1 && leVal (getBytes s.mem (c.1 - 3) 3) == blk
    && (s.jobs ++ s.ga.tables).any (fun j => isDirectory s j.2 (c.1 / 65536) (c.1 % 65536 / 8)))
/-- The read-only bits of a byte of a leaf entry: [27:24] and WOV and the reserved bits above it, [63:35] (R199). -/
def leafFixed (a : Nat) : Nat := match a % 8 with | 3 => 15 | 4 => 248 | 5 => 255 | 6 => 255 | 7 => 255 | _ => 0
def keepFixed (a : Nat) (old new : Byte) : Byte :=
  let m := BitVec.ofNat 8 (leafFixed a)
  (new &&& ~~~m) ||| (old &&& m)
/-- The bytes of a write with a leaf entry's read-only bits left as they stand: the controller merges the stored word with the current
WOV (10 R199). -/
def mergeWov (s : State) (phys : Nat) (bs : List Byte) : List Byte :=
  let new : List Byte := (List.range bs.length).map (fun i => keepFixed (phys + i) (getByte s.mem (phys + i)) (bs.getD i 0#8))
  if new = bs then bs
  else if isLeafPage s (phys / 65536) then new
  else (List.range bs.length).map (fun i =>
    if s.worlds.overlays.any (fun p => p.2.leaf == (phys + i) / 8 * 8) then new.getD i 0#8 else bs.getD i 0#8)

/-- A committed write of bytes within one line: preserved first (18 R357), tags and poison follow, and the leaf is DIRTY. -/
def writeBase (s : State) (phys leaf : Nat) (bs : List Byte) (tag bad : Bool) : State :=
  let s := preserve s phys
  let s := { s with
    mem := setBytes s.mem phys (mergeWov s phys bs)
    tags := tagWrite s.tags phys bs.length tag
    poison := poisonWrite s.poison phys bs.length bad
    stored := s.stored ++ [(phys, bs.length)] }
  if leaf = 0 then s else putUnit s (leaf + 4) [getByte s.mem (leaf + 4) ||| 4#8]

/-- A write of world w ≠ 0: its record takes the bytes and MASK (R337). -/
def writeOverlay (s : State) (w phys leaf : Nat) (bs : List Byte) (tag bad : Bool) : State :=
  let c := claimOverlay s w phys leaf
  let key := overlayKey (stackOf phys) c.2
  let r := mapGet c.1.worlds.overlays Overlay.init key
  let o := phys % 256
  let n := bs.length
  let part := ones (o / 64) ((o % 64 + n + 63) / 64)
  let whole := (List.range 4).foldl (fun m i => if o ≤ 64 * i && 64 * i + 64 ≤ o + n then m + 2 ^ i else m) 0
  let r' : Overlay := { r with
    data := r.data.take o ++ bs ++ r.data.drop (o + n)
    tags := setBits r.tags (ones (o / 16) ((o % 16 + n + 15) / 16)) tag
    bad := if bad then setBits r.bad part true else setBits r.bad whole false
    mask := r.mask ||| BitVec.ofNat 256 (ones o n) }
  { c.1 with worlds := { c.1.worlds with overlays := mapSet c.1.worlds.overlays Overlay.init key r' } }

/-- A write within one line by an agent of world w; a discarded world's write has no effect (R343). -/
def writeIn (s : State) (w phys leaf : Nat) (bs : List Byte) (tag bad : Bool) : State :=
  if w = 0 then writeBase s phys leaf bs tag bad
  else if (worldOf s w).state = .discarded || (worldOf s w).state = .free then s
  else writeOverlay s w phys leaf bs tag bad

/-! ## The line cache (R204, R218, R339) -/

/-- The address by which a context of world w knows a byte in its line cache and among its own stores: in a world two leaf entries that name
one block are versioned apart (17 R336). -/
def viewAddr (w leaf phys : Nat) : Nat := if w = 0 then phys else phys + 1099511627776 * leaf
def lineKey (phys w : Nat) : Nat := phys / 128 * 64 + w
def cached (m : MemSide) (phys w : Nat) : Bool := mapGet m.lines Line.init (lineKey phys w) ≠ Line.init
/-- Ways in use of the set of a line. -/
def setLines (m : MemSide) (phys : Nat) : List Nat :=
  (m.lines.filter (fun p => p.1 / 64 % 128 == phys / 128 % 128)).map (·.1)
/-- Fill a line; a full set loses the line the free value names (log 6). -/
def fillLine (s : State) (k phys w : Nat) (l : Line) : State :=
  let c := coreOf s k
  let ways := setLines c.ms phys
  let s1 : State × SMap Line :=
    if ways.length < 16 || cached c.ms phys w then (s, c.ms.lines)
    else ({ s with free := s.free + 1 }, mapSet c.ms.lines Line.init (ways.getD (Config.lineVictim s.free % ways.length) 0) Line.init)
  let c := coreOf s1.1 k
  setCore s1.1 k { c with ms := { c.ms with lines := mapSet s1.2 Line.init (lineKey phys w) l } }
/-- A store of the core updates a matching line of its own world (R204). -/
def updateLine (s : State) (k w phys : Nat) (bs : List Byte) (tag : Bool) : State :=
  (pieces 128 phys bs.length 4).foldl (fun s q =>
    let c := coreOf s k
    if cached c.ms q.1 w then
      let l := mapGet c.ms.lines Line.init (lineKey q.1 w)
      let o := q.1 % 128
      let part := (bs.drop (q.1 - phys)).take q.2
      let l' : Line := ⟨l.bytes.take o ++ part ++ l.bytes.drop (o + q.2), setBits l.tags (ones (o / 16) ((o % 16 + q.2 + 15) / 16)) tag⟩
      setCore s k { c with ms := { c.ms with lines := mapSet c.ms.lines Line.init (lineKey q.1 w) l' } }
    else s) s

/-! ## Calendar slots (R207, R208) -/

/-- The first owned cycle from c upwards that no request has bound. -/
def findSlot (own : BitVec 64) (bound : List Nat) (c fuel : Nat) : Nat :=
  match fuel with
  | 0 => c
  | fuel + 1 => if own.getLsbD (c % 64) && !bound.contains c then c else findSlot own bound (c + 1) fuel
/-- Bind one slot; bound cycles that have passed are dropped. -/
def bindSlot (s : State) (k : Nat) : State × Nat :=
  let c := coreOf s k
  let live := c.ms.bound.filter (fun b => s.now ≤ b)
  let t := findSlot c.calown live s.now (64 * (live.length + 2))
  (setCore s k { c with ms := { c.ms with bound := live ++ [t] } }, t)
/-- Slots for the pieces of a request: one, or two successive ones where its bytes cross a 256-byte boundary; the answer is the
later cycle. -/
def bindSpan (s : State) (k : Nat) (ps : List (Nat × Nat × Nat)) : State × Nat :=
  let a := bindSlot s k
  match ps with
  | [p] => if p.1 / 256 = (p.1 + p.2.2 - 1) / 256 then a else bindSlot a.1 k
  | _ => bindSlot a.1 k
/-- BRG slots of a die in a cycle of its calendar (R207; log 18). -/
def brgSlots (d c : Nat) : Nat := ((List.range 32).filter (fun i => Config.brgCycle d i % 64 == c % 64)).length
/-- The first cycle from c upwards with a BRG slot that no far access has bound (R212). -/
def findBrg (d : Nat) (bound : List Nat) (c fuel : Nat) : Nat :=
  match fuel with
  | 0 => c
  | fuel + 1 => if bound.count c < brgSlots d c then c else findBrg d bound (c + 1) fuel
/-- A far access that arrives at cycle c binds a BRG slot of the die. -/
def bindBrg (s : State) (d c : Nat) : State × Nat :=
  let die := dieOf s d
  let live := die.brg.filter (fun b => s.now ≤ b)
  let t := findBrg d live c (64 * (live.length + 2))
  (setDie s d { die with brg := live ++ [t] }, t)
/-- The slots of a far access's pieces in a die: two where its bytes cross a 256-byte boundary, since a slot moves one aligned span
(R207, R208); the answer is the later cycle. -/
def bindBrgSpan (s : State) (d c : Nat) (ps : List (Nat × Nat × Nat)) : State × Nat :=
  let a := bindBrg s d c
  match ps with
  | [p] => if p.1 / 256 = (p.1 + p.2.2 - 1) / 256 then a else bindBrg a.1 d c
  | _ => bindBrg a.1 d c

/-! ## Stores on their way (R214, R220) -/

/-- The linear pieces of a span given in the swizzled layout (10 R203). -/
def swizzlePieces (a n : Nat) : List (Nat × Nat) := (pieces 64 a n (n + 1)).map (fun p => (swizzle p.1, p.2))

/-- Bytes a store gives for an address range of device memory: those of `st` laid over `bs`. -/
def overlayBytes (bs : List Byte) (at_ : Nat) (wa : Nat) (w : List Byte) : List Byte :=
  (List.range bs.length).map (fun i =>
    if wa ≤ at_ + i && at_ + i < wa + w.length then w.getD (at_ + i - wa) 0#8 else bs.getD i 0#8)
/-- The pieces of a store with their bytes, at the addresses its world knows them by. -/
def storeParts (st : Store) : List (Nat × List Byte) :=
  match st.tgt with
  | .mem w ps => (ps.foldl (fun (acc : List (Nat × List Byte) × List Byte) p => (acc.1 ++ [(viewAddr w p.2.1 p.1, acc.2.take p.2.2)], acc.2.drop p.2.2)) ([], st.data)).1
  | .buf _ a => [(a, st.data)]
  | .swz _ a => (swizzlePieces a st.data.length).foldl (fun (acc : List (Nat × List Byte)) p =>
      acc ++ [(p.1, (st.data.drop (acc.foldl (fun n q => n + q.2.length) 0)).take p.2)]) []
  | _ => []
def isMem (st : Store) : Bool := match st.tgt with | .mem _ _ => true | _ => false
def isBuf (code : Nat) (st : Store) : Bool := match st.tgt with | .buf c _ => c == code | .swz c _ => c == code | _ => false
/-- The stores of a context that are not yet performed, oldest first. -/
def ownStores (s : State) (k x : Nat) : List Store :=
  let m := (coreOf s k).ms
  (m.released ++ m.gated).filter (fun t => t.ctx == x)
/-- A context's own unperformed stores laid over the bytes it reads (R214). -/
def layStores (own : List Store) (phys : Nat) (bs : List Byte) : List Byte :=
  own.foldl (fun bs st => (storeParts st).foldl (fun bs p => overlayBytes bs phys p.1 p.2) bs) bs
def forwardMem (s : State) (k x phys : Nat) (bs : List Byte) : List Byte := layStores ((ownStores s k x).filter isMem) phys bs
def forwardBuf (s : State) (k x code a : Nat) (bs : List Byte) : List Byte :=
  ((ownStores s k x).filter (isBuf code)).foldl (fun bs st => (storeParts st).foldl (fun bs p => overlayBytes bs a p.1 p.2) bs) bs
/-- The poison a context reads for 64-byte granule g: a poisoned store of its own sets it, a clean one of all 64 bytes clears it (22 R385,
24 R420). -/
def layMark (own : List Store) (g : Nat) (b : Bool) : Bool :=
  own.foldl (fun b st =>
    if !(storeParts st).any (fun p => decide (p.1 < 64 * g + 64) && decide (64 * g < p.1 + p.2.length)) then b
    else if st.bad then true
    else b && !(storeParts st).any (fun p => decide (p.1 ≤ 64 * g) && decide (64 * g + 64 ≤ p.1 + p.2.length))) b
/-- The granules that n bytes at a touch. -/
def granules (a n : Nat) : List Nat := (List.range ((a % 64 + n + 63) / 64)).map (fun i => a / 64 + i)
/-- The tag a context reads for a granule: that of its last own store to it, else memory's. -/
def layTags (own : List Store) (phys : Nat) (t : Bool) : Bool :=
  own.foldl (fun t st =>
    if (storeParts st).any (fun p => decide (p.1 < phys + 16) && decide (phys < p.1 + p.2.length)) then st.tag else t) t
def forwardTag (s : State) (k x phys : Nat) (t : Bool) : Bool := layTags ((ownStores s k x).filter isMem) phys t

/-- Typed-buffer bytes in the linear layout as performed. -/
def bufBytes (s : State) (k code a n : Nat) : List Byte := getBytes (coreOf s k).bufs.bytes (bufKey code a) n
def bufBad (s : State) (k code a n : Nat) : Bool :=
  (List.range ((a % 64 + n + 63) / 64)).any (fun i => mapGet (coreOf s k).bufs.bad false ((bufKey code a) / 64 + i))
/-- The poison of typed-buffer bytes as the context sees them, its own stores laid over. -/
def forwardBad (s : State) (k x code a n : Nat) : Bool :=
  (granules a n).any (fun g => layMark ((ownStores s k x).filter (isBuf code)) g (mapGet (coreOf s k).bufs.bad false (bufKey code 0 / 64 + g)))
/-- K, P and Q of R168 by FMT, dense or in the 2:4 form (09 R168). -/
def mxK (fmt : Nat) (sparse : Bool) : Nat :=
  match fmt with
  | 2 => if sparse then 256 else 128
  | 3 => if sparse then 256 else 128
  | 12 => 1024
  | 10 => 256
  | 11 => 256
  | _ => if sparse then 512 else 256
def mxP (fmt : Nat) (sparse : Bool) : Nat :=
  match fmt with
  | 10 => 320
  | 11 => 320
  | 12 => 576
  | _ => if sparse then 512 else 256
def mxQ (fmt : Nat) (sparse : Bool) : Nat :=
  match fmt with
  | 10 => 264
  | 11 => 264
  | 12 => 544
  | 2 => if sparse then 288 else 256
  | 3 => if sparse then 288 else 256
  | _ => if sparse then 320 else 256
/-- A performed write to W strikes the weight stages it overlaps (09 R172, R185). -/
def strikeStages (m : Mx) (code a n : Nat) : Mx :=
  if code ≠ 0 then m
  else { m with stages := m.stages.map (fun p =>
    if p.2.w < a + n && a < p.2.w + 160 * mxQ p.2.fmt (p.2.form = 1) then (p.1, { p.2 with valid := false }) else p) }
/-- Who writes a typed buffer: a context by its store, an engine for a context's command of a class issued at a context cycle, or
another unit. -/
inductive Writer where
  | store (x : Nat)
  | command (x cls iss : Nat)
  | other
  deriving DecidableEq, Repr
/-- A load in flight sees the write (11 R222): not that of the context's own later store, nor that of its own later command of the
load's class (09 R179). -/
def Writer.seenBy (w : Writer) (x : Nat) (p : Pend) (src : Src) : Bool :=
  match w with
  | .store y => x != y
  | .command y cls iss => !(x == y && src.cls == cls && decide (p.iss ≤ iss))
  | .other => true
/-- The bytes of a write of `bs` at `a` to a load from `src`, which keeps the bytes of the context's own earlier stores `own`. -/
def layWrite (src : Src) (own : List Store) (a : Nat) (bs : List Byte) (v : Nat) : Nat :=
  leVal (layStores own src.addr (overlayBytes (leBytes src.len v) src.addr a bs))
/-- A byte of the write reaches the load. -/
def writeShows (src : Src) (own : List Store) (a n : Nat) : Bool :=
  (List.range n).any (fun i => decide (src.addr ≤ a + i) && decide (a + i < src.addr + src.len)
    && !own.any (fun t => (storeParts t).any (fun p => decide (p.1 ≤ a + i) && decide (a + i < p.1 + p.2.length))))
/-- A typed-buffer load that has not landed sees what others perform by then (11 R222). -/
def patchLand (l : Land) (src : Src) (own : List Store) (a : Nat) (bs : List Byte) (bad : Bool) : Land :=
  if !writeShows src own a bs.length then l
  else
    match l with
    | .scalar n v => if bad then .poison 0xFF else .scalar n (BitVec.ofNat 64 (layWrite src own a bs v.toNat))
    | .row q r v => .row q r ⟨BitVec.ofNat 1024 (layWrite src own a bs v.bits.toNat), if bad then .corrupt else v.mark⟩
    | w => w
/-- Change the entries of every shadow record a context holds: live, set aside, and at restart points. -/
def mapPends (f : Pend → Pend) (c : Ctx) : Ctx :=
  { c with
    regs := { c.regs with shadow := c.regs.shadow.map f }
    markRegs := { c.markRegs with shadow := c.markRegs.shadow.map f }
    aside := c.aside.map (fun a => { a with shadow := a.shadow.map f, markRegs := { a.markRegs with shadow := a.markRegs.shadow.map f } }) }
/-- The core's loads in flight that a write reaches; each keeps the bytes of its context's own stores that were gated before it and
are not performed. -/
def patchLoads (s : State) (k : Nat) (by_ : Writer) (code a : Nat) (bs : List Byte) (bad : Bool) : State :=
  (List.range 8).foldl (fun s x =>
    let c := ctxOf s k x
    let open_ := c.regs.shadow ++ c.markRegs.shadow ++ (match c.aside with | some d => d.shadow ++ d.markRegs.shadow | none => [])
    if !open_.any (fun p => p.src.isSome) then s
    else
      let own := (ownStores s k x).filter (isBuf code)
      setCtx s k x (mapPends (fun p => match p.src with
        | some src => if src.code = code && by_.seenBy x p src then { p with what := patchLand p.what src (own.filter (fun t => t.id < src.id)) a bs bad } else p
        | none => p) c)) s
/-- Write typed-buffer bytes, with the poison of a write (22 R385) and the region tag of the core's partition (14 R291). -/
def writeBuf (s : State) (k : Nat) (by_ : Writer) (code a : Nat) (bs : List Byte) (bad : Bool) : State :=
  let c := coreOf s k
  let key := bufKey code a
  let b : Bufs := { c.bufs with
    bytes := setBytes c.bufs.bytes key bs
    bad := poisonWrite c.bufs.bad key bs.length bad
    region := (List.range ((key % 65536 + bs.length + 65535) / 65536)).foldl (fun m i => mapSet m 0 (key / 65536 + i) (c.part + 1)) c.bufs.region }
  patchLoads (setCore s k { c with bufs := b, mx := strikeStages c.mx code a bs.length }) k by_ code a bs bad
/-- The die of the first piece that is not near (R212, 11 R220). -/
def farDie (k : Nat) (ps : List (Nat × Nat × Nat)) : Option Nat :=
  (ps.find? (fun p => dieOfAddr p.1 != dieOfCore k)).map (fun p => dieOfAddr p.1)

/-- The next request number of a core. -/
def takeSeq (s : State) (k : Nat) : State × Nat :=
  let c := coreOf s k
  (setCore s k { c with ms := { c.ms with seq := c.ms.seq + 1 } }, c.ms.seq)

/-- Release one store: it issues now (R220). A near one binds its slot and is performed 152 cycles after it; a far one crosses its
bridges first; a typed-buffer store is performed 2 cycles after release, one of a register object 16 (27 R453). -/
def releaseAs (q : State × Nat) (k : Nat) (st : Store) : State :=
  let s := q.1
  let r : State × Store := match st.tgt with
    | .mem _ ps =>
      (match farDie k ps with
      | some d => (q.1, { st with reach := some (s.now + 48 * hops (dieOfCore k) d) })
      | none =>
        let b := bindSpan q.1 k ps
        (b.1, { st with slot := some b.2, fin := some (b.2 + 152) }))
    | .buf _ _ => (q.1, { st with fin := some (s.now + 2) })
    | .swz _ _ => (q.1, { st with fin := some (s.now + 2) })
    | .reg _ _ => (q.1, { st with fin := some (s.now + 16) })
    | .remote _ _ _ => (q.1, { st with fin := some s.now })
  let c := coreOf r.1 k
  setCore r.1 k { c with ms := { c.ms with released := c.ms.released ++ [{ r.2 with seq := q.2 }] } }
/-- A gated store enters the memory system with the next number. -/
def releaseOne (s : State) (k : Nat) (st : Store) : State := releaseAs (takeSeq s k) k st

/-- Release the gated stores of a context in issue order (R214). -/
def releaseStores (s : State) (k x : Nat) : State :=
  let c := coreOf s k
  let mine := c.ms.gated.filter (fun t => t.ctx == x)
  let s := setCore s k { c with ms := { c.ms with gated := c.ms.gated.filter (fun t => t.ctx != x) } }
  mine.foldl (fun s t => releaseOne s k t) s

/-- A restart mark at the context's next group (R87, R214, R215): stores are released and the restart point set. -/
def markHere (s : State) (k x : Nat) : State :=
  let s := releaseStores s k x
  setCtx s k x (placeMark (ctxOf s k x))

/-! ## Order among requests (11 R220, R234, 13 R265, R267) -/

/-- What orders a request: its context, class and number, its bytes by space (0 memory, 1 to 4 typed buffers, 5 register objects),
and whether it is ordered with every class. -/
structure ReqView where
  ctx : Nat
  cls : Nat
  seq : Nat
  space : Nat
  spans : List (Nat × Nat)
  arr : Bool
def Store.view (t : Store) : ReqView :=
  match t.tgt with
  | .mem _ ps => ⟨t.ctx, t.cls, t.seq, 0, ps.map (fun p => (p.1, p.2.2)), false⟩
  | .buf c a => ⟨t.ctx, t.cls, t.seq, 1 + c, [(a, t.data.length)], false⟩
  | .swz c _ => ⟨t.ctx, t.cls, t.seq, 1 + c, (storeParts t).map (fun p => (p.1, p.2.length)), false⟩
  | .reg d o => ⟨t.ctx, t.cls, t.seq, 5, [(16384 * d + o, 8)], false⟩
  | .remote _ _ _ => ⟨t.ctx, t.cls, t.seq, 6, [], false⟩
def AtomReq.view (t : AtomReq) : ReqView := ⟨t.ctx, t.cls, t.seq, 0, t.pieces.map (fun p => (p.1, p.2.2)), t.op == 16 || t.op == 17⟩
def LoadReq.view (t : LoadReq) : ReqView := ⟨t.ctx, t.cls, t.seq, 0, t.pieces.map (fun p => (p.1, p.2.2)), false⟩
/-- The requests of a core to the module's memory and buffers that are not performed. -/
def localReqs (c : Core) : List ReqView :=
  c.ms.released.map Store.view ++ c.ms.atoms.map AtomReq.view ++ (c.ms.loads.filter (fun l => l.got.isNone)).map LoadReq.view
/-- The remote requests of a core's contexts that are not performed (12 R248, 13 R267). -/
def remoteReqs (s : State) (k : Nat) : List ReqView :=
  (List.range 8).flatMap (fun x => ((ctxOf s k x).reqs.filter (fun r => r.peer != Config.moduleNumber)).map (fun r => ⟨x, r.cls, r.seq, 7, [], false⟩))
/-- The deferred effects of a core's contexts that are not issued yet (13 R277). -/
def releasedReqs (s : State) (k : Nat) : List ReqView :=
  (s.worlds.releasing.filter (fun e => e.core == k)).map (fun e => ⟨e.ctx, e.cls, e.seq, 7, [], false⟩)
def openReqs (s : State) (k : Nat) : List ReqView := localReqs (coreOf s k) ++ remoteReqs s k ++ releasedReqs s k
/-- Two requests of one context are performed in order: one class, one location, or a barrier update. -/
def inOrderWith (u v : ReqView) : Bool :=
  u.ctx == v.ctx && (u.cls == v.cls || u.arr || v.arr || (u.space == v.space
    && u.spans.any (fun p => v.spans.any (fun q => decide (p.1 < q.1 + q.2) && decide (q.1 < p.1 + p.2)))))
/-- Of `open_`, a request earlier than `v` must be performed before it; a release waits for every earlier one. -/
def blockedReq (open_ : List ReqView) (v : ReqView) (release : Bool) : Bool :=
  open_.any (fun u => decide (u.seq < v.seq) && ((release && u.ctx == v.ctx) || inOrderWith u v))
/-- The requests that no stated cycle performs: those to another die, and the remote ones. -/
def lateReqs (s : State) (k : Nat) : List ReqView :=
  let c := coreOf s k
  (c.ms.released.filter (fun t => (farDie k (match t.tgt with | .mem _ ps => ps | _ => [])).isSome)).map Store.view
    ++ (c.ms.atoms.filter (fun t => (farDie k t.pieces).isSome)).map AtomReq.view
    ++ (c.ms.loads.filter (fun t => t.got.isNone && (farDie k t.pieces).isSome)).map LoadReq.view ++ remoteReqs s k
    ++ releasedReqs s k
/-- An earlier flag write of the context at its own module covers the class of a store, an atomic or a put (12 R248, R252): it goes first. -/
def flagBefore (c : Core) (ctx cls seq : Nat) : Bool :=
  c.ms.atoms.any (fun m => m.op == 18 && m.ctx == ctx && decide (m.seq < seq) && field m.y.toNat cls 1 == 1)
/-- A request held by a thermal hold (24 R422). -/
def heldNow (s : State) (k seq : Nat) : Bool :=
  s.dies.any (fun d => d.2.held.any (fun h => h.core == k && h.seq == seq))
/-- A request's cycle has come. -/
def reqReady (s : State) (k : Nat) (fin : Option Nat) (v : ReqView) (release : Bool) : Bool :=
  fin.any (fun f => f ≤ s.now) && !heldNow s k v.seq && !blockedReq (openReqs s k) v release

def reachedDie (s : State) (d : Nat) (reach : Option Nat) (k : Nat) (ps : List (Nat × Nat × Nat)) : Bool :=
  reach.any (fun r => r ≤ s.now) && farDie k ps == some d
def storePieces (t : Store) : List (Nat × Nat × Nat) := match t.tgt with | .mem _ ps => ps | _ => []
/-- Every request of core k that has reached die d binds the first free BRG slots after its arrival, in arrival order (10 R212); then its
engines' beats. -/
def farReach (s : State) (d k : Nat) : State :=
  let c := coreOf s k
  let due : List (Nat × List (Nat × Nat × Nat)) := (c.ms.released.filter (fun t => reachedDie s d t.reach k (storePieces t))).map (fun t => (t.seq, storePieces t))
    ++ (c.ms.atoms.filter (fun t => reachedDie s d t.reach k t.pieces)).map (fun t => (t.seq, t.pieces))
    ++ (c.ms.loads.filter (fun t => reachedDie s d t.reach k t.pieces)).map (fun t => (t.seq, t.pieces))
  due.foldl (fun s r =>
    let q := r.1
    let b := bindBrgSpan s d s.now r.2
    let c := coreOf b.1 k
    setCore b.1 k { c with ms := { c.ms with
      released := c.ms.released.map (fun t => if t.seq == q then { t with reach := none, slot := some b.2, fin := some (b.2 + 152) } else t)
      atoms := c.ms.atoms.map (fun t => if t.seq == q then { t with reach := none, slot := some b.2, fin := some (b.2 + 152) } else t)
      loads := c.ms.loads.map (fun t => if t.seq == q then { t with reach := none, slot := some b.2, fin := some (b.2 + 152) } else t) } }) s
/-- Every beat of core k's engines that has reached die d binds; a read is back 40 cycles after its data is read (R212). -/
def farBeats (s : State) (d k : Nat) : State :=
  (List.range (coreOf s k).ms.beats.length).foldl (fun s i =>
    match (coreOf s k).ms.beats[i]? with
    | some b =>
      if reachedDie s d b.reach k b.pieces then
        let r := bindBrgSpan s d s.now b.pieces
        let c := coreOf r.1 k
        setCore r.1 k { c with ms := { c.ms with beats := c.ms.beats.set i { b with reach := none, fin := some (r.2 + (if b.write then 152 else 192)) } } }
      else s
    | none => s) s

/-! ## Requests and stacks in self-refresh (24 R422) -/

/-- A request of slot `slot` to stack `st`, not yet performed. -/
def holdOne (s : State) (k : Nat) (ctx seq : Nat) (slot : Option Nat) (ps : List (Nat × Nat × Nat)) : State :=
  match slot, ps with
  | some c, p :: _ =>
    let st := stackOf p.1
    if c = s.now && stackHeld s st && !heldNow s k seq then
      let d := dieOf s (st / 2)
      setDie s (st / 2) { d with held := d.held ++ [⟨st, c, k, seq, ctx, s.now, false⟩] }
    else s
  | _, _ => s
/-- Requests whose bound slot comes while their stack is held. -/
def holdScan (s : State) (k : Nat) : State :=
  let m := (coreOf s k).ms
  let s := m.released.foldl (fun s t => holdOne s k t.ctx t.seq t.slot (storePieces t)) s
  let s := m.atoms.foldl (fun s t => holdOne s k t.ctx t.seq t.slot t.pieces) s
  (m.loads.filter (fun t => t.got.isNone)).foldl (fun s t => holdOne s k t.ctx t.seq t.slot t.pieces) s
/-- A held request whose calendar cycle comes round after the hold is served: it goes on as if its slot were this cycle. -/
def serveHeld (s : State) (st : Nat) : State :=
  if stackHeld s st then s
  else
    let due := (dieOf s (st / 2)).held.filter (fun h => h.stack == st && h.slot % 64 == s.now % 64)
    due.foldl (fun s h =>
      let d := dieOf s (st / 2)
      let s := setDie s (st / 2) { d with held := d.held.filter (fun e => !(e.core == h.core && e.seq == h.seq)) }
      let c := coreOf s h.core
      setCore s h.core { c with ms := { c.ms with
        released := c.ms.released.map (fun t => if t.seq == h.seq then { t with slot := some s.now, fin := some (s.now + 152) } else t)
        atoms := c.ms.atoms.map (fun t => if t.seq == h.seq then { t with slot := some s.now, fin := some (s.now + 152) } else t)
        loads := c.ms.loads.map (fun t => if t.seq == h.seq then { t with slot := some s.now, fin := some (s.now + 152) } else t) } }) s

/-! ## Data on its way back (10 R208, 22 R390, 24 R420) -/

/-- The value a destination takes from loaded bytes; poison of a scalar or capability raises 0x19 and writes nothing. -/
def landValue (dst : Land) (bs : List Byte) (bad tag : Bool) : Land :=
  match dst with
  | .scalar n _ => if bad then .poison 0xFF else .scalar n (BitVec.ofNat 64 (leVal bs))
  | .cap n _ => if bad then .poison 0xFF else .cap n ⟨BitVec.ofNat 128 (leVal bs), tag⟩
  | .row q r _ => .row q r ⟨BitVec.ofNat 1024 (leVal bs), if bad then .corrupt else .clean⟩
  | w => w
/-- A shadow-record entry of the context waits for request `key`. -/
def waitsFor (c : Ctx) (key : Nat) : Bool :=
  (c.regs.shadow ++ (match c.aside with | some a => a.shadow | none => [])).any (fun p => p.waits == some key)
/-- The entries that wait for a request take its value. -/
def settlePends (c : Ctx) (key : Nat) (v : Land) : Ctx :=
  mapPends (fun p => if p.waits == some key then { p with what := v, waits := none } else p) c
/-- Data of a declared latency arrives in time: poison for a scalar is consumed now (24 R420), the value lands at its point. -/
def settleEarly (c : Ctx) (key : Nat) (v : Land) : Ctx :=
  match v with
  | .poison info => raiseA (settlePends c key (.none Row.zero)) 0x19 info
  | w => settlePends c key w
/-- Late data is written where its L mark still stands; poison turns the mark to C (R390). -/
def writeLate (s : State) (k x key : Nat) (dst : Land) (bs : List Byte) (bad : Bool) : State :=
  let c := ctxOf s k x
  match dst with
  | .scalar n _ =>
    if sMarkOf c n = .late key then
      setCtx s k x (if bad then markS c n .corrupt else writeS c n (BitVec.ofNat 64 (leVal bs)))
    else s
  | .row _ r _ =>
    let co := coreOf s k
    if (vrfRead co.vrf x r).mark = .late key then
      setCore s k { co with vrf := vrfWrite co.vrf x r ⟨BitVec.ofNat 1024 (leVal bs), if bad then .corrupt else .clean⟩ }
    else s
  | _ => s

/-- Of the context's own stores before a load, those still not performed: they stand over what memory holds (10 R214, 13 R265). -/
def openOwn (s : State) (k : Nat) (l : LoadReq) : List Store :=
  let open_ := ownStores s k l.ctx
  l.own.filter (fun t => open_.any (fun u => u.id == t.id))
/-- The bytes, poison and granule tag that a load reads at its stack. -/
def readLoad (s : State) (k : Nat) (l : LoadReq) : List Byte × Bool × Bool :=
  let own := openOwn s k l
  let r := l.pieces.foldl (fun (acc : List Byte × Bool) p =>
    (pieces 256 p.1 p.2.2 4).foldl (fun acc q =>
      (acc.1 ++ layStores own (viewAddr l.world p.2.1 q.1) (readIn s l.world q.1 p.2.1 q.2),
        acc.2 || (granules q.1 q.2).any (fun g => layMark own (viewAddr l.world p.2.1 (64 * g) / 64) (badIn s l.world (64 * g) p.2.1 1)))) acc) ([], false)
  let t := match l.pieces with | p :: _ => layTags own (viewAddr l.world p.2.1 p.1) (tagIn s l.world p.1 p.2.1) | [] => false
  (r.1, r.2, t && l.wantTag && !r.2)

/-- The context's stores that are not performed yet. -/
def storesPending (s : State) (k x : Nat) : Bool := (coreOf s k).ms.released.any (fun t => t.ctx == x)
/-- Writes of the context on their way: stores, atomics and barrier updates, and its remote requests that write (an STR, an ATOMR, a
flag): what an RNGPUB carries (13 R269). -/
def writesPending (s : State) (k x : Nat) : Bool :=
  storesPending s k x || (coreOf s k).ms.atoms.any (fun t => t.ctx == x) || (ctxOf s k x).reqs.any (fun r => r.kind != 0)

end Sys2Proof.Machine
end

