-- ==== Sys2Proof/Machine/Mx.lean ====
section
/-! DEFINITION. Machine/Mx.lean: the matrix engine (09 R166 to R175, 04 R78, 22 R386, R391): geometry of operands, when operations
and weight loads begin, the rows and columns they read, and what they write when they end. -/

namespace Sys2Proof.Machine

/-! ## Operands (R168, R169) -/

/-- Bits of an element of a matrix format, and its code as a floating format. -/
def mxBits (fmt : Nat) : Nat := match fmt with | 2 => 16 | 3 => 16 | 12 => 4 | _ => 8
def mxCode (fmt : Nat) : Nat := match fmt with | 10 => 14 | 11 => 15 | 12 => 16 | n => n
def isMxFmt (fmt : Nat) : Bool := fmt == 10 || fmt == 11 || fmt == 12
def isIntFmt (fmt : Nat) : Bool := fmt == 4 || fmt == 8
/-- Where the block scales of a row or column stand. -/
def scaleAt (fmt : Nat) : Nat := if fmt = 12 then 512 else 256
/-- The format of B when FN[0] names the partner (R170). -/
def partnerOf (fmt : Nat) : Nat := match fmt with | 14 => 15 | 15 => 14 | 4 => 8 | 8 => 4 | 10 => 11 | 11 => 10 | n => n
/-- FN[0] may name a partner. -/
def hasPartner (fmt : Nat) : Bool := partnerOf fmt != fmt
/-- The formats MMAS admits. -/
def sparseFmt (fmt : Nat) : Bool := fmt == 2 || fmt == 3 || fmt == 4 || fmt == 8 || fmt == 14 || fmt == 15

/-- The sparse (2:4) or dense elements of a column, each with whether it is a stored one (R169). -/
def expand (vals : List Nat) (nibs : Nat) (k : Nat) : List (Option Nat) :=
  (List.range k).map (fun j =>
    let g := j / 4
    let nib := nibs / 16 ^ g % 16
    if nib / 4 = j % 4 then some (vals.getD (2 * g + 1) 0)
    else if nib % 4 = j % 4 then some (vals.getD (2 * g) 0)
    else none)
/-- The elements of a row or column of K elements, none at a pruned position. -/
def mxElems (fmt : Nat) (sparse : Bool) (k : Nat) (bs : List Byte) : List (Option Nat) :=
  let v := leVal bs
  let b := mxBits fmt
  if sparse then
    expand ((List.range (k / 2)).map (fun j => v / 2 ^ (b * j) % 2 ^ b)) (v / 2 ^ (b * (k / 2))) k
  else (List.range k).map (fun j => some (v / 2 ^ (b * j) % 2 ^ b))
/-- The block scales; 127 stands for 1 where the format has none. -/
def mxScales (fmt k : Nat) (bs : List Byte) : List Nat :=
  (List.range (k / 32)).map (fun j => if isMxFmt fmt then (bs.getD (scaleAt fmt + j) 0#8).toNat else 127)
/-- The elements as floating values: NaN where the block's scale is the NaN scale (R64). -/
def mxValues (flush fmt : Nat) (es : List (Option Nat)) (scales : List Nat) : List (Option FVal) :=
  (List.range es.length).map (fun j =>
    (es.getD j none).map (fun w =>
      if scales.getD (j / 32) 127 = 255 then .nan else decodeF (fmtOf (mxCode fmt)) (dazOf flush (mxCode fmt)) w))

/-! ## The dot product (R78) -/

def fp32 : FFmt := fmtOf 1
/-- One block: products, the tree of five levels, the scales, and the addition to the accumulator. Events count the element the
block begins at (22 R391). -/
def dotBlock (ftz mx : Bool) (at_ : Nat) (xs ys : List (Option FVal)) (scale : Int) (acc : FVal) : FVal × Option (Nat × Nat × Nat) :=
  let leaves : List Node := (List.range 32).map (fun j =>
    match xs.getD j none, ys.getD j none with
    | some p, some q =>
      let v := mulV p q
      ⟨v, if v.isNan && !p.isNan && !q.isNan then some (at_ + j, 0, 1) else none⟩
    | _, _ => ⟨.num false 0 0, none⟩)
  let t := treeSum (addF fp32 0 ftz) fp32 6 1 1 at_ leaves
  let r : FRes := match t.v with
    | .num s m e => if mx then roundF fp32 0 false ftz none (.num s m (e + scale)) else ⟨0, 0⟩
    | _ => ⟨0, 0⟩
  let v := match t.v with | .num _ _ _ => if mx then decodeF fp32 false r.code else t.v | w => w
  let a := addF fp32 0 ftz acc v
  let e1 := if r.kind = 0 then none else some (at_, 6, r.kind)
  let e2 := if a.kind = 0 then none else some (at_, 7, a.kind)
  (decodeF fp32 false a.code, firstEvent (firstEvent t.ev e1) e2)
/-- The dot product over all blocks, added to the accumulator in ascending order. -/
def dotFloat (ftz mx : Bool) (at_ fuel : Nat) (xs ys : List (Option FVal)) (sa sb : List Nat) (acc : FVal) : FVal × Option (Nat × Nat × Nat) :=
  match fuel with
  | 0 => (acc, none)
  | fuel + 1 =>
    if xs.isEmpty then (acc, none)
    else
      let r := dotBlock ftz mx at_ (xs.take 32) (ys.take 32) ((sa.headD 127 : Int) + sb.headD 127 - 254) acc
      let t := dotFloat ftz mx (at_ + 32) fuel (xs.drop 32) (ys.drop 32) sa.tail sb.tail r.1
      (t.1, firstEvent r.2 t.2)
/-- The integer dot product, exact. -/
def dotInt (fa fb : Nat) (xs ys : List (Option Nat)) : Int :=
  (List.range xs.length).foldl (fun z j =>
    match xs.getD j none, ys.getD j none with
    | some x, some y => z + intOf fa 8 x * intOf fb 8 y
    | _, _ => z) 0

/-! ## Tiles (R56, R168) -/

def tileAddr (t i : Nat) : Nat := 81920 * t + 640 * i
/-- The 160 words of a tile's row and its poison. -/
def tileRow (s : State) (k t i : Nat) : List Nat :=
  let v := leVal (bufBytes s k 2 (tileAddr t i) 640)
  (List.range 160).map (fun n => v / 2 ^ (32 * n) % 2 ^ 32)
def tileBad (s : State) (k t i : Nat) : Bool := bufBad s k 2 (tileAddr t i) 640
def writeTileBytes (s : State) (k t i : Nat) (bs : List Byte) (bad : Bool) : State := writeBuf s k .other 2 (tileAddr t i) bs bad
def writeTileRow (s : State) (k t i : Nat) (ws : List Nat) (bad : Bool) : State :=
  writeTileBytes s k t i (leBytes 640 (packElems32 ws)) bad
where
  packElems32 (ws : List Nat) : Nat := match ws with | [] => 0 | w :: rest => w % 2 ^ 32 + 2 ^ 32 * packElems32 rest
/-- Poison a tile's row whose bytes stay. -/
def poisonTileRow (s : State) (k t i : Nat) : State :=
  let c := coreOf s k
  setCore s k { c with bufs := { c.bufs with bad := poisonWrite c.bufs.bad (bufKey 2 (tileAddr t i)) 640 true } }
/-- The owner tag of a tile (R56): the context's number plus 1, plus 64 where the task that owns it is suspended (14 R287). -/
def tileTag (x : Nat) : Nat := if x < 8 then x + 1 else x % 8 + 65
def ownTile (s : State) (k t x : Nat) : State :=
  let c := coreOf s k
  setCore s k { c with bufs := { c.bufs with tileOwner := mapSet c.bufs.tileOwner 0 t (tileTag x) } }

/-! ## What an operation writes -/

/-- What an operation does to the context that issued it: that of a suspended one is its image (14 R285). -/
def onMxCtx (s : State) (k : Nat) (m : MxOp) (f : Ctx → Ctx) : State :=
  if m.ctx < 8 then setCtx s k m.ctx (f (ctxOf s k m.ctx))
  else
    let c := coreOf s k
    setCore s k { c with vrf := { c.vrf with area := mapSet c.vrf.area Ctx.init (m.ctx % 8) (f (mapGet c.vrf.area Ctx.init (m.ctx % 8))) } }
/-- The event of an MX operation, in slot 3, noted as its results land. -/
def noteMx (s : State) (k : Nat) (m : MxOp) (kind : Nat) : State :=
  if kind = 0 then s else onMxCtx s k m (fun c => noteEvent c s.now m.clock ⟨kind, m.addr, 3⟩)
/-- The first event of a list in order. -/
def firstOf (es : List (Option (Nat × Nat × Nat))) : Nat :=
  match es with
  | [] => 0
  | some e :: _ => e.2.2
  | none :: rest => firstOf rest

/-- Columns of pass p as values and scales. -/
structure Col where
  ints : List (Option Nat)
  vals : List (Option FVal)
  scales : List Nat
def colsOf (m : MxOp) (p : Nat) : List Col :=
  let fb := if m.fn % 2 = 1 then partnerOf m.fmt else m.fmt
  let sp := m.fn / 2 % 2 = 1
  let k := mxK m.fmt sp
  (List.range 160).map (fun n =>
    let bs := (m.cols.getD (160 * p + n) ([], false)).1
    let es := mxElems fb sp k bs
    let sc := mxScales fb k bs
    ⟨es, mxValues m.flush fb es sc, sc⟩)
/-- One output element over the passes; each pass reads the accumulator as the instruction of R170 does, DAZ included (R173). -/
def mmaElem (m : MxOp) (cols : List (List Col)) (i n : Nat) (acc : Nat) : Nat × Option (Nat × Nat × Nat) :=
  let fb := if m.fn % 2 = 1 then partnerOf m.fmt else m.fmt
  let k := mxK m.fmt (m.fn / 2 % 2 = 1)
  if isIntFmt m.fmt then
    ((List.range m.passes).foldl (fun z p =>
      let row := mxElems m.fmt false k (((m.arows.getD (m.rows * p + i) none).getD ([], false)).1)
      wrap 32 ((z : Int) + dotInt m.fmt fb row ((cols.getD p []).getD n ⟨[], [], []⟩).ints)) acc, none)
  else
    let ftz := ftzOf m.flush 1
    let r := (List.range m.passes).foldl (fun (z : FVal × Option (Nat × Nat × Nat)) p =>
      let bs := ((m.arows.getD (m.rows * p + i) none).getD ([], false)).1
      let sc := mxScales m.fmt k bs
      let row := mxValues m.flush m.fmt (mxElems m.fmt false k bs) sc
      let col := (cols.getD p []).getD n ⟨[], [], []⟩
      let z1 := decodeF fp32 (dazOf m.flush 1) (roundF fp32 0 false false none z.1).code
      let d := dotFloat ftz (isMxFmt m.fmt) (p * k) 64 row col.vals sc col.scales z1
      (d.1, firstEvent z.2 d.2)) (decodeF fp32 false acc, none)
    ((roundF fp32 0 false false none r.1).code, r.2)

/-- MMA, MMAZ, MMAS and MNEST (R170, R173, R386). -/
def finishMma (s : State) (k : Nat) (m : MxOp) : State :=
  let cols := (List.range m.passes).map (colsOf m)
  let badW := m.cols.any (·.2)
  let r := (List.range 128).foldl (fun (acc : State × List (Option (Nat × Nat × Nat))) i =>
    if decide (i < m.rows) && !m.skip.getLsbD i then
      let old := if m.first then List.replicate 160 0 else tileRow s k m.acc i
      let bad := badW || (!m.first && tileBad s k m.acc i)
        || (List.range m.passes).any (fun p => ((m.arows.getD (m.rows * p + i) none).getD ([], false)).2) || m.struck.contains i
      let out := (List.range 160).map (fun n => mmaElem m cols i n (old.getD n 0))
      (writeTileRow acc.1 k m.acc i (out.map (·.1)) bad, acc.2 ++ (if m.struck.contains i then [some (0, 0, 6)] else []) ++ out.map (·.2))
    else if m.first then (writeTileRow acc.1 k m.acc i [] badW, acc.2)
    else if badW then (poisonTileRow acc.1 k m.acc i, acc.2)
    else acc) (s, [])
  let s1 := if m.first then ownTile r.1 k m.acc m.ctx else r.1
  let hits := m.struck.filter (fun i => decide (i < m.rows) && !m.skip.getLsbD i)
  onMxCtx (noteMx s1 k m (firstOf r.2)) k m (fun c => hits.foldl (fun c _ => raiseA c 0x1E m.acc) c)

/-- MACC (R174). -/
def finishMacc (s : State) (k : Nat) (m : MxOp) : State :=
  let r := (List.range 128).foldl (fun (acc : State × List Nat) i =>
    let x := tileRow s k m.acc i
    let y := tileRow s k m.bt i
    let out : List FRes := (List.range 160).map (fun n =>
      if m.fmt = 6 then ⟨(x.getD n 0 + y.getD n 0) % 2 ^ 32, 0⟩
      else addF fp32 m.rm (ftzOf m.flush 1) (decodeF fp32 (dazOf m.flush 1) (x.getD n 0)) (decodeF fp32 (dazOf m.flush 1) (y.getD n 0)))
    (writeTileRow acc.1 k m.acc i (out.map (·.code)) (tileBad s k m.acc i || tileBad s k m.bt i), acc.2 ++ out.map (·.kind))) (s, [])
  noteMx r.1 k m (firstKind r.2)

/-- MTRN (R174). -/
def finishMtrn (s : State) (k : Nat) (m : MxOp) : State :=
  let rows := (List.range 128).map (tileRow s k m.acc)
  let bad := (List.range 128).any (tileBad s k m.acc)
  let s1 := (List.range 128).foldl (fun s' j =>
    writeTileRow s' k m.bt j ((List.range 128).map (fun i => (rows.getD i []).getD j 0)) bad) s
  ownTile s1 k m.bt m.ctx

/-- MRED (R174): `a` holds m. BT is written without being read, so the issuing context owns it (R56), unless it is also the source. -/
def finishMred (s : State) (k : Nat) (m : MxOp) : State :=
  let rows := (List.range m.a).map (tileRow s k m.acc)
  let bad := (List.range m.a).any (tileBad s k m.acc)
  let isMax := m.fn % 2 = 1
  let one : Nat → FRes := fun n =>
    let ws := rows.map (fun r => r.getD n 0)
    if m.fmt = 6 then
      let zs := ws.map (fun w => signed 32 w)
      if isMax then ⟨wrap 32 (zs.foldl (fun a z => if a < z then z else a) (-2147483648)), 0⟩ else ⟨wrap 32 (zs.foldl (· + ·) 0), 0⟩
    else
      let vs := ws.map (fun w => decodeF fp32 (dazOf m.flush 1) w)
      if isMax then roundF fp32 0 false (ftzOf m.flush 1) none (vs.foldl maxV .nan)
      else
        let leaves : List Node := vs.map (fun v => ⟨v, none⟩) ++ List.replicate (128 - m.a) ⟨.num false 0 0, none⟩
        let t := treeSum (addF fp32 m.rm (ftzOf m.flush 1)) fp32 8 1 1 0 leaves
        ⟨(roundF fp32 0 false false none t.v).code, evKind t.ev 0⟩
  let out := (List.range 160).map one
  let s1 := writeTileRow s k m.bt 0 (out.map (·.code)) bad
  noteMx (if m.bt = m.acc then s1 else ownTile s1 k m.bt m.ctx) k m (firstKind (out.map (·.kind)))

/-- One row of MCVT (R175): its 640 bytes, the kinds it notes, the generator's next state. -/
def mcvtRow (flush fmt rm : Nat) (sat : Bool) (ws : List Nat) (x : BitVec 64) : List Byte × List Nat × BitVec 64 :=
  let pack : Nat → List Nat → Nat := fun b cs => cs.reverse.foldl (fun n c => n * 2 ^ b + c % 2 ^ b) 0
  if fmt = 4 then
    let rs := ws.map (fun w => clampI (-128) 127 (signed 32 w))
    (leBytes 640 (pack 8 (rs.map (fun r => wrap 8 r.1))), rs.map (·.2), x)
  else
    let vs := ws.map (fun w => decodeF fp32 (dazOf flush 1) w)
    if isMxFmt fmt then
      let r := (List.range 5).foldl (fun (acc : List Nat × List FRes × BitVec 64) j =>
        let b := packBlock flush 1 (fmt + 8) rm ((vs.drop (32 * j)).take 32) acc.2.2
        (acc.1 ++ [b.1], acc.2.1 ++ b.2.1, b.2.2)) ([], [], x)
      (leBytes 512 (pack (mxBits fmt) (r.2.1.map (·.code))) ++ leBytes 128 (pack 8 r.1), r.2.1.map (·.kind), r.2.2)
    else
      let r := roundDraws (fmtOf fmt) rm sat (ftzOf flush fmt) vs x
      (leBytes 640 (pack (mxBits fmt) (r.1.map (·.code))), r.1.map (·.kind), r.2)
/-- All rows of an MCVT of tile t, with the generator's state at its begin. -/
def mcvtRows (s : State) (k flush fmt rm : Nat) (sat : Bool) (t : Nat) (x : BitVec 64) : List (List Byte) × List Nat × BitVec 64 :=
  (List.range 128).foldl (fun (acc : List (List Byte) × List Nat × BitVec 64) i =>
    let r := mcvtRow flush fmt rm sat (tileRow s k t i) acc.2.2
    (acc.1 ++ [r.1], acc.2.1 ++ r.2.1, r.2.2)) ([], [], x)
def finishMcvt (s : State) (k : Nat) (m : MxOp) : State :=
  let r := mcvtRows s k m.flush m.fmt m.rm (m.fn % 2 = 1) m.acc (BitVec.ofNat 64 (m.draws.headD 0))
  let s1 := (List.range 128).foldl (fun s' i => writeTileBytes s' k m.bt i (r.1.getD i []) (tileBad s k m.acc i)) s
  noteMx (ownTile s1 k m.bt m.ctx) k m (firstKind r.2.1)

/-- MZERO (R174). -/
def finishMzero (s : State) (k : Nat) (m : MxOp) : State :=
  ownTile ((List.range 128).foldl (fun s' i => writeTileRow s' k m.acc i [] false) s) k m.acc m.ctx

def finishMx (s : State) (k : Nat) (m : MxOp) : State :=
  match m.opc with
  | 0x10 => finishMtrn s k m
  | 0x11 => finishMacc s k m
  | 0x12 => finishMcvt s k m
  | 0x13 => finishMred s k m
  | 0x14 => finishMzero s k m
  | _ => finishMma s k m

/-! ## When operations begin (R166, R171 to R173) -/

def lwOf (fmt : Nat) (sparse : Bool) : Nat := (160 * mxQ fmt sparse + 1023) / 1024
def occupancy (opc : Nat) : Nat := match opc with | 0x14 => 16 | 0x13 => 48 | _ => 128
/-- Entries of the weight-loader queue that count: not MNEST's own loads, and none once loaded. -/
def loaderEntries (c : Core) : Nat := (c.mx.wl.filter (fun l => !l.nest && !l.done)).length
def stageOf (c : Core) (n : Nat) : Stage := mapGet c.mx.stages ⟨0, 0, 0, 0, 0, false⟩ n
/-- The stage whose tag matches an operand, if one does (R172). -/
def matchStage (c : Core) (w fmt form : Nat) : Option Nat :=
  [0, 1].find? (fun n => let t := stageOf c n; t.valid && t.w == w && t.fmt == fmt && t.form == form)
def wOfPass (m : MxOp) (p : Nat) : Nat := m.w + 64 * p * m.wstep
def aOfPass (m : MxOp) (p : Nat) : Nat := m.a + 64 * p * m.astep

/-- The stage MNEST loads for its next pass (R173). -/
def otherStage (c : Core) (used : Nat) : Nat :=
  match used with
  | 0 => 1
  | 1 => 0
  | _ => if (stageOf c 1).start < (stageOf c 0).start then 1 else 0

/-- Read a pass's columns as its first row enters. -/
def readCols (s : State) (k : Nat) (m : MxOp) (p : Nat) : List (List Byte × Bool) :=
  let q := mxQ m.fmt (m.fn / 2 % 2 = 1)
  (List.range 160).map (fun n =>
    let a := wOfPass m p + n * q
    (bufBytes s k 0 a q, bufBad s k 0 a q))
/-- Read row i of a pass, in the swizzled layout; a skipped row is not read. -/
def readARow (s : State) (k : Nat) (m : MxOp) (p i : Nat) : Option (List Byte × Bool) :=
  if m.skip.getLsbD i then none
  else
    let n := mxP m.fmt (m.fn / 2 % 2 = 1)
    let ps := swizzlePieces (aOfPass m p + i * n) n
    some (ps.flatMap (fun q => bufBytes s k 1 q.1 q.2), ps.any (fun q => bufBad s k 1 q.1 q.2))

/-- Begin pass p with its first row at cycle t: the other stage takes the weights of the pass after it, in front of the queue. -/
def beginPass (c : Core) (m : MxOp) (t used : Nat) : Core × MxOp :=
  let m' := { m with starts := m.starts ++ [t], used := m.used ++ [used] }
  let p := m'.starts.length
  if p < m.passes then
    let other := otherStage c used
    let l : WLoad := { ctx := m.ctx, stage := other, w := wOfPass m p, fmt := m.fmt, form := m.fn / 2 % 2,
                       waitFor := false, nest := true, done := false, start := none, fin := none }
    let running := c.mx.wl.filter (fun e => e.start.isSome)
    let waiting := c.mx.wl.filter (fun e => e.start.isNone)
    ({ c with mx := { c.mx with wl := running ++ [l] ++ waiting } }, { m' with staged := other })
  else (c, { m' with staged := 2, fin := some (t + m.rows + 40) })

/-- The head operation begins once the array is free and, where it matches a stage that is still loading, once that is loaded. -/
def beginHead (s : State) (k : Nat) (c : Core) (m : MxOp) : Core × MxOp :=
  if m.start.isSome then (c, m)
  else if m.opc = 0x12 then
    let r := mcvtRows s k m.flush m.fmt m.rm (m.fn % 2 = 1) m.acc c.gen
    let c' := if m.rm = 4 && m.draws.isEmpty then { c with gen := r.2.2 } else c
    (c', { m with start := some s.now, fin := some (s.now + 128), draws := if m.draws.isEmpty then [c.gen.toNat] else m.draws })
  else if m.opc ≠ 0 then (c, { m with start := some s.now, fin := some (s.now + occupancy m.opc) })
  else
    match matchStage c (wOfPass m 0) m.fmt (m.fn / 2 % 2) with
    | some n =>
      if s.now < (stageOf c n).fin then (c, m)
      else beginPass c { m with start := some s.now } s.now n
    | none => beginPass c { m with start := some s.now } (s.now + lwOf m.fmt (m.fn / 2 % 2 = 1)) 2

/-- The next pass of an MNEST begins after the last row of the one before, once its weights are staged (R173). -/
def nextPass (s : State) (c : Core) (m : MxOp) : Core × MxOp :=
  let p := m.starts.length
  if m.opc ≠ 0 || p = 0 || m.passes ≤ p then (c, m)
  else if s.now < m.starts.getD (p - 1) 0 + m.rows || c.mx.wl.any (fun l => l.nest && l.ctx == m.ctx) then (c, m)
  else beginPass c m s.now m.staged

/-- Read what enters the array by now: the columns of a pass with its first row, and its rows cycle by cycle. -/
def feedArray (s : State) (k : Nat) (m : MxOp) : MxOp :=
  (List.range m.starts.length).foldl (fun m p =>
    let t := m.starts.getD p 0
    if s.now < t then m
    else
      let m := if m.cols.length ≤ 160 * p then { m with cols := m.cols ++ readCols s k m p } else m
      let have_ := m.arows.length - m.rows * p
      let want := Nat.min m.rows (s.now - t + 1)
      { m with arows := m.arows ++ (List.range (want - have_)).map (fun j => readARow s k m p (have_ + j)) }) m

/-- A stage is free to be loaded: the operation on the array that uses it has taken its last row (R172), and it does not hold the weights
that an MNEST has loaded for its next pass (R173), except for that load itself. -/
def stageFree (s : State) (c : Core) (nest : Bool) (n : Nat) : Bool :=
  match c.mx.q with
  | [] => true
  | m :: _ => (nest || m.staged != n) && (List.range m.starts.length).all (fun p =>
      m.used.getD p 2 != n || decide (m.starts.getD p 0 + m.rows ≤ s.now))
/-- The first entry that has not begun begins. -/
def startFirst (now fin : Nat) (wl : List WLoad) : List WLoad :=
  match wl with
  | [] => []
  | e :: rest => if e.start.isNone then { e with start := some now, fin := some fin } :: rest else e :: startFirst now fin rest
/-- The loader takes its next entry, one at a time (R172). -/
def beginLoad (s : State) (c : Core) : Core :=
  if c.mx.wl.any (fun l => l.start.isSome && !l.done) then c
  else
    match c.mx.wl.find? (fun l => l.start.isNone) with
    | none => c
    | some l =>
      if !stageFree s c l.nest l.stage then c
      else
        let fin := s.now + lwOf l.fmt (l.form = 1)
        { c with mx := { c.mx with
            wl := startFirst s.now fin c.mx.wl
            stages := mapSet c.mx.stages ⟨0, 0, 0, 0, 0, false⟩ l.stage ⟨l.w, l.fmt, l.form, s.now, fin, true⟩ } }

/-- The matrix engine and its weight loader in the current cycle. -/
def mxStep (s : State) (k : Nat) : State :=
  let c := coreOf s k
  match c.mx.q with
  | [] => if c.mx.wl.isEmpty then s else setCore s k (beginLoad s c)
  | m :: rest =>
    let a := beginHead s k c m
    let b := nextPass s a.1 a.2
    let m' := feedArray s k b.2
    setCore s k (beginLoad s { b.1 with mx := { b.1.mx with q := m' :: rest } })

/-- The operation at the head ends (R166): its results are written and its entry is freed. -/
def mxEnd (s : State) (k : Nat) : State :=
  match (coreOf s k).mx.q with
  | [] => s
  | m :: _ =>
    if m.fin.any (fun f => f ≤ s.now) then
      let s := finishMx s k m
      let c := coreOf s k
      setCore s k { c with mx := { c.mx with q := c.mx.q.drop 1, lastEnd := s.now } }
    else s
/-- A weight load completes (R172): its entry is freed; that of an MWLD stays until its group issues. -/
def loadEnd (s : State) (k : Nat) : State :=
  let c := coreOf s k
  let ended : WLoad → Bool := fun l => !l.done && l.fin.any (fun f => f ≤ s.now)
  if c.mx.wl.any ended then
    setCore s k { c with mx := { c.mx with
      wl := (c.mx.wl.filter (fun l => !ended l || l.waitFor)).map (fun l => if ended l then { l with done := true } else l)
      lastLoad := s.now } }
  else s

end Sys2Proof.Machine
end

