-- ==== Sys2Proof/Machine/Iss.lean ====
section
/-! DEFINITION. Machine/Iss.lean: what an issuing group gathers while its syllables are evaluated in slot order (05 R86, 23 R396),
what can stop it, and how a syllable reads registers and leaves writes. -/

namespace Sys2Proof.Machine

/-- What stops a group at a syllable: a stall, with what the waiting itself sets going; a precise trap (22 R376, class P);
a late datum (class L); a rollback (class R), whose flag says that a fill is possible. -/
inductive Halt where
  | stall (f : State → State)
  | trap (cause info : Nat)
  | late (info : Nat)
  | back (cause info : Nat) (fill : Option (Nat × Nat × Nat × Nat))

/-- How the context goes on after the group. -/
inductive Stop where
  | run
  | stretch
  | exit
  | halt
  | park (slot : Nat)
  deriving DecidableEq, Repr

/-- Where the group stands: the addresses of its first and last bundle, of the bundle with its SY syllable, and its fall-through;
its header bits; its slots in bundle order. -/
structure GInfo where
  addr : Nat
  last : Nat
  sy : Nat
  fall : Nat
  mark : Bool
  yield : Bool
  join : Bool
  order : List Nat
  deriving DecidableEq, Repr

/-- What the group has gathered: the state with its pops and reservations made, the context as the group found it, the syllable at work with its 56 bits, the shadow-record entries by
slot, the queues pushed so far, all pops of the group by queue, effects at the end of the group (`ends`), after the mark
that follows it (`after`) and once the cycle has passed (`last`), a taken transfer or loop choice, how the context goes
on, the poison the syllable has consumed, a pending guard, a failure the memory port finds, a wait that begins once all else of
the group is met (09 R172), the generator's state before the group (04 R72), and the number of the core's first request that the group
makes. -/
structure Iss where
  st : State
  c0 : Ctx
  g : GInfo
  slot : Nat
  syl : Nat
  checked : Bool
  pends : List (Nat × Pend)
  pushed : List Nat
  pops : List (Nat × Nat)
  ends : List (State → State)
  after : List (State → State)
  last : List (State → State)
  next : Option (Bool × Nat)
  stop : Stop
  corrupt : Option Nat
  late : Option Nat
  guard : Option (Nat × Nat × Bool)
  port : Option (Nat × Nat × Option (Nat × Nat × Nat × Nat))
  wait : Option (State → State)
  seed : BitVec 64
  seq0 : Nat

/-- The meaning of a syllable within its group. -/
abbrev Op := Iss → Except Halt Iss

def trapNow {α : Type} (cause info : Nat) : Except Halt α := .error (.trap cause info)
/-- A value read at issue that the instruction does not admit: 0x02 with the syllable (22 R384). -/
def Iss.bad02 {α : Type} (i : Iss) : Except Halt α := .error (.trap 0x02 i.syl)
def stallNow {α : Type} : Except Halt α := .error (.stall id)

/-- The issuing context and its clock. -/
def Iss.ctx (i : Iss) : Ctx := actCtx i.st
def Iss.clock (i : Iss) : Nat := i.ctx.clock
def Iss.core (i : Iss) : Core := actCore i.st
def Iss.die (i : Iss) : Nat := dieOfCore i.st.core
def Iss.setCtx (i : Iss) (c : Ctx) : Iss := { i with st := setAct i.st c }
def Iss.setCore (i : Iss) (c : Core) : Iss := { i with st := setActCore i.st c }
def Iss.flush (i : Iss) : Nat := i.ctx.sp.flush

/-- Poison a syllable has read and consumes (23 R396, step 6): the first of each kind is kept. -/
def Iss.consumes (i : Iss) (sel : Nat) (m : Mark) : Iss :=
  match m with
  | .clean => i
  | .corrupt => { i with corrupt := some (i.corrupt.getD sel) }
  | .late t => { i with late := some (i.late.getD t) }
/-- A row or ring entry read as a source consumes its L mark only; C-poison propagates (22 R386, R388). -/
def Iss.readsRow (i : Iss) (m : Mark) : Iss :=
  match m with
  | .late t => { i with late := some (i.late.getD t) }
  | _ => i

/-- A scalar at its visible value; its poison is consumed under selector 0xC0 + n (22 R384, R388). -/
def Iss.s (i : Iss) (n : Nat) : Iss × BitVec 64 := (i.consumes (192 + n) (sMarkOf i.ctx n), readS i.ctx n)

/-- Add a shadow-record entry (R45) that lands `lat` context cycles after issue. -/
def Iss.add (i : Iss) (lat : Nat) (what : Land) (ring : Option Bool) (kind : Nat) : Iss :=
  { i with pends := i.pends ++ [(i.slot, { due := i.clock + lat, iss := i.clock, what := what, ring := ring, waits := none,
                                           note := eventOf kind i.g.addr i.slot, src := none, acq := false,
                                             check := if i.checked && ring.isSome then some ⟨6, i.g.addr, i.slot⟩ else none, struck := false })] }
def Iss.writeS (i : Iss) (lat n : Nat) (v : BitVec 64) : Iss := i.add lat (.scalar n v) none 0
def Iss.atEnd (i : Iss) (f : State → State) : Iss := { i with ends := i.ends ++ [f] }
def Iss.afterMark (i : Iss) (f : State → State) : Iss := { i with after := i.after ++ [f] }
def Iss.atLast (i : Iss) (f : State → State) : Iss := { i with last := i.last ++ [f] }

/-- A taken transfer (07 R136): it disarms every level (R142). -/
def Iss.jump (i : Iss) (a : Nat) : Iss := { i with next := some (true, a % 281474976710656) }

end Sys2Proof.Machine
end

