-- ==== Sys2Proof/Machine/Operands.lean ====
section
/-! DEFINITION. Machine/Operands.lean: the operand forms of the slots: queue pops, peeks and pushes, stream ports, rings and
broadcasts (05 R96, R97, 08 R144 to R148, 23 R400, R401, R403), and the operand size codes. -/

namespace Sys2Proof.Machine

/-! ## Banks (03 R49) -/

/-- An engine command that fills a queue of this context with rows in the bank is queued. -/
def bankInEngine (c : Ctx) (b : Nat) : Bool :=
  let cmds := c.eng.copy ++ c.eng.sfe
  cmds.any (fun m => m.desc.dsp == 8 &&
    (let q := qcfgOf c (m.desc.dbase % 64)
     q.cls == 2 && decide (q.base / 128 ≤ b) && decide (b ≤ (q.base + q.depth - 1) / 128)))

/-- The context a bank's owner code names: one of the core, or one in a context area. -/
def ownerCtx (s : State) (k o : Nat) : Ctx := if o < 9 then ctxOf s k (o - 1) else mapGet (coreOf s k).vrf.area Ctx.init ((o - 1) % 8)
/-- The demand for a bank that another context owns (R49): an exchange of 136 cycles begins once none is running and no engine
command fills the bank. A bank that no one owns, of which the context has an image, takes as long (log 83). -/
def demandBank (b : Nat) (s : State) : State :=
  let c := actCore s
  let o := bankOwner c.vrf b
  if c.vrf.exch.isSome || (decide (0 < o) && bankInEngine (ownerCtx s s.core o) b) then s
  else setActCore s { c with vrf := { c.vrf with exch := some ⟨s.cx, b, s.now + 136⟩ } }

/-- A context touches a row: its bank is taken when no one owns it, and demanded when another context does. -/
def Iss.touch (i : Iss) (r : Nat) : Except Halt Iss :=
  let c := i.core
  if bankFree c.vrf i.st.cx (r / 128) then .ok (i.setCore { c with vrf := claimBank c.vrf i.st.cx (r / 128) })
  else .error (.stall (demandBank (r / 128)))

/-! ## Queues (R52, R147, R401) -/

/-- Whether a queue can be popped or peeked: 0x08 when it is not configured; an empty core-fed queue traps and an empty engine-fed
one stalls. -/
def Iss.needRow (i : Iss) (q n : Nat) : Except Halt Unit :=
  let cfg := qcfgOf i.ctx q
  if cfg.cls = 0 then trapNow 0x08 q
  else if n ≤ (qptrOf i.ctx q).count then .ok ()
  else if cfg.cls = 2 then stallNow
  else trapNow 0x06 q

/-- Move a queue's pointers past n rows; they stay held until the next restart point (22 R383). -/
def advance (c : Ctx) (q n : Nat) : Ctx :=
  let p := qptrOf c q
  let c := setQPtr c q ⟨(p.rd + n) % (qcfgOf c q).depth, p.count - n⟩
  if (qcfgOf c q).cls = 2 then { c with held := mapSet c.held 0 q (mapGet c.held 0 q + n) } else c

/-- Read the head row. -/
def Iss.headRow (i : Iss) (q : Nat) : Except Halt (Iss × Row) := do
  i.needRow q 1
  let r := rowAt i.ctx q 0
  let i ← i.touch r
  let v := vrfRead i.core.vrf i.st.cx r
  .ok (i.readsRow v.mark, v)
/-- A pop; one whose row an ATOMR reply with acquire filled acquires (12 R251). -/
def Iss.pop (i : Iss) (q : Nat) : Except Halt (Iss × Row) := do
  let a ← i.headRow q
  let r := rowAt i.ctx q 0
  let i := a.1.setCtx (advance a.1.ctx q 1)
  if i.ctx.acqRows.contains r then
    .ok ((i.setCtx { i.ctx with acqRows := i.ctx.acqRows.filter (fun b => b != r) }).atEnd (fun s => dropLines s s.core s.cx), a.2)
  else .ok (i, a.2)

/-- The next vector of an armed read port (11 R229, 23 R403). -/
def Iss.takePort (i : Iss) (g : Nat) : Except Halt (Iss × Row) :=
  let p := portOf i.ctx g
  if !p.armed || p.write then trapNow 0x0A g
  else
    match p.got with
    | [] => stallNow
    | v :: rest =>
      .ok ((i.setCtx (setPort i.ctx g { p with got := rest, pos := p.pos + 1, armed := decide (p.pos + 1 < walkLength p.cnts) })).readsRow v.mark, v)

/-- Repeat the low b bits of a value n times. -/
def repeatBits (b n v : Nat) : Nat :=
  match n with
  | 0 => 0
  | n + 1 => v % 2 ^ b + 2 ^ b * repeatBits b n v

/-- A scalar broadcast (R144): b bits of S[x] in each of n elements; a complex FP64 element has a zero imaginary part. -/
def broadcast (b n : Nat) (v : BitVec 64) : Nat := repeatBits b n (v.toNat % 2 ^ (Nat.min b 64))

/-- The source selectors of a syllable in field order: a peek of a queue the syllable has popped reads the popped row (R96). -/
def Iss.sources (i : Iss) (b n : Nat) (sels : List Nat) (seen : List (Nat × Row)) : Except Halt (Iss × List Row) :=
  match sels with
  | [] => .ok (i, [])
  | sel :: rest => do
    let one : Iss × Row ← (
      if sel < 64 then i.pop sel
      else if sel < 128 then
        match seen.find? (fun p => p.1 == sel - 64) with
        | some p => .ok (i, p.2)
        | none => i.headRow (sel - 64)
      else if sel < 136 then i.takePort (sel - 128)
      else if sel < 144 then .ok (i, ringOf i.ctx false (sel - 136))
      else if sel < 152 then .ok (i, ringOf i.ctx true (sel - 144))
      else
        let v := i.s (sel - 192)
        .ok (v.1, ⟨BitVec.ofNat 1024 (broadcast b n v.2), .clean⟩))
    let tail ← one.1.sources b n rest (if sel < 64 then (sel, one.2) :: seen else seen)
    .ok (tail.1, one.2 :: tail.2)

/-- A row that carries C-poison. -/
def Row.isBad (r : Row) : Bool := r.mark == .corrupt
/-- The mark of a result: C when any source row is C-poisoned (22 R386). -/
def markOf (rows : List Row) : Mark := if rows.any Row.isBad then .corrupt else .clean

/-- Rows of a queue after the group's pops, with the rows already claimed and pushed (R147, R401). -/
def Iss.rowsAfter (i : Iss) (q : Nat) : Nat :=
  (qptrOf i.c0 q).count - (i.pops.filter (fun p => p.1 == q)).foldl (fun n p => n + p.2) 0
    + (if (qcfgOf i.c0 q).cls = 2 then claimedRows i.c0 q else 0)
    + (i.pushed.filter (fun p => p == q)).length

/-- Claim the row of a push: 0x08 when not configured; a full core-fed queue traps and a full engine-fed one stalls. -/
def Iss.claim (i : Iss) (q : Nat) : Except Halt (Iss × Nat) := do
  let cfg := qcfgOf i.c0 q
  if cfg.cls = 0 then trapNow 0x08 q
  else if cfg.depth ≤ i.rowsAfter q then (if cfg.cls = 2 then stallNow else trapNow 0x07 q)
  else
    let p := qptrOf i.c0 q
    let ahead := p.count + (if cfg.cls = 2 then claimedRows i.c0 q else 0) + (i.pushed.filter (fun a => a == q)).length
    let r := cfg.base + (p.rd + ahead) % cfg.depth
    let i ← i.touch r
    .ok ({ i with pushed := i.pushed ++ [q] }, r)

/-- Push a row whose data lands `lat` cycles after issue. -/
def Iss.push (i : Iss) (q lat : Nat) (v : Row) (ring : Option Bool) (kind : Nat) : Except Halt Iss := do
  let a ← i.claim q
  .ok (a.1.add lat (.row q a.2 v) ring kind)

/-- A vector result to its destination selector and to the ring of its slot (R97, R147, R148). -/
def Iss.result (i : Iss) (sel lat : Nat) (v : Row) (kind : Nat) : Except Halt Iss :=
  let ring := some (i.slot == 2)
  if sel < 64 then i.push sel lat v ring kind
  else if sel < 72 then
    let p := portOf i.ctx (sel - 64)
    if p.armed && p.write then .ok (i.add lat (.port (sel - 64) v) ring kind) else trapNow 0x0A (sel - 64)
  else .ok (i.add lat (.none v) ring kind)

/-! ## Elements (R144, R146) -/

/-- The element i of b bits of a vector. -/
def elem (b : Nat) (v : BitVec 1024) (i : Nat) : Nat := v.toNat / 2 ^ (b * i) % 2 ^ b
/-- Pack elements of b bits, element 0 lowest. -/
def packElems (b : Nat) (es : List Nat) : Nat :=
  match es with
  | [] => 0
  | e :: rest => e % 2 ^ b + 2 ^ b * packElems b rest
def packRow (b : Nat) (es : List Nat) : BitVec 1024 := BitVec.ofNat 1024 (packElems b es)
/-- Operation width in bits: W code 0, 1, 2 (R98). -/
def widthOf (w : Nat) : Nat := 256 * 2 ^ w
/-- Element i is active under the mask field msk: bit floor(m·i / 8) of the mask (R146). -/
def activeElem (c : Ctx) (msk m i : Nat) : Bool := msk < 16 || (readE c (msk % 16)).getLsbD (m * i / 8)

/-! ## Size codes (11 R216) -/

/-- Bytes of a size code and the alignment it requires. -/
def sizeBytes (sz : Nat) : Nat := match sz with | 4 => 32 | 5 => 64 | 6 => 128 | n => 2 ^ n
def sizeAlign (sz : Nat) : Nat := if sz < 4 then 2 ^ sz else 32
/-- Unit of the address immediate. -/
def sizeUnit (sz : Nat) : Nat := if sz < 4 then 2 ^ sz else 32
/-- S[so] + sign_extend(imm12) × unit, as `bits` address bits. -/
def offsetOf (base : BitVec 64) (imm unit bits : Nat) : Nat := wrap bits ((base.toNat : Int) + signed 12 imm * unit)

end Sys2Proof.Machine
end

