-- ==== Sys2Proof/Machine/Reads.lean ====
section
/-! DEFINITION. Machine/Reads.lean: what an instruction reads: its source selectors (05 R96) and the registers whose code is checked as they are
read (24 R421, 23 R396); and the operations that residues check (22 R392). -/

namespace Sys2Proof.Machine

/-- The source selectors an instruction reads, in field order (R96, R145). -/
def sourcesOf (i : Instr) : List Nat :=
  match i with
  | .vadd _ _ f | .vsub _ _ f | .vmul _ _ f | .vmin _ _ f | .vmax _ _ f | .vcmp _ _ f | .vand _ _ f | .vor _ _ f | .vxor _ _ f
  | .vshl _ _ f | .vshr _ _ f | .vsra _ _ f | .vdot _ _ f | .vcmul _ _ f | .vsel _ _ f | .vscl _ _ f => [f.va, f.vb]
  | .vperm _ f => [f.va, f.vb]
  | .vabs _ _ f | .vneg _ _ f | .vrnd _ _ f | .vsum _ _ f | .vmaxr _ _ f | .vconj _ _ f => [f.va]
  | .vrcp _ f | .vrsq _ f | .vexp2 _ f | .vlog2 _ f => [f.va]
  | .vmov _ _ f => if 16 ≤ f.msk && f.z = 0 then [f.va, f.vb] else [f.va]
  | .vfma _ _ f | .vfms _ _ f | .vfnma _ _ f | .vcma _ _ f | .vimad _ _ f => [f.va, f.vb, f.vc]
  | .vcvt _ _ f | .vsat _ _ f => [f.va]
  | .vpack _ f | .vunpk _ f => [f.va]
  | .vshuf _ f => [f.va]
  | .vbcast _ _ f => [f.va]
  | .stv _ f => [f.ds]
  | .stb _ f => if 4 ≤ f.sz then [f.ds] else []
  | .str _ f => if 4 ≤ f.fn / 4096 % 8 then [f.ds] else []
  | _ => []

/-- Scalars as read; s0 is no register (03 R47). -/
def sReads (ns : List Nat) : List (Nat × Nat) := (ns.filter (fun n => n != 0)).map (fun n => (0, n))
/-- The lane mask of a mask field (R146), and the capability of an ARG field (12 R241). -/
def maskRead (msk : Nat) : List (Nat × Nat) := if msk < 16 then [] else [(3, msk % 16)]
def argRead (f : YX) : List (Nat × Nat) := if 32 ≤ f.xc then [(2, f.xc % 16)] else []
/-- Registers an instruction's fields read, by kind (0 scalar, 1 predicate, 2 capability, 3 lane mask) and number. PREF, FENCE and SPSTOP never
trap (11 R236): a failed read of theirs counts as none. -/
def fieldReads (i : Instr) : List (Nat × Nat) :=
  match i with
  | .add _ f | .sub _ f | .mul _ f | .mulh _ f | .mulhu _ f | .div _ f | .divu _ f | .rem _ f | .remu _ f | .and _ f | .or _ f | .xor _ f
  | .andn _ f | .shlReg _ f | .shrReg _ f | .sraReg _ f | .rotReg _ f | .bext _ f | .bdep _ f | .min _ f | .max _ f | .minu _ f | .maxu _ f
  | .sfadd _ f | .sfmul _ f => sReads [f.sa, f.sb]
  | .shlImm _ f | .shrImm _ f | .sraImm _ f | .rotImm _ f | .clz _ f | .ctz _ f | .popc _ f | .sext _ f | .zext _ f | .sfcvt _ f => sReads [f.sa]
  | .addi _ f => sReads [f.sa]
  | .sel _ f => (1, f.fn % 64) :: sReads [f.sa, f.sb]
  | .sfma _ f => sReads [f.sa, f.sb, f.fn / 2048]
  | .lih _ f => sReads [f.sd]
  | .cmpReg _ f | .tstbReg _ f | .sfcmp _ f => sReads [f.xa, f.xb]
  | .cmpImm _ f | .tstbImm _ f => sReads [f.xa]
  | .pand _ f | .por _ f | .pxor _ f => [(1, f.xa), (1, f.xb)]
  | .pnot _ f | .pmov _ f => [(1, f.xa)]
  | .cderive _ f | .csetb _ f | .ctest _ f => (2, f.ca) :: sReads [f.sa, f.sb]
  | .crights _ f | .cget _ f => [(2, f.ca)]
  | .movts _ f | .qcfgWrite _ f | .syncpartWrite _ f | .feclrWrite _ f | .srseedWrite _ f => sReads [f.sd]
  | .vadd _ _ f | .vsub _ _ f | .vmul _ _ f | .vmin _ _ f | .vmax _ _ f | .vabs _ _ f | .vneg _ _ f | .vand _ _ f | .vor _ _ f
  | .vxor _ _ f | .vshl _ _ f | .vshr _ _ f | .vsra _ _ f | .vrnd _ _ f | .vsum _ _ f | .vmaxr _ _ f | .vdot _ _ f | .vcmul _ _ f
  | .vconj _ _ f | .vsel _ _ f | .vmov _ _ f | .vscl _ _ f | .vcmp _ _ f => maskRead f.msk
  | .vrcp _ f | .vrsq _ f | .vexp2 _ f | .vlog2 _ f | .vperm _ f => maskRead f.msk
  | .vcvt _ _ f | .vsat _ _ f => maskRead f.msk
  | .vpack _ f | .vunpk _ f => maskRead f.msk
  | .vmset _ _ f => sReads [f.sd]
  | .vmand _ _ f | .vmor _ _ f => [(3, f.ea), (3, f.eb)]
  | .vmnot _ _ f | .vmcnt _ _ f | .vmfirst _ _ f => [(3, f.ea)]
  | .mma _ f | .mmaz _ f | .mmas _ f => (if f.skip = 1 then [(3, f.em)] else []) ++ sReads [f.sa, f.sb]
  | .mwld _ f | .mwpf _ f => sReads [f.sa]
  | .mnest _ f => sReads [f.sa]
  | .mred _ f => sReads [f.sa]
  | .lds _ f | .ldv _ f | .ldx _ f | .ldf _ f => (2, f.cb) :: sReads [f.so]
  | .ldb _ f => sReads [f.so]
  | .sts _ f => (2, f.cb) :: sReads [f.ds % 64, f.so]
  | .stv _ f => (2, f.cb) :: sReads [f.so]
  | .stx _ f => [(2, f.ds % 16), (2, f.cb)] ++ sReads [f.so]
  | .stb _ f => sReads (if f.sz < 4 then [f.ds % 64, f.so] else [f.so])
  | .sparm _ f => sReads [f.sa]
  | .rngwait _ f | .rngwaitProd _ f | .rngadv _ f | .rngpub _ f | .fscqReg _ f => sReads [f.sa]
  | .fscqWait _ f => sReads (if f.imm / 64 % 2 = 1 then [f.sa] else [])
  | .ldr _ f | .ldrw _ f => (2, f.cb) :: sReads [f.so]
  | .str _ f => (2, f.cb) :: sReads (if f.fn / 4096 % 8 < 4 then [f.ds % 64, f.so] else [f.so])
  | .atom _ f => (2, f.cb) :: sReads (if f.fn % 16 = 9 then [f.ds % 64, f.ds % 64 + 1, f.so] else [f.ds % 64, f.so])
  | .atomr _ f => (2, f.cb) :: sReads (if f.fn % 16 = 9 then [f.fn / 1024, f.fn / 1024 + 1, f.so] else [f.fn / 1024, f.so])
  | .fencef _ f => (2, f.imm / 65536 % 16) :: sReads [f.sa, f.sb]
  | .arrexp _ f | .arrive _ f | .arriveWait _ f => (2, f.imm / 4194304 % 16) :: sReads [f.sa, f.sb]
  | .cpy _ f | .cpyrGet _ f | .cpyrPut _ f | .subsLd _ f | .subsSt _ f | .gqpush _ f => (2, f.cb) :: sReads [f.sa, f.sb]
  | .sfe _ f | .send _ f => sReads [f.sa, f.sb]
  | .coll _ f => [(2, f.cb)] ++ sReads [f.sa]
  | .unsub _ f | .drain _ f | .ckmark _ f => sReads [f.sa]
  | .ret _ f | .jmpi _ f | .loopReg _ f | .waitsReg _ f | .tsignal _ f | .tcancelReg _ f | .tprioReg _ f | .wchooseImm _ f | .wdone _ f => sReads [f.xa]
  | .brt _ t0 t1 t2 t3 _ _ _ _ => [t0, t1, t2, t3].map (fun t => (1, t % 64))
  | .tspawn _ f | .tlvrecImm _ f => argRead f ++ sReads [f.xb]
  | .tsealImm _ f | .tlvrecReg _ f => argRead f ++ sReads [f.xa, f.xb]
  | .tsealReg _ f => argRead f ++ sReads [f.xa, f.xb, f.fn % 64]
  | .wchooseReg _ f | .otinv _ f => sReads [f.xa, f.xb]
  | .wtagQuery _ f | .ertq _ f => sReads [f.xb]
  | .ctxsave _ f | .restore _ f => (2, f.fn / 16 % 16) :: sReads [f.xa]
  | _ => []
/-- All its reads, scalar broadcasts and the guard among them. -/
def readsOf (i : Instr) : List (Nat × Nat) :=
  sReads ((sourcesOf i).filterMap (fun q => if 192 ≤ q then some (q - 192) else none)) ++ fieldReads i
/-- Some register the syllable reads holds a value that an error has struck (24 R421). -/
def brokenRead (c : Ctx) (i : Instr) : Bool := !c.regs.broken.isEmpty && (readsOf i).any c.regs.broken.contains
/-- The guard's predicate holds such a value. -/
def brokenGuard (c : Ctx) (i : Instr) : Bool := c.regs.broken.contains (1, i.guard.pred)
/-- The products that the vector slots check by residues (22 R392). -/
def isChecked (i : Instr) : Bool :=
  match i with
  | .vmul _ _ _ | .vcmul _ _ _ | .vdot _ _ _ | .vfma _ _ _ | .vfms _ _ _ | .vfnma _ _ _ | .vcma _ _ _ | .vimad _ _ _ => true
  | _ => false

end Sys2Proof.Machine
end

