-- ==== Sys2Proof/Machine/Issue.lean ====
section
/-! DEFINITION. Machine/Issue.lean: how an issue group issues (05 R85 to R95, 07 R136 to R143, 23 R396 to R399): its marks and
structural stalls, the evaluation of its syllables in slot order, the trap or rollback it takes, and its completion. -/

namespace Sys2Proof.Machine

/-! ## What the instructions are to the issue logic -/

/-- Groups whose boundary before them is a restart mark (R214, R226, 11 R220, 12 R262, 22 R383). -/
def marksBefore (i : Instr) : Bool :=
  match i with
  | .fence _ _ | .fencef _ _ | .arrive _ _ | .arriveWait _ _ | .arrexp _ _ | .rngpub _ _ | .rngadv _ _ | .atom _ _
  | .movts _ _ | .qcfgWrite _ _ | .syncpartWrite _ _ | .feclrWrite _ _ | .srseedWrite _ _ | .otinv _ _ => true
  | _ => false

/-- Groups that are restart marks themselves (R87, R226, 22 R383). -/
def marksAfter (i : Instr) : Bool :=
  match i with
  | .arrive _ _ | .arriveWait _ _ | .arrexp _ _ | .rngpub _ _ | .rngadv _ _ | .atom _ _
  | .movts _ _ | .qcfgWrite _ _ | .syncpartWrite _ _ | .feclrWrite _ _ | .srseedWrite _ _
  | .cpy _ _ | .cpyrGet _ _ | .cpyrPut _ _ | .subsLd _ _ | .subsSt _ _ | .unsub _ _ | .drain _ _ | .sfe _ _ | .gqpush _ _
  | .coll _ _ | .send _ _ | .ckmark _ _ | .str _ _ | .atomr _ _
  | .tspawn _ _ | .tjoin _ _ | .tsealImm _ _ | .tsealReg _ _ | .tsignal _ _ | .texit _ _ | .tcancelImm _ _ | .tcancelReg _ _
  | .tprioImm _ _ | .tprioReg _ _ | .tlvrecImm _ _ | .tlvrecReg _ _ | .wfork _ _ | .wchooseImm _ _ | .wchooseReg _ _
  | .wdone _ _ | .wdiscard _ _ | .wtagOwn _ _ | .wtagQuery _ _
  | .mma _ _ | .mmaz _ _ | .mmas _ _ | .mwld _ _ | .mwpf _ _ | .mnest _ _ | .mzero _ _ | .macc _ _ | .mtrn _ _ | .mred _ _
  | .mcvt _ _ => true
  | _ => false

/-- Shadow-record entries an instruction can add (R398). -/
def writesOf (i : Instr) : Nat :=
  match i with
  | .movts _ _ | .qcfgWrite _ _ | .syncpartWrite _ _ | .feclrWrite _ _ | .srseedWrite _ _ | .qadv _ _ _ => 0
  | .lds _ _ | .ldv _ _ | .ldb _ _ | .ldx _ _ | .ldf _ _ | .ldr _ _ | .rngwait _ _ | .rngwaitProd _ _ | .fscq _ _ | .fscqReg _ _
  | .fscqWait _ _ | .atom _ _ | .mcfg _ _ | .call _ _ | .tspawn _ _ | .tjoin _ _ | .wfork _ _ | .wtagOwn _ _ | .wtagQuery _ _
  | .ertq _ _ => 1
  | .hint _ _ _ => 0
  | j => if j.slot < 3 then 1 else 0

/-- Entries of the gated store buffer an instruction takes (R214). -/
def storesOf (i : Instr) : Nat :=
  match i with
  | .sts _ _ | .stv _ _ | .stb _ _ | .stx _ _ | .str _ _ => 1
  | _ => 0

/-- The instruction enters the MX queue, or the weight-loader queue (09 R166). -/
def entersMx (i : Instr) : Bool :=
  match i with
  | .mma _ _ | .mmaz _ _ | .mmas _ _ | .mnest _ _ | .mzero _ _ | .macc _ _ | .mtrn _ _ | .mred _ _ | .mcvt _ _ => true
  | _ => false
def entersLoader (i : Instr) : Bool :=
  match i with
  | .mwld _ _ | .mwpf _ _ => true
  | _ => false

/-- The pops an instruction makes, as queue and number of rows (R147). -/
def popsOf (i : Instr) : List (Nat × Nat) :=
  match i with
  | .qadv _ _ f => [(f.qn, f.cnt)]
  | j => ((sourcesOf j).filter (fun sel => sel < 64)).map (fun q => (q, 1))

/-- Instructions of a feature that may be off (18 R352): 0x01. -/
def worldInstr (i : Instr) : Bool :=
  match i with
  | .wfork _ _ | .wchooseImm _ _ | .wchooseReg _ _ | .wdone _ _ | .wdiscard _ _ | .wtagOwn _ _ | .wtagQuery _ _ => true
  | _ => false

/-- Instructions of handler mode (R394): ERET, CTXSAVE, RESTORE, HALT, and MOVTS to TVEC or REPLAYV. -/
def handlerInstr (i : Instr) : Bool :=
  match i with
  | .eret _ _ | .ctxsave _ _ | .restore _ _ | .halt _ _ => true
  | .movts _ f => f.num == 4 || f.num == 5
  | _ => false

/-- The checks of decoding that depend on the state: 0x01 for a feature that is off, 0x05 outside handler mode, as cause and slot
and EINFO. -/
def stateFault (s : State) (is : List Instr) : Option (Nat × Nat × Nat) :=
  match is.find? (fun i => (worldInstr i && !feature s s.core s.cx 3) || (handlerInstr i && !(actCtx s).sp.hmode)) with
  | none => none
  | some i => some (if worldInstr i then 0x01 else 0x05, i.slot, if worldInstr i then i.syllable else 0)

/-! ## Leaving issue, reports, occupancy -/

/-- Garod reports an event to the host (22 R376, class E, and R382, R393). -/
def report (s : State) (cause detail : Nat) : State := { s with out := { s.out with pldm := s.out.pldm ++ [(cause, detail)] } }

/-- A context leaves issue (R214): its stores are released, its restart point moves up, and no context holds issue. -/
def leaveIssue (s : State) (k x : Nat) : State :=
  let s := markHere s k x
  let c := coreOf s k
  if c.holder = some x then setCore s k { c with holder := none, exchLeft := 4, heldOff := 0, syncWait := none } else s

/-- The phase identifier of a context's task (14 R288). -/
def phaseOf (s : State) (k x : Nat) : Nat :=
  match (ctxOf s k x).task with
  | some (d, r) => (taskOf s d r).phase
  | none => 0
/-- Cycles before `t` in which the core had no turn are IDLE cycles of its last phase (14 R288). -/
def countMissed (s : State) (k t : Nat) : State :=
  let c := coreOf s k
  let n := t - Nat.max c.counted (dieOf s (dieOfCore k)).idleFrom
  let o := mapGet c.occ Occ.init c.lastPhase
  setCore s k { c with occ := if n = 0 then c.occ else mapSet c.occ Occ.init c.lastPhase { o with idle := o.idle + n }, counted := Nat.max c.counted t }
/-- Count a BUSY (true) or STALL cycle of the acting context's phase (R288); stalled cycles move the die's counters (02 R37). -/
def countCycle (s : State) (busy : Bool) : State :=
  let s := countMissed s s.core s.now
  let p := phaseOf s s.core s.cx
  let c := actCore s
  let o := mapGet c.occ Occ.init p
  let s := setActCore s { c with occ := mapSet c.occ Occ.init p (if busy then { o with busy := o.busy + 1 } else { o with stall := o.stall + 1 }),
                                 lastPhase := p, counted := s.now + 1 }
  if busy then s else let d := dieOf s (dieOfCore s.core); setDie s (dieOfCore s.core) { d with stallSum := d.stallSum + 1 }

/-- Level counters by job, level (0 launch, 1 graph, 2 phase, 3 job) and identifier (02 R24, 12 R244). -/
def levelKey (job lvl id : Nat) : Nat :=
  (job * 4 + lvl) * 65536 + (match lvl with | 0 => id % 65536 | 1 => id % 4096 | 2 => id % 256 | _ => 0)
def levelsOfRec (r : TaskRec) : List Nat :=
  [levelKey r.job 0 r.launch, levelKey r.job 1 r.graph, levelKey r.job 2 r.phase, levelKey r.job 3 0]
/-- A level of the record is cancelled (R25), or its world was discarded (17 R343). -/
def recCancelled (s : State) (r : TaskRec) : Bool :=
  (levelsOfRec r).any (fun k => (mapGet s.levels LevelCtr.init k).cancel)
    || (decide (r.world ≠ 0) && (worldOf s r.world).state == .discarded)
def taskCancelled (s : State) (c : Ctx) : Bool :=
  match c.task with
  | some (d, r) => recCancelled s (taskOf s d r)
  | none => false
/-- The context's task begins to end (R243): it issues no more. -/
def beginEnd (s : State) (k x : Nat) : State :=
  let s := leaveIssue s k x
  setCtx s k x { ctxOf s k x with status := .ending, toRun := false, merging := none }
/-- Halt (07 R143). -/
def haltHere (s : State) (k x : Nat) : State :=
  let s := leaveIssue s k x
  setCtx s k x (haltCtx (ctxOf s k x))

/-! ## Traps of a group -/

/-- A cycle passes in which the context waits for its handler's first group (R379); it counts as STALL. -/
def holdTick (s : State) (k x : Nat) : State :=
  let c := ctxOf s k x
  tick (setCtx s k x { c with hold := c.hold - 1 }) k x

/-- A trap is entered at `addr` (R379); in handler mode a precise trap halts the context there (R382). -/
def trapEntry (s : State) (k x cause addr : Nat) (slot : Option Nat) (info : Nat) : State :=
  if (ctxOf s k x).sp.hmode then
    let s := report s cause info
    haltHere (setCtx s k x { ctxOf s k x with pc := addr }) k x
  else
    let s := releaseStores s k x
    let co := coreOf s k
    setCtx s k x (enterTrap (ctxOf s k x) co.tvec co.replayv cause addr slot info)
/-- A trap of the group that holds issue, in a cycle that counts as STALL; where it halts the context, the clock stands (log 44). -/
def takeTrap (s : State) (k x cause addr : Nat) (slot : Option Nat) (info : Nat) : State :=
  let s := countCycle s false
  let halts := (ctxOf s k x).sp.hmode
  let s := trapEntry s k x cause addr slot info
  if halts then s else holdTick s k x

/-- The pool entry a fill takes (24 R416): PBN at FPBASE + 4 × (FPCNT − 1). -/
def takePool (s : State) (d : Nat) : State × Nat :=
  let die := dieOf s d
  let n := regRaw die 0x3008
  let pbn := leVal (getBytes s.mem (regRaw die 0x3000 + 4 * (n - 1)) 4)
  (setDie s d (setReg die 0x3008 (n - 1)), pbn % 16777216)

/-- A context waits for the fill of a block: the running one, or a new one. -/
def joinFill (s : State) (k x leaf d blk base info : Nat) : State :=
  let mine : FillKind → Bool := fun f => match f with | .extent l _ _ _ _ => l == leaf | _ => false
  if s.fills.any (fun f => mine f.kind) then
    { s with fills := s.fills.map (fun f =>
        match f.kind with
        | .extent l e p q w => if l == leaf then { f with kind := .extent l e p q (w ++ [(k, x)]) } else f
        | _ => f) }
  else
    let t := takePool s d
    { t.1 with fills := t.1.fills ++ [⟨.extent leaf d t.2 info [(k, x)], blk, base, 0, 0⟩] }

/-- An access stopped at an entry outside the partition, bit 62 of its EINFO: Garod logs it for the host (24 R415). -/
def logOutside (s : State) (cause info : Nat) : State :=
  if (cause = 0x13 || cause = 0x14) && field info 62 1 = 1 then report s 0x106 (info % 4611686018427387904) else s

/-- Class R (R383): gated stores are discarded and the context returns to its restart point; with a fill possible it waits for the
fill, otherwise it traps with EPC at the restart point. In handler mode it halts at the group (R382). -/
def takeRollback (s : State) (k x cause addr info : Nat) (fill : Option (Nat × Nat × Nat × Nat)) : State :=
  let s := logOutside s cause info
  if (ctxOf s k x).sp.hmode then takeTrap s k x cause addr none info
  else
    let c := coreOf s k
    let s := setCore s k { c with ms := { c.ms with gated := c.ms.gated.filter (fun t => t.ctx != x) } }
    let s := setCtx s k x (rollback (ctxOf s k x))
    match fill with
    | some (leaf, d, blk, base) =>
      let s := leaveIssue (countCycle s false) k x
      joinFill (setCtx s k x { ctxOf s k x with status := .filling, toRun := false }) k x leaf d blk base info
    | none => takeTrap s k x cause (ctxOf s k x).pc none info

/-! ## Stalls -/

/-- A cycle in which the group stands at issue and does not issue (R43, R288). -/
def stallCycle (s : State) : State :=
  let s := countCycle s false
  let c := actCtx s
  tick (setAct s { c with stalled := c.stalled + 1 }) s.core s.cx

/-- The gated store buffer is full, or has no room for the group's stores: a mark is placed before the group (10 R214). -/
def bufferFull (s : State) (is : List Instr) : Bool :=
  decide (63 < (actCore s).ms.gated.length) || decide (64 < (actCore s).ms.gated.length + (is.map storesOf).foldl (· + ·) 0)
/-- A result on its way to a write port of the A or S buffer: a write of it that is not performed (05 R89). -/
def portWrite (c : Ctx) (p : Pend) : Bool := match p.what with | .port g _ => (portOf c g).buf == 1 || (portOf c g).buf == 3 | _ => false
/-- The structural conditions of R398 that hold back the group, in the state its marks leave. -/
def structural (s : State) (g : GInfo) (is : List Instr) : Bool :=
  let c := actCtx s
  let m := actCore s
  decide (128 < c.regs.shadow.length + (is.map writesOf).foldl (· + ·) 0)
    || (is.any entersMx && decide (8 ≤ m.mx.q.length))
    || (is.any entersLoader && decide (4 ≤ loaderEntries m) && !m.mx.wl.any (fun w => w.waitFor && w.ctx == s.cx))
    || decide (64 < m.ms.gated.length + (is.map storesOf).foldl (· + ·) 0)
    || (g.join && (m.ms.released.any (fun t => t.ctx == s.cx && (isBuf 1 t || isBuf 3 t)) || c.regs.shadow.any (portWrite c)))

/-- Entries of the object-table cache whose reads have arrived (24 R414). -/
def settleObjects (s : State) : State :=
  let c := actCore s
  let done := c.ms.objWait.filter (fun p => p.2 ≤ s.now)
  if done.isEmpty then s
  else setActCore s { c with ms := { c.ms with objCache := c.ms.objCache ++ done.map (·.1),
                                               objWait := c.ms.objWait.filter (fun p => s.now < p.2) } }

/-! ## Evaluation -/

/-- A syllable of the group: its instruction and its meaning. -/
structure Syl where
  instr : Instr
  op : Op

/-- The value of a condition test: [5:0] predicate, [6] sense (R93). -/
def testOf (c : Ctx) (t : Nat) : Bool := readP c (t % 64) != decide (64 ≤ t)

/-- The leaf a branch tree takes (R93). -/
def treeLeaf (c : Ctx) (shape t0 t1 t2 t3 : Nat) : Nat :=
  let a := testOf c t0
  let b := testOf c t1
  let d := testOf c t2
  let e := testOf c t3
  match shape with
  | 1 => if a then 1 else 0
  | 2 => if a then 1 else if b then 2 else 0
  | 3 => if a then 1 else if b then 2 else if d then 3 else 0
  | 4 => if a then 1 else if b then 2 else if d then 3 else if e then 4 else 0
  | 5 => if a then (if b then 1 else 2) else if d then 3 else 0
  | 6 => if a then (if b then 1 else 2) else if d then 3 else if e then 4 else 0
  | _ => 0
def leafOf (c : Ctx) (is : List Instr) : Nat :=
  (is.findSome? (fun i => match i with | .brt sh t0 t1 t2 t3 _ _ _ _ => some (treeLeaf c sh t0 t1 t2 t3) | _ => none)).getD 0

/-- The syllable's path is taken and its guard true (R91). -/
def executes (c : Ctx) (leaf : Nat) (g : Guard) : Bool := (g.path == 7 || g.path == leaf) && (readP c g.pred != g.sense)

/-- The latest pending write to a predicate, those of the group itself among them (the example at 09 R182), as the cycle after its
issue. -/
def pendingPred (c : Ctx) (ps : List Pend) (n : Nat) : Option Nat :=
  if n = 0 then none
  else (((c.regs.shadow ++ ps).filter (fun p => match p.what with | .pred m _ => m == n | _ => false)).getLast?).map (·.iss + 1)

/-- Evaluate the syllables in slot order; the first that is stopped decides (R396). A failed register read comes first, poison is consumed last, 0x19 before
0x1A. -/
def evalSyls (i : Iss) (leaf : Nat) (ss : List Syl) : Except (Nat × Halt) Iss :=
  match ss with
  | [] => .ok i
  | s :: rest =>
    let slot := s.instr.slot
    let g := s.instr.guard
    let pend := if slot = 6 then pendingPred i.c0 (i.pends.map (·.2)) g.pred else none
    let path := g.path == 7 || g.path == leaf
    if path && pend.isNone && brokenGuard i.c0 s.instr then .error (slot, .trap 0x1F 0)
    else if !(path && (pend.isSome || executes i.c0 leaf g)) then evalSyls i leaf rest
    else if brokenRead i.c0 s.instr then .error (slot, .trap 0x1F 0)
    else
      let i := { i with slot := slot, syl := s.instr.syllable, checked := isChecked s.instr, corrupt := none, late := none, guard := pend.map (fun d => (d, g.pred, g.sense)) }
      match s.op i with
      | .error h => .error (slot, h)
      | .ok j =>
        match j.corrupt, j.late with
        | some c, _ => .error (slot, .trap 0x19 c)
        | none, some t => .error (slot, .late t)
        | none, none => evalSyls j leaf rest

/-- What a stopped group does. -/
def takeHalt (s : State) (addr slot : Nat) (h : Halt) : State :=
  match h with
  | .stall f => stallCycle (f s)
  | .trap cause info => takeTrap s s.core s.cx cause addr (some slot) info
  | .late info => takeTrap s s.core s.cx 0x1A addr (some slot) info
  | .back cause info fill => takeRollback s s.core s.cx cause addr info fill

/-! ## Completion -/

/-- Shadow-record entries in the order of R44: later bundles after earlier ones, slots in order. -/
def inOrder (order : List Nat) (ps : List (Nat × Pend)) : List Pend :=
  order.flatMap (fun n => (ps.filter (fun p => p.1 == n)).map (·.2))

/-- The pushes of core-fed queues count at issue (R52). -/
def countPushes (c : Ctx) (qs : List Nat) : Ctx :=
  qs.foldl (fun c q =>
    if (qcfgOf c q).cls = 2 then c else setQPtr c q { qptrOf c q with count := (qptrOf c q).count + 1 }) c

/-- The loop rule (R141) at a group whose last bundle is at `last`: the levels that end here, latest armed first. -/
def loopBack (c : Ctx) (last : Nat) (levels : List Armed) : Ctx × Option Nat :=
  match levels with
  | [] => (c, none)
  | l :: rest =>
    if l.last ≠ last then loopBack c last rest
    else
      let n := mapGet c.regs.nest 0 l.lvl - 1
      let c := { c with regs := { c.regs with nest := mapSet c.regs.nest 0 l.lvl n } }
      if 0 < n then (c, some l.start)
      else loopBack { c with regs := { c.regs with armed := c.regs.armed.filter (fun a => a != l) } } last rest

/-- The next group (R86, R136, R141, R142): a taken transfer disarms every level; otherwise the loop rule, then the choice of
LOOP, then the fall-through. -/
def nextPc (c : Ctx) (g : GInfo) (next : Option (Bool × Nat)) : Ctx :=
  match next with
  | some (true, a) => { c with pc := a, regs := { c.regs with armed := [] } }
  | n =>
    let r := loopBack c g.last c.regs.armed.reverse
    let here := c.regs.armed.any (fun l => l.last == g.last)
    { r.1 with pc := r.2.getD (if here then g.fall else (n.map (·.2)).getD g.fall) }

/-- Garod finishes a command it has held since an earlier cycle (18 R353). -/
def finishCommand (s : State) (r : Nat) : State := { s with ga := { s.ga with busy := false, result := r, cmd := none, cleared := s.now + 1 } }
/-- After the group of a single step the context halts again, or an ERET leaves 0x0F pending (22 R378). -/
def stepDone (s : State) (k x : Nat) (stop : Stop) (eret : Bool) : State :=
  let c := ctxOf s k x
  if !c.stepMark || stop == .exit then s
  else
    let s := finishCommand (setCtx s k x { c with stepMark := false }) 0
    if eret then setCtx s k x (raiseA (ctxOf s k x) 0x0F 0) else haltHere s k x

/-- The end of a stretch (R30): the context leaves issue; its task ends there under cancel (R25), but not in handler mode (26
R444). A TCANCEL of the same cycle still ends it there (R26). -/
def endStretch (s : State) (k x : Nat) : State :=
  let s := leaveIssue s k x
  let c := ctxOf s k x
  if taskCancelled s c && !c.sp.hmode then beginEnd s k x else setCtx s k x { c with yielded := s.now + 1 }

/-- How the context goes on. -/
def stopGroup (s : State) (k x : Nat) (stop : Stop) : State :=
  match stop with
  | .run => s
  | .stretch => endStretch s k x
  | .exit => beginEnd s k x
  | .halt => if taskCancelled s (ctxOf s k x) then beginEnd s k x else haltHere s k x
  | .park _ => leaveIssue s k x

/-- The group issues: entries, pushes and deferred effects are made, the next group chosen, stores released at its mark, the cycle
passes, and the restart point moves behind a marked group. -/
def finishGroup (s : State) (i : Iss) (is : List Instr) : State :=
  let k := s.core
  let x := s.cx
  let mark := i.g.mark || is.any marksAfter
  let c := i.ctx
  let c := countPushes { c with regs := { c.regs with shadow := c.regs.shadow ++ inOrder i.g.order i.pends } } i.pushed
  let s := i.ends.foldl (fun s f => f s) (setAct i.st c)
  let s := setCtx s k x (nextPc (ctxOf s k x) i.g i.next)
  let s := if mark then releaseStores s k x else s
  let s := i.after.foldl (fun s f => f s) s
  let s := countCycle s true
  let s := tick (setCtx s k x { ctxOf s k x with stalled := 0, ringWait := 0, slotWait := 0 }) k x
  let s := i.last.foldl (fun s f => f s) s
  let s := if mark then setCtx s k x (placeMark (ctxOf s k x)) else s
  let stop := if i.g.yield && i.stop == .run then .stretch else i.stop
  let s := stopGroup s k x stop
  stepDone s k x stop (is.any (fun j => match j with | .eret _ _ => true | _ => false))

/-- A level ends inside the group, at a bundle that is not its last (23 R404). -/
def brokenLevel (c : Ctx) (g : GInfo) : Option Armed :=
  c.regs.armed.find? (fun l => decide (g.addr ≤ l.last) && decide (l.last < g.last))

/-- The draws of an MCVT under `.sr` that begins as it issues come before those of its group (04 R72). -/
def preDraw (s : State) (runs : List Instr) : State :=
  runs.foldl (fun s j =>
    match j with
    | .mcvt _ f =>
      let c := actCore s
      if f.rm = 4 && c.mx.q.isEmpty then
        setActCore s { c with gen := (mcvtRows s s.core (actCtx s).sp.flush f.fmt 4 (f.fn % 2 = 1) f.acc c.gen).2.2 }
      else s
    | _ => s) s

/-- One cycle of the group at issue. -/
def issueGroup (s : State) (g : GInfo) (ss : List Syl) : State :=
  let is := ss.map (·.instr)
  let k := s.core
  let x := s.cx
  match stateFault s is with
  | some (cause, slot, info) => takeTrap s k x cause g.addr (some slot) info
  | none =>
    let s := settleObjects s
    let before := g.join || is.any marksBefore
    let full := bufferFull s is
    if (before || full || g.mark || is.any marksAfter) && decide (s.now < (actCtx s).resolved) then stallCycle s
    else
      let s := if before || full then markHere s k x else s
      if structural s g is then stallCycle s
      else
        match brokenLevel (actCtx s) g with
        | some l =>
          let c := actCtx s
          takeTrap (setAct s { c with regs := { c.regs with armed := c.regs.armed.filter (fun a => a != l) } }) k x 0x0B g.addr none l.lvl
        | none =>
          let c := actCtx s
          let leaf := leafOf c is
          let runs := is.filter (fun j => executes c leaf j.guard)
          let i : Iss := { st := preDraw s runs, c0 := c, g := g, slot := 0, syl := 0, checked := false, pends := [], pushed := [], pops := runs.flatMap popsOf, ends := [],
                           after := [], last := [], next := none, stop := .run, corrupt := none, late := none, guard := none, port := none,
                           wait := none, seed := (actCore s).gen, seq0 := (actCore s).ms.seq }
          match evalSyls i leaf ss with
          | .error (slot, h) => takeHalt s g.addr slot h
          | .ok j =>
            match j.wait, j.port with
            | some f, _ => stallCycle (f s)
            | none, some (cause, info, fill) => takeRollback s k x cause g.addr info fill
            | none, none => finishGroup s j is

/-- The group of one instruction in a bundle of its own: 16 bytes at the context's pc (R81, R85). -/
def soloGroup (pc : Nat) (i : Instr) : GInfo :=
  { addr := pc, last := pc, sy := pc, fall := (pc + 16) % 281474976710656, mark := false, yield := false, join := false, order := [i.slot] }

/-- A syllable's instruction issues as a group of its own. -/
def issueSyl (i : Instr) (op : Op) (s : State) : State := issueGroup s (soloGroup (actCtx s).pc i) [⟨i, op⟩]

end Sys2Proof.Machine
end

