-- ==== Sys2Proof/Machine/Tasks.lean ====
section
/-! DEFINITION. Machine/Tasks.lean: the task unit of a die as shared operations (02 R23 to R38, 14 R278 to R283, 26 R442, R443):
records, level counters, join counters, ready queues, what waits for an issuer's stores, and the event counters. -/

namespace Sys2Proof.Machine

/-! ## Records and counters -/

def setTasks (s : State) (d : Nat) (t : Tasks) : State := setDie s d { dieOf s d with tasks := t }
def setRec (s : State) (d r : Nat) (v : TaskRec) : State :=
  let t := (dieOf s d).tasks
  setTasks s d { t with recs := mapSet t.recs TaskRec.init r v }
def joinOf (s : State) (d j : Nat) : JoinCtr := mapGet (dieOf s d).tasks.joins JoinCtr.init j
def setJoin (s : State) (d j : Nat) (v : JoinCtr) : State :=
  let t := (dieOf s d).tasks
  setTasks s d { t with joins := mapSet t.joins JoinCtr.init j v }
/-- A record that is not FREE at the start of the cycle (R27): `order` of a freed record holds the cycle from which it is. -/
def recTaken (now : Nat) (r : TaskRec) : Bool := r.state != .free || decide (now < r.order)
/-- The lowest number from n upwards that no listed record takes. -/
def lowestFree {α : Type} (taken : α → Bool) (m : List (Nat × α)) (n : Nat) : Nat :=
  match m with
  | [] => n
  | (k, v) :: rest => if k < n then lowestFree taken rest n else if k = n && taken v then lowestFree taken rest (n + 1) else n
/-- The lowest FREE record of a die (R27), or none of its 16,384. -/
def freeRec (s : State) (d : Nat) : Option Nat :=
  let n := lowestFree (recTaken s.now) (dieOf s d).tasks.recs 0
  if n < 16384 then some n else none
/-- The lowest FREE join counter of a die (12 R242), or none of its 4,096. -/
def freeJoin (s : State) (d : Nat) : Option Nat :=
  let n := lowestFree (fun (j : JoinCtr) => j.state != .free) (dieOf s d).tasks.joins 0
  if n < 4096 then some n else none
/-- The number of FREE records of a die. -/
def freeCount (s : State) (d : Nat) : Nat := 16384 - ((dieOf s d).tasks.recs.filter (fun p => recTaken s.now p.2)).length

/-- A record goes back to FREE. -/
def freeRecord' (s : State) (d r : Nat) : State := setRec s d r { TaskRec.init with order := s.now + 1 }

/-! ## Placement (R27, 14 R282) -/

/-- CORE as a partition reads it: its own core, or the partition's first. -/
def coreIn (s : State) (d core : Nat) : Nat :=
  if sameGroup s d (dieOfCore core) && decide (core < 640) then core else 80 * ((groupDies s d).headD 0)
/-- The die whose table takes a record (12 R241). -/
def dieFor (s : State) (d scope core : Nat) : Nat := if scope = 0 then d else dieOfCore (coreIn s d core)
/-- The cores of a record's placement scope. -/
def scopeCores (s : State) (d : Nat) (r : TaskRec) : List Nat :=
  let c := coreIn s d r.core
  match r.scope with
  | 0 => (groupDies s d).flatMap (fun e => (List.range 80).map (fun i => 80 * e + i))
  | 1 => (List.range 80).map (fun i => 80 * dieOfCore c + i)
  | 2 => (List.range 8).map (fun i => 8 * (c / 8) + i)
  | _ => [c]
/-- Dormant contexts of a core. -/
def dormant (s : State) (k : Nat) : Nat := ((List.range 8).filter (fun x => (ctxOf s k x).status == .dormant)).length
/-- The view of a dispatch unit (14 R279). -/
def viewOf (s : State) (d k : Nat) : Nat := mapGet (dieOf s d).tasks.view 8 k
/-- A core reports its count to every dispatch unit of its partition (R279). -/
def reportDormant (s : State) (k : Nat) : State :=
  let n := dormant s k
  (groupDies s (dieOfCore k)).foldl (fun s d =>
    let t := (dieOf s d).tasks
    setTasks s d { t with view := mapSet t.view 8 k n }) s

/-! ## Ready queues (14 R278) -/

/-- The subqueue of a record. -/
def subqueueOf (r : TaskRec) : Nat := 65536 * r.job + r.launch
/-- A record is on its way to a core. -/
def inFlight (t : Tasks) (r : Nat) : Bool := t.flights.any (fun f => f.record == r)
/-- The queued records of a level and subqueue, as (order, record). -/
def queued (t : Tasks) (lvl : Nat) : List (Nat × Nat × Nat) :=
  (t.recs.filter (fun p => p.2.state == .ready && p.2.prio == lvl && !inFlight t p.1 && !t.preempts.any (fun q => q.record == p.1))).map
    (fun p => (subqueueOf p.2, p.2.order, p.1))
/-- The earliest order in a subqueue. -/
def firstOrder (qs : List (Nat × Nat × Nat)) (key : Nat) : Nat :=
  (qs.filter (fun q => q.1 == key)).foldl (fun m q => Nat.min m q.2.1) (2 ^ 80)
/-- Insert a new subqueue before those of `fresh`, which joined in this cycle, whose first record is later. -/
def insertRing (qs : List (Nat × Nat × Nat)) (fresh : List Nat) (mine key : Nat) (l : List Nat) : List Nat :=
  let behind : Nat → Bool := fun k => fresh.contains k && decide (mine ≤ firstOrder qs k)
  l.filter (fun k => !behind k) ++ [key] ++ l.filter behind
/-- A record's subqueue joins the ring of its level, if it is not there: before the pointer's place, among those of its cycle by the order of their
first records. Those that join an empty ring in one cycle form it in that order, and the pointer names the last (log 82). -/
def joinRing (s : State) (d : Nat) (r : TaskRec) : State :=
  let t := (dieOf s d).tasks
  let ring := mapGet t.rings Ring.init r.prio
  let key := subqueueOf r
  if ring.order.contains key then s
  else
    let fresh := if ring.since = s.now + 1 then ring.fresh else []
    let put := insertRing (queued t r.prio) fresh r.order key
    let order := if ring.order.all fresh.contains then put ring.order
      else if ring.ptr then put ring.order.dropLast ++ [ring.order.getLastD 0]
      else put ring.order
    setTasks s d { t with rings := mapSet t.rings Ring.init r.prio ⟨order, ring.ptr || ring.order.isEmpty, s.now + 1, fresh ++ [key]⟩ }
/-- Subqueues that became empty leave the ring; the pointer keeps its place. -/
def trimRing (s : State) (d lvl : Nat) : State :=
  let t := (dieOf s d).tasks
  let ring := mapGet t.rings Ring.init lvl
  let qs := queued t lvl
  let live : Nat → Bool := fun k => qs.any (fun q => q.1 == k)
  setTasks s d { t with rings := mapSet t.rings Ring.init lvl { ring with order := ring.order.filter live, ptr := ring.ptr && live (ring.order.getLastD 0) } }

/-! ## Levels and joins (R24, R25, R32, R33) -/

def levelOf (s : State) (key : Nat) : LevelCtr := mapGet s.levels LevelCtr.init key
def setLevel (s : State) (key : Nat) (c : LevelCtr) : State := { s with levels := mapSet s.levels LevelCtr.init key c }
/-- Rule 1: the live counts of a new record rise; and the live tasks of its world (17 R330). -/
def countNew (s : State) (r : TaskRec) : State :=
  let s := (levelsOfRec r).foldl (fun s k => let c := levelOf s k; setLevel s k { c with live := (c.live + 1) % 16777216 }) s
  if r.world = 0 then s
  else
    let w := worldOf s r.world
    { s with worlds := { s.worlds with ents := mapSet s.worlds.ents World.init r.world { w with live := w.live + 1 } } }

/-- Something waits in a die's task unit for requests of a context (R34). -/
def awaitAct (s : State) (d k x upto : Nat) (a : TaskAct) : State :=
  let t := (dieOf s d).tasks
  setTasks s d { t with waiting := t.waiting ++ [⟨k, x, upto, a⟩] }
/-- Requests of the context so far: what is created now waits for them. -/
def uptoNow (s : State) (k : Nat) : Nat := (coreOf s k).ms.seq

/-- Rules 2 and 3: a count falls; a level that passes to 0 is complete, its cancel bit clears, and its record, if any, will be made
ready; a job whose level has such a record is not reported at that completion but at the next (log 82); the level of a job that is reported already has
nothing left to report (18 R355); a phase that completes has its cores' counts flushed, with a record or without (14 R288). -/
def levelDown (s : State) (key : Nat) : State :=
  let c := levelOf s key
  let n := (c.live + 16777215) % 16777216
  if c.live = 1 then
    let s := setLevel s key { c with live := 0, cancel := false, record := none }
    match c.record with
    | some (d, r) => awaitAct s d (80 * d) 0 0 (.complete key d r)
    | none =>
      if key / 65536 % 4 = 2 || (key / 65536 % 4 = 3 && s.jobs.any (fun j => levelKey j.1 3 0 == key)) then awaitAct s 0 0 0 0 (.complete key 0 16384) else s
  else setLevel s key { c with live := n }

/-- A continuation's counter fired: its record will be made ready, after the seal's stores if those are open (R34). -/
def fireCont (s : State) (d r : Nat) : State :=
  let t := (dieOf s d).tasks
  let isSeal : Waiting → Bool := fun w => match w.act with | .seal e _ _ q => e == d && q == r | _ => false
  match t.waiting.find? isSeal with
  | some w => setTasks s d { t with waiting := t.waiting.filter (fun w => !isSeal w) ++ [{ w with act := .ready d r }] }
  | none => awaitAct s d (80 * d) 0 0 (.ready d r)
/-- A counter that is opened now. -/
def openedJoin (s : State) : JoinCtr := { JoinCtr.init with state := .opened, since := s.now + 1 }
/-- A signaller finds the counter FREE: it is, or was as this cycle began (26 R442). -/
def foundFree (s : State) (c : JoinCtr) : Bool := c.state == .free || c.since == s.now + 1
/-- A signal reaches a counter (R32). -/
def signalJoin (s : State) (d j : Nat) : State :=
  let c := joinOf s d j
  match c.state with
  | .free => s
  | .opened => setJoin s d j { c with signals := c.signals + 1 }
  | .sealed =>
    if c.signals + 1 = c.expect then fireCont (setJoin s d j JoinCtr.init) d c.cont
    else setJoin s d j { c with signals := c.signals + 1 }
/-- The die and index of a JOIN form (R27). -/
def joinDie (form : Nat) : Nat := field form 12 3
def joinIx (form : Nat) : Nat := field form 0 12
/-- The implicit signal of a record that ends (R33): it reaches its counter as the next cycle begins, with the other signals of that cycle and before
a seal of it (R32, log 82). -/
def implicitSignal (s : State) (r : Nat) (v : TaskRec) : State :=
  if field v.join 15 1 = 0 || v.signalled then s else awaitAct s (joinDie v.join) 0 0 0 (.implied (joinDie v.join) (joinIx v.join) r)

/-- The end of a record (R24 rule 2, R28, R33): implicit signal, level counts, FREE. -/
def endRecord (s : State) (d r : Nat) : State :=
  let v := taskOf s d r
  let s := implicitSignal s r v
  let s := (levelsOfRec v).foldl levelDown s
  let s := if v.world = 0 then s
    else
      let w := worldOf s v.world
      { s with worlds := { s.worlds with ents := mapSet s.worlds.ents World.init v.world { w with live := w.live - 1 } } }
  freeRecord' s d r

/-- A record that has been counted becomes READY, or ends where it is under cancel (R25). `n` orders it within its cycle. -/
def makeReadyAt (s : State) (d r n : Nat) : State :=
  let v := taskOf s d r
  if recCancelled s v then endRecord s d r
  else
    let v' := { v with state := .ready, order := 65536 * s.now + n }
    joinRing (setRec s d r v') d v'
def makeReady (s : State) (d r : Nat) : State := makeReadyAt s d r (16384 + r)

/-- What a waiting action does once its issuer's requests are performed; readiness is the event CONTINUATION_READY or
COMPLETION_RECORD_READY. -/
def doAct (s : State) (a : TaskAct) : State :=
  match a with
  | .signal d j => signalJoin s d j
  | .implied d j r => if (joinOf s d j).state = .free then report s 0x20 r else signalJoin s d j
  | .record key d r =>
    let c := levelOf s key
    let s := match c.record with | some (e, q) => freeRecord' s e q | none => s
    setLevel s key { levelOf s key with record := some (d, r) }
  | _ => s
/-- The requests a waiting action waits for are performed. -/
def actDue (s : State) (w : Waiting) : Bool := !(openReqs s w.core).any (fun v => v.ctx == w.ctx && decide (v.seq < w.upto))
def isReadyAct (a : TaskAct) : Bool := match a with | .ready _ _ => true | .complete _ _ _ => true | _ => false
/-- Signals, seals and completion records of a die that wait no longer take effect. -/
def runActs (s : State) (d : Nat) : State :=
  let t := (dieOf s d).tasks
  let due := t.waiting.filter (fun w => !isReadyAct w.act && actDue s w)
  let s := setTasks s d { t with waiting := t.waiting.filter (fun w => !(!isReadyAct w.act && actDue s w)) }
  due.foldl (fun s w => doAct s w.act) s
/-- A continuation or a created record whose wait, in its creator's die or in its own, is over becomes READY (R28). -/
def contReady (s : State) (d r : Nat) : State :=
  let mine : Waiting → Bool := fun w => match w.act with | .ready e q => e == d && q == r && actDue s w | _ => false
  match (List.range 8).find? (fun u => (dieOf s u).tasks.waiting.any mine) with
  | some u =>
    let t := (dieOf s u).tasks
    makeReady (setTasks s u { t with waiting := t.waiting.filter (fun w => !mine w) }) d r
  | none => s

/-! ## Record templates (12 R241, R460) -/

/-- A field of a template that is reserved and not 0, or out of range (R27, 23 R412). -/
def templateBad (w : List Nat) : Bool :=
  let a := w.getD 0 0
  let b := w.getD 1 0
  field a 0 3 ≠ 0 || decide (23 < field a 48 5) || field a 53 11 ≠ 0 || field b 16 16 ≠ 0 || field b 44 20 ≠ 0
    || decide (639 < field b 34 10) || field (w.getD 4 0) 39 25 ≠ 0 || w.getD 6 0 ≠ 0 || w.getD 7 0 ≠ 0
/-- The record a template describes, for a creator's job and world. -/
def recOfWords (w : List Nat) (arg : Cap) (job world : Nat) : TaskRec :=
  let a := w.getD 0 0
  let b := w.getD 1 0
  let l := w.getD 4 0
  { TaskRec.init with
    state := .held, entry := field a 0 48, prio := field a 48 5, join := field b 0 16, scope := field b 32 2, core := field b 34 10, arg := arg
    launch := field l 0 16, graph := field l 16 12, phase := field l 28 8, job := job, world := world }
/-- ARG without a capability operand: template bytes 16 to 31 with tag 0. -/
def templateArg (w : List Nat) : Cap := ⟨BitVec.ofNat 128 (w.getD 2 0 + 2 ^ 64 * w.getD 3 0), false⟩

/-! ## Event counters (R36 to R38, 27 R454) -/

/-- A crossing with ARM set (R38): ARM clears, and the copy is made with the others of the cycle. -/
def armedCrossing (s : State) (d n v : Nat) : State :=
  let die := dieOf s d
  let off := 0x3300 + 8 * n
  let s := report (setDie s d (setReg die off (regRaw die off - 2 ^ 33))) 0x28 (n + 64 * v)
  let t := (dieOf s d).tasks
  setTasks s d { t with crossed := t.crossed ++ [n] }
/-- The copy of the registered record at level 23, in the base world (R38, 17 R330); with no FREE record it is lost and reported (26 R443). -/
def spawnCrossing (s : State) (d n : Nat) : State :=
  let die := dieOf s d
  match freeRec s d with
  | none => report s 0x22 n
  | some r =>
    let t := taskOf s d (field (regRaw die (0x3500 + 8 * n)) 0 14)
    let c : TaskRec := { t with state := .held, prio := 23, ctx := none, signalled := false, suspended := false, order := 0,
                                world := 0, msg := none, tile := none, rival := none }
    makeReadyAt (countNew (setRec s d r c) c) d r n
/-- VALUE of counter n becomes v: it may cross its threshold (R38). -/
def setCount (s : State) (d n v : Nat) : State :=
  let die := dieOf s d
  let old := regRaw die (0x3100 + 8 * n)
  let thr := regRaw die (0x3300 + 8 * n)
  let t := thr % 4294967296
  let v := v % 4294967296
  let s := setDie s d (setReg die (0x3100 + 8 * n) v)
  let cross := if field thr 32 1 = 0 then decide (old < t) && decide (t ≤ v) else decide (t < old) && decide (v ≤ t)
  if cross && field thr 33 1 = 1 then armedCrossing s d n v else s
/-- The copies of the counters that crossed in the cycle, in ascending n, after the records that cores have created (R27, R38). -/
def spawnCrossed (s : State) (d : Nat) : State :=
  let t := (dieOf s d).tasks
  if t.crossed.isEmpty then s
  else ((List.range 64).filter (fun n => t.crossed.contains n)).foldl (fun s n => spawnCrossing s d n) (setTasks s d { t with crossed := [] })
/-- The counters a source moves. -/
def countersOf (s : State) (d src : Nat) : List Nat :=
  (List.range 64).filter (fun n => field (regRaw (dieOf s d) (0x3300 + 8 * n)) 36 4 = src)
/-- A source adds to its counters (1, 3, 5), or sets them (2, 4) (R37). -/
def countEvent (s : State) (d src amount : Nat) : State :=
  (countersOf s d src).foldl (fun s n => setCount s d n (regRaw (dieOf s d) (0x3100 + 8 * n) + amount)) s
def setEventSource (s : State) (d src v : Nat) : State :=
  (countersOf s d src).foldl (fun s n => if regRaw (dieOf s d) (0x3100 + 8 * n) = v then s else setCount s d n v) s

end Sys2Proof.Machine
end

