-- ==== Sys2Proof/Machine/Control.lean ====
section
/-! DEFINITION. Machine/Control.lean: transfers, loops, hints, sync lines, semaphores, traps and their return, halting and OTINV
(07 R135 to R143, 05 R93, R94, R102, 12 R237 to R239, R246, R247, R262, 02 R39, R40, 22 R378 to R381). -/

namespace Sys2Proof.Machine

/-! ## Transfers and loops -/

/-- A displacement of n bits in parcels from address a. -/
def fromHere (a n d : Nat) : Nat := wrap 48 ((a : Int) + 8 * signed n d)
/-- CALL: the fall-through lands in sd a cycle later (R138). -/
def opCall (f : YJ) : Op := fun i =>
  .ok ((i.writeS 1 f.sd (BitVec.ofNat 64 i.g.fall)).jump (fromHere i.g.sy 32 f.imm))
/-- A register target with bits [2:0] not 0 raises 0x15 (23 R405). -/
def Iss.jumpTo (i : Iss) (a : Nat) : Except Halt Iss :=
  let a := a % 281474976710656
  if a % 8 ≠ 0 then trapNow 0x15 (a % 1099511627776 + 1099511627776 * 15) else .ok (i.jump a)
def opRet (f : YX) : Op := fun i => let v := i.s f.xa; v.1.jumpTo v.2.toNat
def opJmpi (f : YX) : Op := fun i => let v := i.s f.xa; v.1.jumpTo (wrap 64 ((v.2.toNat : Int) + 8 * signed 20 f.fn))
/-- The tree's leaf 0 leaves the choice to the fall-through or the loop rule (R93, R137). -/
def opBrt (shape t0 t1 t2 t3 d1 d2 d3 d4 : Nat) : Op := fun i =>
  match treeLeaf i.c0 shape t0 t1 t2 t3 with
  | 0 => .ok i
  | 1 => .ok (i.jump (fromHere i.g.last 13 d1))
  | 2 => .ok (i.jump (fromHere i.g.last 13 d2))
  | 3 => .ok (i.jump (fromHere i.g.last 13 d3))
  | _ => .ok (i.jump (fromHere i.g.last 13 d4))

/-- The address of the n-th bundle after the one at a, by their presence masks. -/
def bundleAfter (s : State) (a n : Nat) : Nat :=
  match n with
  | 0 => a
  | n + 1 => bundleAfter s ((a + bundleLen ((presSlots (getByte s.mem a).toNat).length)) % 281474976710656) n
/-- Arm a level, or skip a body whose count is 0 (R140); a level already armed and a body not nested raise 0x0B (23 R404). -/
def Iss.armLoop (i : Iss) (f : YX) (count : Nat) : Except Halt Iss :=
  let lvl := f.fn % 8
  let len := field f.fn 3 5
  let start := i.g.fall
  let last := bundleAfter i.st start len
  if count = 0 then .ok { i with next := some (false, bundleAfter i.st last 1) }
  else if i.ctx.regs.armed.any (fun l => l.lvl == lvl || decide (start < l.start) || decide (l.last < last)) then trapNow 0x0B lvl
  else
    let c := i.ctx
    .ok ({ i with next := some (false, start) }.setCtx { c with
      regs := { c.regs with nest := mapSet c.regs.nest 0 lvl count, armed := c.regs.armed ++ [({ lvl := lvl, start := start, last := last } : Armed)] } })
def opLoopReg (f : YX) : Op := fun i => let v := i.s f.xa; v.1.armLoop f (v.2.toNat % 4294967296)
def opLoopImm (f : YX) : Op := fun i => i.armLoop f (field f.fn 9 11)

/-- A hint has no effect (R102). -/
def opHint (_ _ _ : Nat) : Op := fun i => .ok i

/-! ## Sync lines (02 R39, R40, 07 R135) -/

/-- The segment of a core on a line: a cluster of its die, 10 for its die, 11 for the partition's dies of span 2. -/
def segOf (s : State) (k line : Nat) : Nat :=
  match spanOf (dieOf s (dieOfCore k)) line with
  | 0 => k % 80 / 8
  | 1 => 10
  | _ => 11
/-- The die whose task unit keeps the release of a segment. -/
def segDie (s : State) (d seg : Nat) : Nat := if seg = 11 then (groupDies s d).headD d else d
def segCores (s : State) (d line seg : Nat) : List Nat :=
  if seg < 10 then (List.range 8).map (fun i => 80 * d + 8 * seg + i)
  else if seg = 10 then (List.range 80).map (fun i => 80 * d + i)
  else ((groupDies s d).filter (fun e => spanOf (dieOf s e) line = 2)).flatMap (fun e => (List.range 80).map (fun i => 80 * e + i))
def releaseKey (line seg : Nat) : Nat := 16 * seg + line
/-- Cycles from the last arrival to the release. -/
def releaseDelay (seg : Nat) : Nat := if seg < 10 then 6 else if seg = 10 then 14 else 40
def takesPart (s : State) (line k : Nat) : Bool := field (coreOf s k).lines line 1 = 1
def hasArrived (s : State) (line k : Nat) : Bool := field (coreOf s k).arrived line 1 = 1
/-- Every participant has arrived, and there is one. -/
def allArrived (s : State) (d line seg : Nat) : Bool :=
  let ps := (segCores s d line seg).filter (takesPart s line)
  !ps.isEmpty && ps.all (hasArrived s line)
/-- Schedule the release of core k's segment of a line once every participant has arrived; call it off when one withdraws. -/
def checkLine (s : State) (k line : Nat) : State :=
  let d := dieOfCore k
  let seg := segOf s k line
  let e := segDie s d seg
  let t := (dieOf s e).tasks
  let key := releaseKey line seg
  if allArrived s d line seg then
    (if mapGet t.releases 0 key = 0 then setTasks s e { t with releases := mapSet t.releases 0 key (s.now + releaseDelay seg) } else s)
  else setTasks s e { t with releases := mapSet t.releases 0 key 0 }
def checkLines (s : State) (k mask : Nat) : State :=
  (List.range 16).foldl (fun s l => if field mask l 1 = 1 then checkLine s k l else s) s
/-- A core's arrivals on the lines of a mask end (22 R378, 26 R444). -/
def withdraw (s : State) (k mask : Nat) : State :=
  let c := coreOf s k
  checkLines (setCore s k { c with arrived := without c.arrived mask, syncWait := none }) k mask

/-- SYNC: the group arrives in the first cycle in which all else of it is met, and issues when every line of its mask in which the core
takes part has been released (R40, R238). A group that a load of weights still holds back, or that the memory port turns back, does not arrive. -/
def opSync (mask : Nat) : Op := fun i =>
  let c := i.core
  match c.syncWait with
  | some (ls, _) =>
    if maskTo c.arrived ls = 0 then .ok (i.setCore { c with syncWait := none }) else stallNow
  | none =>
    let ls := maskTo mask c.lines
    if ls = 0 || i.wait.isSome || i.port.isSome then .ok i
    else .error (.stall (fun s =>
      let c := actCore s
      checkLines (setActCore s { c with arrived := c.arrived ||| ls, syncWait := some (ls, s.now) }) s.core ls))

/-- MOVTS to SYNCPART: PART is [15:0] (R39); lines left may be released by it, lines joined wait for this core (R135). -/
def opSyncpartWrite (f : SM) : Op := fun i =>
  let v := i.s f.sd
  let part := v.2.toNat % 65536
  .ok (v.1.atEnd (fun s =>
    let c := actCore s
    let changed := without (c.lines ||| part) (maskTo c.lines part)
    checkLines (setActCore s { c with lines := part, arrived := maskTo c.arrived part }) s.core changed))

/-! ## Semaphores (R239) -/

/-- WAITS: stalls until mJ ≥ n, subtracts n, and acquires; the lines go when a counted increment was of a scope wider than core. -/
def Iss.waits (i : Iss) (j n : Nat) : Except Halt Iss :=
  let m := semOf i.ctx j
  if m < n then stallNow
  else
    let c := { i.ctx with sems := mapSet i.ctx.sems 0 j (m - n) }
    if field c.semWide j 1 = 1 then .ok ((i.setCtx c).atEnd (fun s => dropLines s s.core s.cx))
    else .ok (i.setCtx c)
def opWaitsImm (f : YX) : Op := fun i => i.waits (f.fn % 16) (field f.fn 5 15)
def opWaitsReg (f : YX) : Op := fun i => let v := i.s f.xa; v.1.waits (f.fn % 16) (v.2.toNat % 65536)

/-! ## Traps, return, halting -/

/-- EINFO of TRAP and BKPT (R246): the immediate and the length of the group in parcels. -/
def Iss.trapInfo (i : Iss) (f : YX) : Nat := f.fn % 4096 + 4096 * (wrap 48 ((i.g.fall : Int) - i.g.addr) / 8 % 128)
def opTrap (f : YX) : Op := fun i => trapNow 0x0E (i.trapInfo f)
def opBkpt (f : YX) : Op := fun i => trapNow 0x0D (i.trapInfo f)

/-- The late request that EINFO names is still out (R381). -/
def lateOpen (s : State) (k x name : Nat) : Bool :=
  (coreOf s k).ms.loads.any (fun l => l.ctx == x && !l.exact && l.key % 16384 == name) || (ctxOf s k x).reqs.any (fun r => r.tag % 16384 == name)
/-- ERET (R247, R381): waits for the handler's own writes and, after 0x1A, for the late data; then the set-aside state resumes at EPC.
After a machine check it halts instead (22 R393). -/
def opEret (_ : YX) : Op := fun i =>
  let c := i.ctx
  if c.sp.cause = 0x3F then .error (.stall (fun s => haltHere s s.core s.cx))
  else if !c.regs.shadow.isEmpty then stallNow
  else if c.sp.cause = 0x1A && lateOpen i.st i.st.core i.st.cx (c.sp.einfo.toNat % 16384) then stallNow
  else .ok (i.atLast (fun s => setAct s (leaveTrap (actCtx s) c.sp.epc)))
/-- HALT ends the stretch and the context leaves the candidates (R143). -/
def opHalt (_ : YX) : Op := fun i => .ok { i with stop := .halt }

/-- OTINV (R262): waits for the context's stores to the table, then every port of the partition drops its entries of the objects
named. -/
def opOtinv (f : YX) : Op := fun i =>
  let a := i.s f.xa
  let b := a.1.s f.xb
  let first := a.2.toNat % 67108864
  let n := if b.2.toNat % 67108864 = 0 then 1 else b.2.toNat % 67108864
  if storesPending i.st i.st.core i.st.cx then stallNow
  else .ok (b.1.atEnd (fun s =>
    let drop : Nat → Bool := fun o => o / 67108864 == Config.moduleNumber && decide (first ≤ o % 67108864) && decide (o % 67108864 < first + n)
    (s.cores.map (·.1)).foldl (fun t k =>
      if sameGroup s (dieOfCore k) (dieOfCore s.core) then
        let c := coreOf t k
        setCore t k { c with ms := { c.ms with objCache := c.ms.objCache.filter (fun o => !drop o) } }
      else t) s))

/-- The empty bundle is a group of its own: 8 bytes, with its MARK, YIELD and JOIN (05 R83, R85, R87 to R89). -/
def execEmptyBundle (mark yield join : Bool) (s : State) : Host.Outcome State Fault Refusal :=
  let pc := (actCtx s).pc
  .next (issueGroup s { addr := pc, last := pc, sy := pc, fall := (pc + 8) % 281474976710656, mark := mark, yield := yield, join := join, order := [] } [])

/-! ## The instructions: each issues as a group of its own (05 R85) -/

/-- CALL. -/
def execCall (g : Guard) (f : YJ) (s : State) : Host.Outcome State Fault Refusal :=
  .next (issueSyl (.call g f) (opCall f) s)
/-- RET. -/
def execRet (g : Guard) (f : YX) (s : State) : Host.Outcome State Fault Refusal :=
  .next (issueSyl (.ret g f) (opRet f) s)
/-- JMPI. -/
def execJmpi (g : Guard) (f : YX) (s : State) : Host.Outcome State Fault Refusal :=
  .next (issueSyl (.jmpi g f) (opJmpi f) s)
/-- BRT. -/
def execBrt (shape : Nat) (t0 : Nat) (t1 : Nat) (t2 : Nat) (t3 : Nat) (d1 : Nat) (d2 : Nat) (d3 : Nat) (d4 : Nat) (s : State) : Host.Outcome State Fault Refusal :=
  .next (issueSyl (.brt shape t0 t1 t2 t3 d1 d2 d3 d4) (opBrt shape t0 t1 t2 t3 d1 d2 d3 d4) s)
/-- LOOP_REG. -/
def execLoopReg (g : Guard) (f : YX) (s : State) : Host.Outcome State Fault Refusal :=
  .next (issueSyl (.loopReg g f) (opLoopReg f) s)
/-- LOOP_IMM. -/
def execLoopImm (g : Guard) (f : YX) (s : State) : Host.Outcome State Fault Refusal :=
  .next (issueSyl (.loopImm g f) (opLoopImm f) s)
/-- HINT. -/
def execHint (slot : Nat) (n : Nat) (imm : Nat) (s : State) : Host.Outcome State Fault Refusal :=
  .next (issueSyl (.hint slot n imm) (opHint slot n imm) s)
/-- SYNC. -/
def execSync (mask : Nat) (s : State) : Host.Outcome State Fault Refusal :=
  .next (issueSyl (.sync mask) (opSync mask) s)
/-- SYNCPART_WRITE. -/
def execSyncpartWrite (g : Guard) (f : SM) (s : State) : Host.Outcome State Fault Refusal :=
  .next (issueSyl (.syncpartWrite g f) (opSyncpartWrite f) s)
/-- WAITS_IMM. -/
def execWaitsImm (g : Guard) (f : YX) (s : State) : Host.Outcome State Fault Refusal :=
  .next (issueSyl (.waitsImm g f) (opWaitsImm f) s)
/-- WAITS_REG. -/
def execWaitsReg (g : Guard) (f : YX) (s : State) : Host.Outcome State Fault Refusal :=
  .next (issueSyl (.waitsReg g f) (opWaitsReg f) s)
/-- TRAP. -/
def execTrap (g : Guard) (f : YX) (s : State) : Host.Outcome State Fault Refusal :=
  .next (issueSyl (.trap g f) (opTrap f) s)
/-- BKPT. -/
def execBkpt (g : Guard) (f : YX) (s : State) : Host.Outcome State Fault Refusal :=
  .next (issueSyl (.bkpt g f) (opBkpt f) s)
/-- ERET. -/
def execEret (g : Guard) (f : YX) (s : State) : Host.Outcome State Fault Refusal :=
  .next (issueSyl (.eret g f) (opEret f) s)
/-- HALT. -/
def execHalt (g : Guard) (f : YX) (s : State) : Host.Outcome State Fault Refusal :=
  .next (issueSyl (.halt g f) (opHalt f) s)
/-- OTINV. -/
def execOtinv (g : Guard) (f : YX) (s : State) : Host.Outcome State Fault Refusal :=
  .next (issueSyl (.otinv g f) (opOtinv f) s)

end Sys2Proof.Machine
end

