-- ==== Sys2Proof/Machine/Access.lean ====
section
/-! DEFINITION. Machine/Access.lean: the checks of a memory operand and its resolution (10 R196, 23 R396, 24 R414 to R419), and
the way of a load's data to its destination (11 R217, R218, 24 R420). -/

namespace Sys2Proof.Machine

/-! ## Capabilities (10 R194) -/

def Cap.rights (c : Cap) : Nat := (c.bits >>> 120).toNat
def Cap.upper (c : Cap) : Nat := field c.bits.toNat 80 40
def Cap.lower (c : Cap) : Nat := field c.bits.toNat 40 40
def Cap.obj (c : Cap) : Nat := field c.bits.toNat 8 32
/-- Home module and object index (R194). -/
def Cap.home (c : Cap) : Nat := c.obj / 67108864
def Cap.index (c : Cap) : Nat := c.obj % 67108864
/-- Every right of a mask is granted. -/
def Cap.grants (c : Cap) (r : Nat) : Bool := c.rights &&& r == r

/-- The rights of R194's table. -/
def rLOAD : Nat := 1
def rSTORE : Nat := 2
def rATOMIC : Nat := 16
def rREMOTE : Nat := 32
def rENGINE : Nat := 64

/-- EINFO of a memory cause (22 R384): offset, capability index, size code. -/
def memInfo (off ci sz : Nat) : Nat := off + 1099511627776 * ci + 17592186044416 * sz
/-- EINFO of a typed-buffer cause (23 R396): 8 plus the buffer code in place of the index. -/
def bufInfo (a code sz : Nat) : Nat := memInfo a (8 + code) sz
/-- EINFO of 0x14 and 0x3A (22 R384); bit 62 for a block outside the partition (24 R415). -/
def extentInfo (obj x : Nat) (outside : Bool) : Nat := obj + 67108864 * x + (if outside then 4611686018427387904 else 0)
/-- EINFO of the world causes (26 R449). -/
def worldInfo (s : State) (w count : Nat) (full : Bool) : Nat :=
  w + 64 * (worldOf s w).depth + 512 * count + (if full then 2097152 else 0)

/-- The checks of R196 in the order of R396: tag, rights, alignment, bounds. -/
def checkCap (c : Cap) (ci off n align rights sz : Nat) : Except Halt Unit :=
  let info := memInfo off ci sz
  if !c.tag then trapNow 0x10 info
  else if !c.grants rights then trapNow 0x12 info
  else if off % align ≠ 0 then trapNow 0x15 info
  else if off < c.lower || c.upper < off + n then trapNow 0x11 info
  else .ok ()

/-- A register object of the module (15 R310): its die. -/
def regObject (c : Cap) : Option Nat :=
  if c.home = Config.moduleNumber && 67108856 ≤ c.index then some (c.index - 67108856) else none

/-- The object entry must be in the core's entry cache; its read begins otherwise (24 R414), and an entry whose directory lies outside the
partition is logged (R415). The time of the read is a free value
(log 23). -/
def fetchObject (obj : Nat) (s : State) : State :=
  let c := actCore s
  if c.ms.objWait.any (fun p => p.1 == obj) then s
  else
    let ix := obj % 67108864
    let s := if obj / 67108864 = Config.moduleNumber && dirOutside s (ctxJob s s.core s.cx) (dieOfCore s.core) ix then logOutside s 0x13 (extentInfo ix 0 true) else s
    let c := actCore s
    let s' := { s with free := s.free + 1 }
    setActCore s' { c with ms := { c.ms with objWait := c.ms.objWait ++ [(obj, s.now + 1 + Config.unitDelay s.free)] } }
def Iss.needObject (i : Iss) (c : Cap) : Except Halt Unit :=
  if (regObject c).isSome || i.core.ms.objCache.contains c.obj then .ok () else .error (.stall (fetchObject c.obj))

/-! ## Resolution (24 R414 to R416) -/

/-- What a local access reaches: a register object, or pieces of memory (address, leaf entry, length). -/
inductive Place where
  | reg (die off : Nat)
  | mem (ps : List (Nat × Nat × Nat))
  deriving DecidableEq, Repr

/-- The walks of the blocks a span touches, with each piece's offset and length. -/
def walks (s : State) (d dir off n : Nat) : List (Nat × Nat × Walk) :=
  (pieces 65536 off n (n / 65536 + 2)).map (fun p => (p.1, p.2, walk s d dir p.1))

/-- A block not in state HBM (R415, R416): class R with a fill where one is possible; 0x3C in a world for a block a fill would bring
(17 R341); EINFO names the object and the extent. -/
def Iss.notResident (i : Iss) (c : Cap) (off : Nat) (w : Walk) : Except Halt (Nat × Nat × Option (Nat × Nat × Nat × Nat)) :=
  let s := i.st
  let outside := match w with | .absent o => o | _ => false
  let info := extentInfo c.index (off / 65536) outside
  let job := ctxJob s s.core s.cx
  match w with
  | .tier blk leaf =>
    if feature s s.core s.cx 6 && decide (0 < regRaw (dieOf s i.die) 0x3008) then
      if i.ctx.world ≠ 0 then trapNow 0x3C (worldInfo s i.ctx.world 0 false)
      else .ok (0x14, info, some (leaf, i.die, blk, job.tier))
    else .ok (0x14, info, none)
  | _ => .ok (0x14, info, none)

/-- Far blocks among resident pieces. -/
def anyFar (d : Nat) (ws : List (Nat × Nat × Walk)) : Bool :=
  ws.any (fun w => match w.2.2 with | .hbm p _ => dieOfAddr p != d | _ => false)

/-- Every line of the span is in the core's line cache under the world's tag (11 R218). -/
def hitsCache (s : State) (k w : Nat) (ps : List (Nat × Nat × Nat)) : Bool :=
  ps.all (fun p => (pieces 128 (viewAddr w p.2.1 p.1) p.2.2 4).all (fun q => cached (coreOf s k).ms q.1 w))

/-- A load takes its lines' bytes: they are there, and no atomic and no earlier load of the context to these bytes is still to be
performed, whose value a line filled before it could be older than (13 R265; log 78). -/
def Iss.hits (i : Iss) (ps : List (Nat × Nat × Nat)) : Bool :=
  hitsCache i.st i.st.core i.ctx.world ps
    && !(i.core.ms.atoms.map AtomReq.view ++ (i.core.ms.loads.filter (fun l => l.got.isNone)).map LoadReq.view).any (fun v =>
      v.ctx == i.st.cx && v.spans.any (fun p => ps.any (fun q => decide (p.1 < q.1 + q.2.2) && decide (q.1 < p.1 + p.2))))
/-- Resolve a span of the object of a checked capability: 0x13, then the space rule `far` for a block of another die, then the walk.
Each access is one walk and raises its block's heat (10 R201); a context's next mark waits 40 cycles for it (R415). A load that hits
the line cache (`far` names the cause of a far block for those that look it up) needs no resolution. -/
def Iss.resolve (i : Iss) (c : Cap) (ci off n sz : Nat) (write : Bool) (far : Option Nat) : Except Halt (Iss × Place) := do
  let s := i.st
  let info := memInfo off ci sz
  if c.home ≠ Config.moduleNumber then trapNow 0x13 info
  else
    match objEntry s (ctxJob s s.core s.cx) i.die c.index with
    | none => trapNow 0x13 info
    | some (dir, nblk) =>
      if nblk ≤ (off + n - 1) / 65536 then trapNow 0x13 info
      else
        let ws := walks s i.die dir off n
        match far, anyFar i.die ws with
        | some cause, true => trapNow cause info
        | _, _ =>
          match ws.find? (fun w => match w.2.2 with | .hbm _ _ => false | _ => true) with
          | some w =>
            let f ← i.notResident c w.1 w.2.2
            .ok ({ i with port := some (i.port.getD f) }, .mem [])
          | none =>
            let ps : List (Nat × Nat × Nat) := ws.filterMap (fun w => match w.2.2 with | .hbm p l => some (p, l, w.2.1) | _ => none)
            if far = some 0x1D && i.hits ps then .ok (i, .mem ps)
            else
              let i : Iss := { i with st := ps.foldl (fun s p => raiseHeat s p.2.1 write) s }
              .ok (i.setCtx { i.ctx with resolved := Nat.max i.ctx.resolved (s.now + 40) }, .mem ps)

/-- A local access: object entry, capability, register object, resolution. `regCause` is the cause of an access that a register object
does not take (0x16 or 0x1C, 24 R418), 0 for one it takes. -/
def Iss.locate (i : Iss) (ci off n align rights sz : Nat) (write : Bool) (regCause : Nat) (far : Option Nat) : Except Halt (Iss × Place) := do
  let c := readC i.ctx ci
  i.needObject c
  checkCap c ci off n align rights sz
  match regObject c with
  | some d => if regCause = 0 then .ok (i, .reg d off) else trapNow regCause (memInfo off ci sz)
  | none => i.resolve c ci off n sz write far

/-! ## Reading -/

/-- The bytes of a hit, with the context's own stores. -/
def readLines (s : State) (k x w : Nat) (ps : List (Nat × Nat × Nat)) : List Byte :=
  ps.flatMap (fun p => (pieces 128 (viewAddr w p.2.1 p.1) p.2.2 4).flatMap (fun q =>
    forwardMem s k x q.1 (((mapGet (coreOf s k).ms.lines Line.init (lineKey q.1 w)).bytes.drop (q.1 % 128)).take q.2)))
/-- Fill the lines of a span from the world's view; a poisoned line is not kept. -/
def fillSpan (s : State) (k w : Nat) (ps : List (Nat × Nat × Nat)) : State :=
  ps.foldl (fun s p => (pieces 128 p.1 p.2.2 4).foldl (fun s q =>
    let a := q.1 / 128 * 128
    if badIn s w a p.2.1 128 then s
    else
      let tags := (List.range 8).foldl (fun m i => if tagIn s w (a + 16 * i) p.2.1 then m + 2 ^ i else m) 0
      fillLine s k (viewAddr w p.2.1 a) w ⟨readIn s w a p.2.1 128, tags⟩) s) s

/-- The first address and length of a place's memory. -/
def firstPhys (ps : List (Nat × Nat × Nat)) : Nat := match ps with | p :: _ => p.1 | [] => 0

/-- Where a context of world w knows it. -/
def firstView (w : Nat) (ps : List (Nat × Nat × Nat)) : Nat := match ps with | p :: _ => viewAddr w p.2.1 p.1 | [] => 0

/-- A row from loaded bytes: zeros above them (R217). -/
def rowOfBytes (bs : List Byte) (bad : Bool) : Row := ⟨BitVec.ofNat 1024 (leVal bs), if bad then .corrupt else .clean⟩

/-- An access with a stated time is held at issue behind an access of an earlier group of the context that no stated cycle performs and
that must be performed first (13 R265, R267, log 30). -/
def Iss.waitsLate (i : Iss) (v : ReqView) (release : Bool) : Bool := blockedReq (lateReqs i.st i.st.core) { v with ctx := i.st.cx, seq := i.seq0 } release
def Iss.waitsOrder (i : Iss) (cls : Nat) (ps : List (Nat × Nat × Nat)) (arr release : Bool) : Bool :=
  i.waitsLate ⟨0, cls, 0, 0, ps.map (fun p => (p.1, p.2.2)), arr⟩ release

/-- The number of a new request of the context; its low 14 bits name it in an L mark and are a free value (log 24). -/
def Iss.newKey (i : Iss) : Iss × Nat :=
  let key := 16384 * (i.ctx.nextReq + 1) + (Config.freeWord i.st.free).toNat % 16384
  let i := { i with st := { i.st with free := i.st.free + 1 } }
  (i.setCtx { i.ctx with nextReq := i.ctx.nextReq + 1 }, key)

/-- Add a shadow-record entry that waits for request `key` (R390). -/
def Iss.await (i : Iss) (lat : Nat) (dst : Land) (key : Nat) (acq : Bool) : Iss :=
  { i with pends := i.pends ++ [(i.slot, { due := i.clock + lat, iss := i.clock, what := dst, ring := none, waits := some key,
                                           note := none, src := none, acq := acq, check := none, struck := false })] }

/-- The destination of a load of size code sz: a scalar, or the row a push claims (R217; queue operands come before the memory
operand, 23 R396). -/
def Iss.loadDest (i : Iss) (sz ds : Nat) : Except Halt (Iss × Land) :=
  if sz < 4 then .ok (i, .scalar (ds % 64) 0#64)
  else do
    let a ← i.claim (ds % 64)
    .ok (a.1, .row (ds % 64) a.2 Row.zero)

/-- LDS, LDV and LDX (R217, R218): a hit reads its lines at issue and lands 14 cycles later; a miss binds its slots, reads its bytes
at the stack 152 cycles after them and lands at t + w + 192 (10 R208, log 5). -/
def Iss.loadMem (i : Iss) (cls : Nat) (ps : List (Nat × Nat × Nat)) (dst : Land) (wantTag : Bool) : Except Halt Iss :=
  let s := i.st
  let w := i.ctx.world
  if ps.isEmpty then .ok i
  else if i.hits ps then
    let p := firstView w ps
    let t := field (mapGet i.core.ms.lines Line.init (lineKey p w)).tags (p % 128 / 16) 1 = 1
    .ok (i.add 14 (landValue dst (readLines s s.core s.cx w ps) false (wantTag && forwardTag s s.core s.cx p t)) none 0)
  else if i.waitsOrder cls ps false false then stallNow
  else
    let q := takeSeq s s.core
    let b := bindSpan q.1 s.core ps
    let n := { i with st := b.1 }.newKey
    let i := n.1
    let l : LoadReq := { ctx := s.cx, key := n.2, cls := cls, world := w, seq := q.2, pieces := ps,
                         own := (ownStores s s.core s.cx).filter isMem, dst := dst, wantTag := wantTag, fill := true, exact := true,
                         reach := none, slot := some b.2, fin := some (b.2 + 152), got := none }
    let c := i.core
    .ok ((i.setCore { c with ms := { c.ms with loads := c.ms.loads ++ [l] } }).await (b.2 - s.now + 192) dst n.2 false)

/-- LDF (R223): its data lands at t + D, whatever is known of it by then; a far block is reached over h bridges. -/
def Iss.loadFar (i : Iss) (cls d : Nat) (ps : List (Nat × Nat × Nat)) (dst : Land) : Iss :=
  if ps.isEmpty then i
  else
    let s := i.st
    let q := takeSeq s s.core
    let n := { i with st := q.1 }.newKey
    let l : LoadReq := { ctx := s.cx, key := n.2, cls := cls, world := i.ctx.world, seq := q.2, pieces := ps,
                         own := (ownStores s s.core s.cx).filter isMem, dst := dst, wantTag := false, fill := false, exact := false,
                         reach := none, slot := none, fin := none, got := none }
    let i := n.1
    let r : Iss × LoadReq := match farDie s.core ps with
      | some e => (i, { l with reach := some (s.now + 48 * hops i.die e) })
      | none =>
        let b := bindSpan i.st s.core ps
        ({ i with st := b.1 }, { l with slot := some b.2, fin := some (b.2 + 152) })
    let c := r.1.core
    (r.1.setCore { c with ms := { c.ms with loads := c.ms.loads ++ [r.2] } }).await d dst n.2 false

/-! ## Typed buffers (10 R202, 14 R291, 24 R419) -/

/-- A subscription of the context has its ring or header in a 64 KiB region of the core's buffers. -/
def subHolds (s : State) (k region : Nat) (u : Sub) : Bool :=
  let inR : Nat → Nat → Bool := fun a n => decide (a < 65536 * (region + 1)) && decide (65536 * region < a + n)
  let h := bufKey u.buf u.hdr
  let w := leVal (getBytes (coreOf s k).bufs.bytes h 8)
  inR h 64 || inR (bufKey u.buf (field w 0 20)) (64 * (field w 20 8 + 1) * (field w 28 12 + 1))
/-- An engine command of the context has an endpoint in the region. -/
def cmdHolds (region : Nat) (m : Cmd) : Bool :=
  let code : Nat → Option Nat := fun sp => match sp with | 1 => some 0 | 2 => some 1 | 3 => some 1 | 4 => some 2 | 5 => some 3 | 6 => some 3 | _ => none
  let at_ : Nat → Nat → Bool := fun sp a => match code sp with | some b => bufKey b a / 65536 == region | none => false
  at_ m.desc.ssp m.desc.sbase || at_ m.desc.dsp m.desc.dbase
/-- A region of the outgoing partition is held (R419). -/
def regionHeld (s : State) (k region : Nat) : Bool :=
  let c := coreOf s k
  c.vrf.area.any (fun p => p.2.eng.subs.any (subHolds s k region) || (p.2.eng.copy ++ p.2.eng.sfe).any (cmdHolds region))
    || (let m := regRaw (dieOf s (dieOfCore k)) (0x3900 + 8 * (k % 80))
        field m 20 1 = 1 && bufKey 3 (field m 0 20) / 65536 == region)
/-- A region as it is spilled, and bytes and marks with a region filled from its image (14 R291). -/
def spillOf (bytes : List Host.Cell) (bad : SMap Bool) (region : Nat) : Spill :=
  ⟨bytes.filter (fun e => e.1 / 65536 == region), (bad.filter (fun e => e.1 / 1024 == region && e.2)).map (·.1)⟩
def refilled (bytes : List Host.Cell) (back : Spill) (region : Nat) : List Host.Cell :=
  back.bytes.foldl (fun m e => setByte m e.1 e.2) (bytes.filter (fun e => e.1 / 65536 != region))
def remarked (bad : SMap Bool) (back : Spill) (region : Nat) : SMap Bool :=
  back.bad.foldl (fun m g => mapSet m false g true) (bad.filter (fun e => e.1 / 1024 != region))
/-- Exchange a region (R291): spilled for the partition that wrote it, filled from the spill of the partition of the core. -/
def swapRegion (k region : Nat) (s : State) : State :=
  let c := coreOf s k
  let old := mapGet c.bufs.region 0 region
  let out := spillOf c.bufs.bytes c.bufs.bad region
  let back := mapGet c.bufs.spills Spill.none (4096 * c.part + region)
  let spills := mapSet (mapSet c.bufs.spills Spill.none (4096 * (old - 1) + region) out) Spill.none (4096 * c.part + region) Spill.none
  setCore s k { c with bufs := { c.bufs with
    bytes := refilled c.bufs.bytes back region
    bad := remarked c.bufs.bad back region
    spills := spills
    region := mapSet c.bufs.region 0 region (c.part + 1) } }
/-- The first region of a span that another partition wrote. -/
def foreignRegion (s : State) (k code a n : Nat) : Option Nat :=
  ((coreOf s k).bufs.region.find? (fun e =>
    decide (bufKey code a / 65536 ≤ e.1) && decide (e.1 ≤ (bufKey code a + n - 1) / 65536) && e.2 != 0 && e.2 != (coreOf s k).part + 1)).map (·.1)
/-- Partition ownership of a typed-buffer span (R396, R419): 0x18 for a held region; any other is exchanged while the group
stalls. -/
def Iss.ownFrom (i : Iss) (foreign : Option Nat) (info : Nat) : Except Halt Unit :=
  match foreign with
  | none => .ok ()
  | some r => if regionHeld i.st i.st.core r then trapNow 0x18 info else .error (.stall (swapRegion i.st.core r))
def Iss.ownRegion (i : Iss) (code a n info : Nat) : Except Halt Unit := i.ownFrom (foreignRegion i.st i.st.core code a n) info

/-- The checks of a typed-buffer operand: alignment, bounds, permission, ownership. -/
def Iss.checkBuf (i : Iss) (code a n align sz : Nat) (allowed : Bool) : Except Halt Unit := do
  let info := bufInfo a code sz
  if a % align ≠ 0 then trapNow 0x15 info
  else if bufSize code < a + n then trapNow 0x11 (bufInfo (Nat.max a (bufSize code)) code sz)
  else if !allowed then trapNow 0x16 info
  else i.ownRegion code a n info

/-- Linear typed-buffer bytes as the context sees them: performed bytes with its own stores laid over, and their poison. -/
def readBuf (s : State) (k x code a n : Nat) : List Byte × Bool :=
  (forwardBuf s k x code a (bufBytes s k code a n), forwardBad s k x code a n)

/-- A tile that overlaps C-buffer bytes is busy (09 R167): an operation in the MX queue reads or writes it. -/
def opTiles (m : MxOp) : List Nat := if m.opc = 0x10 || m.opc = 0x11 || m.opc = 0x12 || m.opc = 0x13 then [m.acc, m.bt] else [m.acc]
def busyTile (c : Core) (t : Nat) : Bool := c.mx.q.any (fun m => (opTiles m).contains t)
def busyTiles (c : Core) : Nat := (List.range 16).foldl (fun m t => if busyTile c t then m + 2 ^ t else m) 0

/-! ## Stores -/

/-- The eight words of a 64-byte block. -/
def words8 (bs : List Byte) : List Nat := (List.range 8).map (fun j => leVal ((bs.drop (8 * j)).take 8))

/-- A world store needs records of its stack's share: those in use, those promised to stores not yet performed, and its own must
fit (17 R337, 26 R450). -/
def newLines (s : State) (w : Nat) (ps : List (Nat × Nat × Nat)) : Nat :=
  (ps.flatMap (fun p => (pieces 256 p.1 p.2.2 4).filter (fun q =>
    (findOverlay s (stackOf q.1) (wovOf s p.2.1) w (q.1 % 65536 / 256) (s.worlds.overlays.length + 1)).isNone))).length
def promised (s : State) (stack : Nat) : Nat :=
  (s.cores.map (fun c => ((c.2.ms.gated ++ c.2.ms.released).map (fun t =>
    match t.tgt with
    | .mem w ps => if w = 0 then 0 else if ps.any (fun p => stackOf p.1 == stack) then newLines s w ps else 0
    | _ => 0)).foldl (· + ·) 0)).foldl (· + ·) 0
def Iss.overlayRoom (i : Iss) (c : Cap) (off : Nat) (ps : List (Nat × Nat × Nat)) : Iss :=
  let s := i.st
  let w := i.ctx.world
  if w = 0 || ps.isEmpty then i
  else
    let stack := stackOf (firstPhys ps)
    if newLines s w ps = 0 || usedRecords s stack + promised s stack + newLines s w ps ≤ shareOf s s.core s.cx then i
    else { i with port := some (i.port.getD (0x3A, extentInfo c.index (off / 65536) false, none)) }

/-- A store enters the gate (10 R214). -/
def Iss.gate (i : Iss) (cls : Nat) (tgt : Target) (data : List Byte) (tag bad : Bool) : Iss :=
  let c := i.core
  i.setCore { c with ms := c.ms.gate (Store.fresh i.st.cx cls tgt data tag bad) }

/-- A C-poisoned source row is consumed by a store to global memory (22 R387). -/
def Iss.consumeRows (i : Iss) (sels : List Nat) (rows : List Row) : Iss :=
  match rows, sels with
  | r :: rs, sel :: ss => if r.isBad then { i with corrupt := some (i.corrupt.getD sel) } else i.consumeRows ss rs
  | _, _ => i

/-- The offset of a global operand [cB + sO + imm] (R196, R216). -/
def Iss.globalOff (i : Iss) (so imm unit : Nat) : Iss × Nat :=
  let v := i.s so
  (v.1, offsetOf v.2 imm unit 40)
def Iss.bufferOff (i : Iss) (so imm unit : Nat) : Iss × Nat :=
  let v := i.s so
  (v.1, offsetOf v.2 imm unit 21)

end Sys2Proof.Machine
end

