-- ==== Sys2Proof/Machine/Fabric.lean ====
section
/-! DEFINITION. Machine/Fabric.lean: the fabric unit of a die as its requesters use it (12 R248, 15 R292 to R307, 25 R434 to R436): flits,
receive slots, request tags, what holds a request back, and the slot pattern. -/

namespace Sys2Proof.Machine

def fabOf (s : State) (d : Nat) : Fabric := (dieOf s d).fab
def setFab (s : State) (d : Nat) (f : Fabric) : State := setDie s d { dieOf s d with fab := f }

/-! ## Flits (R301, R304) -/

/-- The mode of a virtual channel: 0 CLEAR, 1 AUTH, else SEAL (R304); CLEAR while the feature is off (18 R352). -/
def vcMode (s : State) (vc : Nat) : Nat := if field s.ga.modFeatures 0 1 = 1 then field s.ga.vcsec (2 * vc) 2 else 0
/-- Payload bytes of one flit. -/
def flitRoom (s : State) (vc : Nat) : Nat := if vcMode s vc = 0 then 112 else 104
/-- Flits for n bytes. -/
def flitCount (s : State) (vc n : Nat) : Nat := Nat.max 1 ((n + flitRoom s vc - 1) / flitRoom s vc)
/-- The payload bytes a flit uses. -/
def Flit.bytes (f : Flit) : List Byte := (leBytes 112 f.payload.toNat).take f.len
/-- Cut bytes into pieces of n. -/
def chunks (n : Nat) (bs : List Byte) (fuel : Nat) : List (List Byte) :=
  match fuel with
  | 0 => []
  | fuel + 1 => if bs.length ≤ n then [bs] else bs.take n :: chunks n (bs.drop n) fuel
/-- The address word of a request: object index, offset, size code (R301). -/
def addrWord (obj off sz : Nat) : List Byte := leBytes 16 (obj % 67108864 + 67108864 * off + 73786976294838206464 * sz)
/-- The flits of an operation, the last with LAST = 1. SEQ and CRET are filled in as they leave. -/
def mkFlits (s : State) (dst vc kind cl tag inc aux : Nat) (bs : List Byte) : List Flit :=
  let ps := chunks (flitRoom s vc) bs (bs.length + 1)
  (List.range ps.length).map (fun n =>
    let p := ps.getD n []
    { dst := dst, src := Config.moduleNumber, vc := vc, rly := false, kind := kind, cl := cl % 16, seq := 0, tag := tag, inc := inc, cret := 0,
      len := p.length, last := n + 1 == ps.length, via := 0, aux := aux, fcrc := 0, payload := BitVec.ofNat 896 (leVal p) })

/-! ## Receive slots of a peer (R307) -/

def poolOf (f : Fabric) (peer : Nat) : Nat := mapGet f.pool 384 peer
/-- FABCFG.QUANT of a die (R310). -/
def quantOf (d : Die) : Nat := field (regRaw d 0x0710) 14 8
/-- One draw: QUANT slots, or what the pool holds, move to the context's count. -/
def drawSlots (s : State) (k x peer : Nat) : State :=
  let d := dieOfCore k
  let f := fabOf s d
  let n := Nat.min (quantOf (dieOf s d)) (poolOf f peer)
  let c := ctxOf s k x
  setCtx (setFab s d { f with pool := mapSet f.pool 384 peer (poolOf f peer - n) }) k x (setFsc c peer (fscOf c peer + n))
/-- Draws until the count reaches n or the pool is empty; a draw brings at least 1 slot, and no request needs more than 16. -/
def drawUpTo (s : State) (k x peer n fuel : Nat) : State :=
  match fuel with
  | 0 => s
  | fuel + 1 => if n ≤ fscOf (ctxOf s k x) peer || poolOf (fabOf s (dieOfCore k)) peer = 0 then s else drawUpTo (drawSlots s k x peer) k x peer n fuel
/-- Flits of the group at issue stand back for want of slots: each counts once for event source 3 (02 R37). -/
def countHeld (s : State) (peer n : Nat) : State :=
  let c := actCtx s
  let short := n - fscOf c peer
  let s := setAct s { c with slotWait := Nat.max c.slotWait short }
  if c.slotWait < short then countEvent s (dieOfCore s.core) 3 (short - c.slotWait) else s
/-- A request needs n slots at a peer: it stalls while the pool is empty. -/
def Iss.needSlots (i : Iss) (peer n : Nat) : Except Halt Iss :=
  let s := drawUpTo i.st i.st.core i.st.cx peer n 16
  if n ≤ fscOf (actCtx s) peer then .ok { i with st := s }
  else .error (.stall (fun t => countHeld (drawUpTo t t.core t.cx peer n 16) peer n))
/-- Spend n slots; who spent them is kept in order, so that each is credited as it returns. -/
def spendSlots (s : State) (k x peer n : Nat) : State :=
  let d := dieOfCore k
  let c := ctxOf s k x
  let f := fabOf s d
  setFab (setCtx s k x (setFsc c peer (fscOf c peer - n))) d { f with spent := f.spent ++ List.replicate n (peer, 8 * k + x) }

/-! ## Request tags (25 R434) -/

def tagAt' (f : Fabric) (ix : Nat) : ReqTag := mapGet f.tags ReqTag.init ix
def setTag (s : State) (d ix : Nat) (t : ReqTag) : State :=
  let f := fabOf s d
  setFab s d { f with tags := mapSet f.tags ReqTag.init ix t }
/-- The incarnation of the next request under a tag: unanswered ones are skipped. -/
def nextInc (t : ReqTag) : Option Nat := ([1, 2, 3, 4].map (fun i => (t.inc + i) % 4)).find? (fun v => !t.skips.any (fun k => k.1 == v))
/-- The die's 512 tags that a request can take, the lowest first (log 33). -/
def freeTags (f : Fabric) : List Nat :=
  (List.range 512).filter (fun ix => let t := tagAt' f ix; !t.busy && (nextInc t).isSome)
/-- Who waits for a tag: a group of a context, an engine of it, a deferred effect, the Shuttle, a request to be forwarded. -/
def groupAsks (k x : Nat) : Nat := 8 * k + x
def engineAsks (k x e : Nat) : Nat := 10000 * (e + 1) + 8 * k + x
def effectAsks : Nat := 90000
def shuttleAsks : Nat := 91000
def forwardAsks (src tag inc : Nat) : Nat := 100000 + 16384 * src + 4 * tag + inc
/-- The tag for a request: free tags go first to those that reached the fabric unit before it (R434). -/
def tagFor (f : Fabric) (w : Nat) : Option Nat :=
  if (f.waiting.takeWhile (fun p => p.1 != w)).length < (freeTags f).length then (freeTags f).head? else none
/-- A request that found no tag waits in its place. -/
def waitTag (s : State) (d w : Nat) : State :=
  let f := fabOf s d
  setFab s d { f with waiting := if f.waiting.any (fun p => p.1 == w) then f.waiting.map (fun p => if p.1 == w then (w, s.now) else p) else f.waiting ++ [(w, s.now)] }
/-- A waiting request that has not asked for 64 cycles is there no longer (log 33). -/
def pruneWaits (s : State) (d : Nat) : State :=
  let f := fabOf s d
  if f.waiting.isEmpty then s else setFab s d { f with waiting := f.waiting.filter (fun p => s.now ≤ p.2 + 64) }
/-- The name of a request: TAG plus 4,096 times INC, as EINFO of 0x1A holds it (22 R384). -/
def tagName (d ix inc : Nat) : Nat := 512 * d + ix + 4096 * inc

/-- The 256-byte spans of an object that bytes touch: the first, and how many more. -/
def spanOfBytes (obj off n : Nat) : Nat := 512 * (obj * 4294967296 + off / 256) + ((off + n - 1) / 256 - off / 256)
def spansMeet (a b : Nat) : Bool := decide (a / 512 ≤ b / 512 + b % 512) && decide (b / 512 ≤ a / 512 + a % 512)
def tagWrites (t : ReqTag) : Bool := t.kind == 2 || t.kind == 4 || t.kind == 6

/-- An earlier CPYR put of the context to the peer in a class of the mask is still queued (12 R252). -/
def putQueued (s : State) (t : ReqTag) : Bool :=
  (ctxOf s t.core t.ctx).eng.copy.any (fun m => m.kind == .cpyrPut && m.cap.bits.toNat / 17179869184 % 64 == t.peer
    && field t.mask m.cls 1 == 1 && decide (m.seq < t.seq))
/-- A deferred write of the context to the peer, in a class of the mask and earlier than the flag write, has not been issued (13 R277). -/
def effectQueued (s : State) (t : ReqTag) : Bool :=
  s.worlds.releasing.any (fun e => e.core == t.core && e.ctx == t.ctx && (e.kind == 2 || e.kind == 20) && e.mod == t.peer
    && field t.mask e.cls 1 == 1 && decide (e.seq < t.seq))
/-- What holds an unsent request at the source: an earlier write of the context to its span (13 R274), a flag write and the accesses it
fences (12 R252), every earlier access for a release (R251), and earlier local accesses in its class (13 R267). -/
def tagHeld (s : State) (d : Nat) (t : ReqTag) : Bool :=
  let others := (fabOf s d).tags.map (·.2)
  let before : List ReqTag := others.filter (fun u => u.busy && u.core == t.core && u.ctx == t.ctx && decide (u.seq < t.seq))
  let fenced : ReqTag → ReqTag → Bool := fun fl u => (u.kind == 2 || u.kind == 4) && u.peer == fl.peer && field fl.mask u.cls 1 == 1
  before.any (fun u => (tagWrites t && tagWrites u && u.peer == t.peer && spansMeet u.span t.span)
      || (t.kind == 6 && fenced t u) || (u.kind == 6 && fenced u t) || (t.kind == 4 && t.mask == 65536))
    || (t.kind == 6 && (putQueued s t || effectQueued s t))
    || (t.eng.isNone && blockedReq (localReqs (coreOf s t.core) ++ releasedReqs s t.core) ⟨t.ctx, t.cls, t.seq, 8, [], false⟩ (t.kind == 4 && t.mask == 65536))

/-- The request `w` takes a tag: its flits are queued on VC0, or VC4 for a message. -/
def takeTag (s : State) (w k x ix peer vc kind cls span seq mask : Nat) (eng : Option Nat) (aux : Nat) (bs : List Byte) : State × Nat :=
  let d := dieOfCore k
  let t := tagAt' (fabOf s d) ix
  let inc := (nextInc t).getD 0
  let s := setTag s d ix { t with inc := inc, busy := true, peer := peer, core := k, ctx := x, kind := kind, cls := cls, span := span, seq := seq,
                                  mask := mask, eng := eng, sent := none }
  let f := fabOf s d
  (setFab s d { f with sendQ := f.sendQ ++ mkFlits s peer vc kind cls (512 * d + ix) inc aux bs, waiting := f.waiting.filter (fun p => p.1 != w) },
   tagName d ix inc)

/-- A message of this module for one of its own cores. -/
def ownMessage (s : State) (d core hnd name : Nat) (bs : List Byte) : State :=
  let h := if core < 640 then dieOfCore core else d
  let f := fabOf s h
  setFab s h { f with messages := f.messages ++ [⟨Config.moduleNumber, h, [], name % 4096, name / 4096, core, hnd, bs, none⟩] }

/-- PEERDOWN of a die (25 R436, R441). -/
def peerDown (s : State) (d peer : Nat) : Bool := field (regRaw (dieOf s d) 0x0760) peer 1 = 1

/-! ## The slot pattern (15 R296, R297, R310) -/

/-- The entry of slot, port and pair in a bank. -/
def bankEntry (d : Die) (bank slot port pair : Nat) : Nat :=
  let e := 256 * slot + 8 * port + pair
  let off := 0x1000 + 0x1000 * bank + 2 * e
  field (regRaw d (off / 8 * 8)) (16 * (e % 4)) 16
/-- The active bank, and the one that was active in a rotation: the other before the last switch (R299). -/
def bankNow (d : Die) : Nat := field (regRaw d 0x0708) 0 1
def bankIn (d : Die) (rot : Nat) : Nat := if rot < d.switched then 1 - bankNow d else bankNow d
/-- The entry of slot, port and pair in the active bank. -/
def patEntry (d : Die) (slot port pair : Nat) : Nat := bankEntry d (bankNow d) slot port pair
def txChan (e : Nat) : Nat := field e 0 6
def txOn (e : Nat) : Bool := field e 6 1 = 1
def rxChan (e : Nat) : Nat := field e 8 6
def rxOn (e : Nat) : Bool := field e 14 1 = 1
/-- The extents of a torus mode (R300): 1 is 4×4×4, 2 is 8×8, 3 is 2×4×8. -/
def torusExtents (mode : Nat) : List Nat := if mode = 1 then [4, 4, 4] else if mode = 2 then [8, 8, 1] else [2, 4, 8]
/-- The neighbour of a module in direction m: +x, −x, +y, −y, +z, −z. -/
def torusNeighbour (mode i m : Nat) : Nat :=
  let e := torusExtents mode
  let n := e.getD (m / 2) 1
  let below := (e.take (m / 2)).foldl (· * ·) 1
  let c := i / below % n
  i - below * c + below * (if m % 2 = 0 then (c + 1) % n else (c + n - 1) % n)
/-- The pattern entry of module i in a torus mode (R300): the fixed pairs serve the neighbours in every slot; a rotating entry whose channel a
fixed pair of the port has is off. -/
def torusEntry (mode i slot port pair : Nat) : Nat :=
  let fixed := if mode = 2 then 4 else 6
  let tx : Nat → Nat := fun m => (torusNeighbour mode i m + 64 - i) % 64
  let rx : Nat → Nat := fun m => (i + 64 - torusNeighbour mode i (if m % 2 = 0 then m + 1 else m - 1)) % 64
  if pair < fixed then tx pair + 64 + 256 * rx pair + 16384
  else
    let ch := if mode = 2 then 32 * (port % 2) + 4 * slot + (pair - 4) else 16 * port + 2 * slot + (pair - 6)
    let on : (Nat → Nat) → Nat := fun f => if ((List.range fixed).map f).contains ch then 0 else 1
    ch + 64 * on tx + 256 * ch + 16384 * on rx
/-- The entry that module v has where this one has its own: the same, but in a torus mode (R298, R300). -/
def entryOf (die : Die) (v slot port pair : Nat) : Nat := if die.torus = 0 then patEntry die slot port pair else torusEntry die.torus v slot port pair
/-- Cycle of the rotation, slot, and cycle of the slot. -/
def rotCycle (s : State) : Nat := (s.now - s.rotAt) % 5120
def slotNow (s : State) : Nat := rotCycle s / 640
def slotCycle (s : State) : Nat := rotCycle s % 640
/-- The channel from this module to module j (R292). -/
def chanTo (j : Nat) : Nat := (j + 64 - Config.moduleNumber) % 64

/-- The comb source of a die (01 R14). -/
def sourceOf (d : Nat) : Nat := d / 4
/-- A ring's override in effect names a spare for the channel. -/
def onSpare (die : Die) (n ch : Nat) : Bool :=
  let m := effRaw die (0x0400 + 8 * n)
  field m 13 1 = 1 && field m 0 6 = ch && decide (64 ≤ field m 6 7) && decide (field m 6 7 < 72)
/-- The spare that a ring's override names is locked to the channel; a ring whose entry names an unlocked spare is silent on it (R294). -/
def spareServes (die : Die) (d n ch : Nat) : Bool :=
  let lock := regRaw die (0x0600 + 8 * (8 * sourceOf d + (field (effRaw die (0x0400 + 8 * n)) 6 7 - 64)))
  field lock 7 1 = 1 && field lock 0 6 = ch
/-- A transmit ring carries a channel: its entry is enabled, it is not retired, and its line is neither lost without a spare nor a
spare that is not locked to the channel (15 R294, 25 R436 to R438). -/
def ringServes (s : State) (d slot port pair : Nat) : Bool :=
  let die := dieOf s d
  let e := patEntry die slot port pair
  let n := 16 * port + pair
  txOn e && !mapGet die.fab.retired false n
    && (if onSpare die n (txChan e) then spareServes die d n (txChan e) else field (regRaw die (0x0768 + 8 * sourceOf d)) (txChan e) 1 = 0)
/-- The (port, pair) places of a die's transmit rings. -/
def ringPlaces : List (Nat × Nat) := (List.range 4).flatMap (fun p => (List.range 8).map (fun m => (p, m)))
/-- A slot carries a channel. -/
def slotServes (s : State) (d slot ch : Nat) : Bool :=
  ringPlaces.any (fun pm => txChan (patEntry (dieOf s d) slot pm.1 pm.2) == ch && ringServes s d slot pm.1 pm.2)
/-- Slots from the current one until one carries the channel; none where no slot does. -/
def slotsTo (s : State) (d ch : Nat) : Option Nat :=
  if ch = 0 then none else (List.range 8).find? (fun i => slotServes s d ((slotNow s + i) % 8) ch)
/-- w_slot of a flit for a channel now (15 R309). -/
def slotWait (s : State) (d ch : Nat) : Option Nat :=
  (slotsTo s d ch).map (fun i => if i = 0 then 0 else 640 * i + 20 - slotCycle s)

/-! ## Receive slots of this die (15 R307) -/

def heldAt (f : Fabric) (port src : Nat) : Nat := mapGet f.held 0 (64 * port + src)
/-- A slot is held for a flit from a module at a port. -/
def holdSlot (f : Fabric) (port src : Nat) : Fabric := { f with held := mapSet f.held 0 (64 * port + src) (heldAt f port src + 1) }
/-- A slot is free again, and will be returned. -/
def freeSlot (now : Nat) (f : Fabric) (port src : Nat) : Fabric :=
  { f with
    held := mapSet f.held 0 (64 * port + src) (heldAt f port src - 1)
    toReturn := mapSet f.toReturn 0 src (mapGet f.toReturn 0 src + 1)
    returnAt := if mapGet f.returnAt 0 src = 0 then mapSet f.returnAt 0 src (now + 512) else f.returnAt }
def freeSlots (s : State) (d src : Nat) (ports : List Nat) : State :=
  if ports.isEmpty then s else setFab s d (ports.foldl (fun f p => freeSlot s.now f p src) (fabOf s d))
/-- Slots this die holds for a module, over all its ports (25 R429). -/
def heldFor (f : Fabric) (src : Nat) : Nat := ((List.range 4).map (fun p => heldAt f p src)).foldl (· + ·) 0

end Sys2Proof.Machine
end

