-- ==== Sys2Proof/Machine/LoadStore.lean ====
section
/-! DEFINITION. Machine/LoadStore.lean: loads, stores, prefetch, atomics, fences and the arrival barrier (11 R216 to R227, R233 to
R236, 23 R410). -/

namespace Sys2Proof.Machine

/-! ## Loads -/

/-- A load of format MM by capability (R219): queue destination, then the memory operand. `far` is the cause of a far block. -/
def Iss.loadPlace (i : Iss) (f : MM) (imm regCause : Nat) (far : Option Nat) : Except Halt (Iss × Land × Place × Nat) := do
  let o := i.globalOff f.so imm (sizeUnit f.sz)
  let d ← o.1.loadDest f.sz f.ds
  let l ← d.1.locate f.cb o.2 (sizeBytes f.sz) (sizeAlign f.sz) rLOAD f.sz false regCause far
  .ok (l.1, d.2, l.2, o.2)
/-- An 8-byte LDS of a register object reads at issue and lands at t + 32 (27 R453). -/
def Iss.loadReg (i : Iss) (d off sd : Nat) : Iss :=
  let v := BitVec.ofNat 64 (regRead i.st d off)
  { i with st := regAfterRead i.st d off }.writeS 32 sd v

def opLds (f : MM) : Op := fun i => do
  let l ← i.loadPlace f f.imm (if f.sz = 3 then 0 else 0x16) (some 0x1D)
  match l.2.2.1 with
  | .mem ps => l.1.loadMem f.cl ps l.2.1 false
  | .reg d off => .ok (l.1.loadReg d off (f.ds % 64))
def opLdv (f : MM) : Op := fun i => do
  let l ← i.loadPlace f f.imm 0x16 (some 0x1D)
  match l.2.2.1 with
  | .mem ps => l.1.loadMem f.cl ps l.2.1 false
  | .reg _ _ => .ok l.1
/-- LDX: the tag that lands is the stored one AND LOADCAP of the capability used (R221). -/
def opLdx (f : MM) : Op := fun i => do
  let o := i.globalOff f.so f.imm 16
  let c := readC o.1.ctx f.cb
  let l ← o.1.locate f.cb o.2 16 16 rLOAD 0 false 0x16 (some 0x1D)
  match l.2 with
  | .mem ps => l.1.loadMem f.cl ps (.cap (f.ds % 16) Cap.zero) (c.grants 4)
  | .reg _ _ => .ok l.1
/-- LDF: IMM12 is D / 8, and no immediate enters the address (R223). -/
def opLdf (f : MM) : Op := fun i => do
  let l ← i.loadPlace f 0 0x16 none
  match l.2.2.1 with
  | .mem ps => .ok (l.1.loadFar f.cl (8 * f.imm) ps l.2.1)
  | .reg _ _ => .ok l.1

/-- LDB (R222): lands at t + 4 with the context's gated stores and what others perform by then; poison for a scalar is consumed. -/
def opLdb (f : MM) : Op := fun i => do
  let code := f.cb / 4
  let o := i.bufferOff f.so f.imm (sizeUnit f.sz)
  let d ← o.1.loadDest f.sz f.ds
  let i := d.1
  let n := sizeBytes f.sz
  i.checkBuf code o.2 n (sizeAlign f.sz) f.sz (code ≠ 0)
  if i.waitsLate ⟨0, f.cl, 0, 1 + code, [(o.2, n)], false⟩ false then stallNow
  else if code = 2 && ((List.range 16).any (fun t => busyTile i.core t && decide (o.2 < 81920 * (t + 1)) && decide (81920 * t < o.2 + n))) then stallNow
  else
    let r := readBuf i.st i.st.core i.st.cx code o.2 n
    let i := if r.2 && f.sz < 4 then i.consumes 0xFF .corrupt else i
    let v := match d.2 with
      | .scalar k _ => Land.scalar k (BitVec.ofNat 64 (leVal r.1))
      | w => landValue w r.1 r.2 false
    .ok { i with pends := i.pends ++ [(i.slot, { due := i.clock + 4, iss := i.clock, what := v, ring := none, waits := none, note := none,
                                                 src := some ⟨code, f.cl, o.2, n, i.core.ms.gates⟩, acq := false, check := none,
                                                 struck := false })] }

/-- PREF (R224): the aligned 256-byte span that holds o, unless it is present, not allowed, or not near and resident; never a
fault. -/
def opPref (f : MM) : Op := fun i =>
  let o := offsetOf (readS i.ctx f.so) f.imm 1 40
  let c := readC i.ctx f.cb
  let s := i.st
  if !c.tag || !c.grants rLOAD || decide (o < c.lower) || decide (c.upper < o + 1) || decide (c.home ≠ Config.moduleNumber)
      || (regObject c).isSome then .ok i
  else do
    i.needObject c
    match objEntry s (ctxJob s s.core s.cx) i.die c.index with
    | none => .ok i
    | some (dir, nblk) =>
      if nblk ≤ o / 65536 then .ok i
      else
        match walk s i.die dir (o / 256 * 256) with
        | .hbm p leaf =>
          let ps := [(p, leaf, 256)]
          if dieOfAddr p ≠ i.die || hitsCache s s.core i.ctx.world ps then .ok i
          else
            let q := takeSeq (raiseHeat s leaf false) s.core
            let b := bindSpan q.1 s.core ps
            let n := { i with st := b.1 }.newKey
            let l : LoadReq := { ctx := s.cx, key := n.2, cls := 16, world := i.ctx.world, seq := q.2, pieces := ps, own := [],
                                 dst := .none Row.zero, wantTag := false, fill := true, exact := true,
                                 reach := none, slot := some b.2, fin := some (b.2 + 152), got := none }
            let co := n.1.core
            .ok (n.1.setCore { co with ms := { co.ms with loads := co.ms.loads ++ [l] } })
        | _ => .ok i

/-! ## Stores -/

/-- A store of bytes by capability enters the gate; in a world it needs its overlay records (17 R337). -/
def Iss.storeTo (i : Iss) (ci off cls : Nat) (p : Place) (data : List Byte) (tag : Bool) : Iss :=
  match p with
  | .reg d o => i.gate cls (.reg d o) data false false
  | .mem [] => i
  | .mem ps => (i.overlayRoom (readC i.ctx ci) off ps).gate cls (.mem i.ctx.world ps) data tag false
def opSts (f : MM) : Op := fun i => do
  let v := i.s (f.ds % 64)
  let o := v.1.globalOff f.so f.imm (sizeUnit f.sz)
  let l ← o.1.locate f.cb o.2 (sizeBytes f.sz) (sizeAlign f.sz) rSTORE f.sz true (if f.sz = 3 then 0 else 0x16) none
  .ok (l.1.storeTo f.cb o.2 f.cl l.2 (leBytes (sizeBytes f.sz) v.2.toNat) false)
/-- STV: any source selector; a scalar broadcast repeats S[x] (R219). C-poison is consumed (22 R387). -/
def opStv (f : MM) : Op := fun i => do
  let v ← i.sources 64 16 [f.ds] []
  let i := v.1.consumeRows [f.ds] v.2
  let o := i.globalOff f.so f.imm (sizeUnit f.sz)
  let l ← o.1.locate f.cb o.2 (sizeBytes f.sz) (sizeAlign f.sz) rSTORE f.sz true 0x16 none
  .ok (l.1.storeTo f.cb o.2 f.cl l.2 (leBytes (sizeBytes f.sz) (v.2.headD Row.zero).bits.toNat) false)
/-- STX: the stored tag is that of C[ca] AND STORECAP of the capability used (R221). -/
def opStx (f : MM) : Op := fun i => do
  let v := readC i.ctx (f.ds % 16)
  let o := i.globalOff f.so f.imm 16
  let c := readC o.1.ctx f.cb
  let l ← o.1.locate f.cb o.2 16 16 rSTORE 0 true 0x16 none
  .ok (l.1.storeTo f.cb o.2 f.cl l.2 (leBytes 16 v.bits.toNat) (v.tag && c.grants 8))
/-- STB (R222): buffers A and S; poison is carried (22 R386). -/
def opStb (f : MM) : Op := fun i => do
  let code := f.cb / 4
  let v : Iss × Nat × Bool ← (
    if f.sz < 4 then
      let v := i.s (f.ds % 64)
      .ok (v.1, v.2.toNat, false)
    else do
      let v ← i.sources 64 16 [f.ds] []
      .ok (v.1, (v.2.headD Row.zero).bits.toNat, (v.2.headD Row.zero).isBad))
  let o := v.1.bufferOff f.so f.imm (sizeUnit f.sz)
  let n := sizeBytes f.sz
  o.1.checkBuf code o.2 n (sizeAlign f.sz) f.sz (code = 1 || code = 3)
  .ok (o.1.gate f.cl (.buf code o.2) (leBytes n v.2.1) false v.2.2)

/-! ## Atomics and barriers (R225, R226, R233, R234) -/

/-- An atomic on its way to its controller: slots bound near, bridges first for another die. -/
def Iss.sendAtom (i : Iss) (m : AtomReq) : Iss :=
  let s := i.st
  let q := takeSeq s s.core
  let r : State × AtomReq := match farDie s.core m.pieces with
    | some e => (q.1, { m with seq := q.2, reach := some (s.now + 48 * hops (dieOfCore s.core) e) })
    | none =>
      let b := bindSpan q.1 s.core m.pieces
      (b.1, { m with seq := q.2, slot := some b.2, fin := some (b.2 + 152) })
  let i := { i with st := r.1 }
  let c := i.core
  i.setCore { c with ms := { c.ms with atoms := c.ms.atoms ++ [r.2] } }

/-- ATOM: FN is OP [3:0], SZ [4], ORD [6:5], SCOPE [9:7] (R225). -/
def opAtom (f : MD) : Op := fun i => do
  let sd := f.ds % 64
  let op := f.fn % 16
  let sz := 2 + field f.fn 4 1
  let ord := field f.fn 5 2
  let scope := field f.fn 7 3
  let x := i.s sd
  let y : Iss × BitVec 64 := if op = 9 then x.1.s (sd + 1) else (x.1, 0#64)
  let o := y.1.globalOff f.so 0 1
  let l ← o.1.locate f.cb o.2 (2 ^ sz) (2 ^ sz) rATOMIC sz true 0x1C (some 0x1C)
  match l.2 with
  | .reg _ _ => .ok l.1
  | .mem ps =>
    let i := l.1
    if ps.isEmpty then .ok i
    else if i.waitsOrder f.cl ps false (2 ≤ ord) then stallNow
    else
      let i := i.overlayRoom (readC i.ctx f.cb) o.2 ps
      let n := i.newKey
      let i := n.1.sendAtom { ctx := i.st.cx, cls := f.cl, op := op, bytes := 2 ^ sz, world := i.ctx.world, pieces := ps, x := x.2, y := y.2,
                              key := some n.2, flush := i.flush, ord := ord, scope := scope, seq := 0, reach := none, slot := none, fin := none }
      let w := (((i.core.ms.atoms.getLast?).bind (·.slot)).getD i.st.now) - i.st.now
      .ok (i.await (w + 192) (.scalar sd 0#64) n.2 (ord % 2 = 1 && 1 < scope))

/-- The barrier operand of format MQ: CB [25:22] and the offset S[SA] (R234). -/
def Iss.barrier (i : Iss) (f : MQ) (rights : Nat) (write : Bool) : Except Halt (Iss × Nat × List (Nat × Nat × Nat)) := do
  let o := i.globalOff f.sa 0 1
  let l ← o.1.locate (field f.imm 22 4) o.2 16 16 rights 0 write 0x1C none
  match l.2 with
  | .mem ps => .ok (l.1, o.2, ps)
  | .reg _ _ => .ok (l.1, o.2, [])
/-- The update of ARREXP (16) or ARRIVE (17); a count of 0 changes nothing and still releases (23 R410). -/
def Iss.sendBarrier (i : Iss) (f : MQ) (op ord : Nat) : Except Halt Iss := do
  let n := i.s f.sb
  let b ← n.1.barrier f rATOMIC true
  let i := b.1
  if b.2.2.isEmpty then .ok i
  else
    let i := i.overlayRoom (readC i.ctx (field f.imm 22 4)) b.2.1 b.2.2
    .ok (i.sendAtom { ctx := i.st.cx, cls := 0, op := op, bytes := 16, world := i.ctx.world, pieces := b.2.2, x := n.2 &&& 0xFFFFFFFF#64, y := 0#64,
                      key := none, flush := 0, ord := ord, scope := field f.imm 19 3, seq := 0, reach := none, slot := none, fin := none })
def opArrexp (f : MQ) : Op := fun i => i.sendBarrier f 16 0
def opArrive (f : MQ) : Op := fun i => i.sendBarrier f 17 2
/-- The memory bytes a context sees at a place: its world's view with its own stores laid over. -/
def Iss.peekMem (i : Iss) (ps : List (Nat × Nat × Nat)) : List Byte :=
  ps.flatMap (fun p => (pieces 256 p.1 p.2.2 4).flatMap (fun q =>
    forwardMem i.st i.st.core i.st.cx (viewAddr i.ctx.world p.2.1 q.1) (readIn i.st i.ctx.world q.1 p.2.1 q.2)))
/-- ARRIVE.w stalls until (PH − S[sB]) mod 2^32 < 2^31, and then acquires (R234). -/
def opArriveWait (f : MQ) : Op := fun i => do
  let n := i.s f.sb
  let b ← n.1.barrier f rLOAD false
  let i := b.1
  if b.2.2.isEmpty then .ok i
  else
    let ph := leVal (((i.peekMem b.2.2).drop 8).take 4)
    if 2147483648 ≤ (ph + 4294967296 - n.2.toNat % 4294967296) % 4294967296 then stallNow
    else .ok (if 1 < field f.imm 19 3 then i.atEnd (fun s => dropLines s s.core s.cx) else i)

/-! ## Fences (R227) -/

/-- A typed-buffer load of the context in a masked class has not landed, and so not read its bytes (R222): the group's own entries
are not yet in the shadow record. -/
def bufLoadOpen (c : Ctx) (mask : Nat) : Bool :=
  c.regs.shadow.any (fun p => match p.src with | some q => field mask q.cls 1 = 1 | none => false)
/-- Some access of the context in a masked class, numbered below `upto`, is not performed; a barrier update and a
flag write are of every class. -/
def fenceOpen (s : State) (k x mask upto : Nat) : Bool :=
  (openReqs s k).any (fun v => v.ctx == x && decide (v.seq < upto) && (v.arr || v.cls == 16 || field mask v.cls 1 = 1)) || bufLoadOpen (ctxOf s k x) mask
def opFence (f : MQ) : Op := fun i =>
  let mask := if f.imm % 65536 = 0 then 65535 else f.imm % 65536
  if fenceOpen i.st i.st.core i.st.cx mask i.seq0 then stallNow
  else .ok (if 1 < field f.imm 16 3 then i.atEnd (fun s => dropLines s s.core s.cx) else i)

/-! ## The instructions: each issues as a group of its own (05 R85) -/

/-- LDS. -/
def execLds (g : Guard) (f : MM) (s : State) : Host.Outcome State Fault Refusal :=
  .next (issueSyl (.lds g f) (opLds f) s)
/-- LDV. -/
def execLdv (g : Guard) (f : MM) (s : State) : Host.Outcome State Fault Refusal :=
  .next (issueSyl (.ldv g f) (opLdv f) s)
/-- LDX. -/
def execLdx (g : Guard) (f : MM) (s : State) : Host.Outcome State Fault Refusal :=
  .next (issueSyl (.ldx g f) (opLdx f) s)
/-- LDF. -/
def execLdf (g : Guard) (f : MM) (s : State) : Host.Outcome State Fault Refusal :=
  .next (issueSyl (.ldf g f) (opLdf f) s)
/-- LDB. -/
def execLdb (g : Guard) (f : MM) (s : State) : Host.Outcome State Fault Refusal :=
  .next (issueSyl (.ldb g f) (opLdb f) s)
/-- PREF. -/
def execPref (g : Guard) (f : MM) (s : State) : Host.Outcome State Fault Refusal :=
  .next (issueSyl (.pref g f) (opPref f) s)
/-- STS. -/
def execSts (g : Guard) (f : MM) (s : State) : Host.Outcome State Fault Refusal :=
  .next (issueSyl (.sts g f) (opSts f) s)
/-- STV. -/
def execStv (g : Guard) (f : MM) (s : State) : Host.Outcome State Fault Refusal :=
  .next (issueSyl (.stv g f) (opStv f) s)
/-- STX. -/
def execStx (g : Guard) (f : MM) (s : State) : Host.Outcome State Fault Refusal :=
  .next (issueSyl (.stx g f) (opStx f) s)
/-- STB. -/
def execStb (g : Guard) (f : MM) (s : State) : Host.Outcome State Fault Refusal :=
  .next (issueSyl (.stb g f) (opStb f) s)
/-- ATOM. -/
def execAtom (g : Guard) (f : MD) (s : State) : Host.Outcome State Fault Refusal :=
  .next (issueSyl (.atom g f) (opAtom f) s)
/-- ARREXP. -/
def execArrexp (g : Guard) (f : MQ) (s : State) : Host.Outcome State Fault Refusal :=
  .next (issueSyl (.arrexp g f) (opArrexp f) s)
/-- ARRIVE. -/
def execArrive (g : Guard) (f : MQ) (s : State) : Host.Outcome State Fault Refusal :=
  .next (issueSyl (.arrive g f) (opArrive f) s)
/-- ARRIVE_WAIT. -/
def execArriveWait (g : Guard) (f : MQ) (s : State) : Host.Outcome State Fault Refusal :=
  .next (issueSyl (.arriveWait g f) (opArriveWait f) s)
/-- FENCE. -/
def execFence (g : Guard) (f : MQ) (s : State) : Host.Outcome State Fault Refusal :=
  .next (issueSyl (.fence g f) (opFence f) s)

end Sys2Proof.Machine
end

