-- ==== Sys2Proof/Machine/Remote.lean ====
section
/-! DEFINITION. Machine/Remote.lean: the remote memory operations (12 R248 to R253, 25 R434, R436), what they do at their own module,
and the deferral of stores in worlds (17 R340, R341). -/

namespace Sys2Proof.Machine

/-- Irrevocable in a world (17 R341): 0x3C. -/
def Iss.revocable (i : Iss) : Except Halt Unit := if i.ctx.world = 0 then .ok () else trapNow 0x3C (worldInfo i.st i.ctx.world 0 false)

/-- Entries that the queued CPYR puts of a world will take (R340, 26 R451). -/
def putEntries (m : Cmd) : Nat := if m.kind == .cpyrPut then (4 * (m.desc.run + 1) * walkLength m.desc.cnts + 4095) / 4096 else 0
def reservedEffects (s : State) (w : Nat) : Nat :=
  (s.ctxs.map (fun c => if c.2.world = w then (c.2.eng.copy.map putEntries).foldl (· + ·) 0 else 0)).foldl (· + ·) 0
/-- Free entries of a world's effect buffer (R340). -/
def effectRoom (s : State) (w : Nat) : Nat := 4096 - (mapGet s.worlds.effects [] w).length - reservedEffects s w
def addEffects (s : State) (w : Nat) (es : List Effect) : State :=
  { s with worlds := { s.worlds with effects := mapSet s.worlds.effects [] w (mapGet s.worlds.effects [] w ++ es) } }
/-- A deferral that finds too few free entries fails with 0x3B (17 R340, 26 R451). -/
def Iss.needEffects (i : Iss) (n : Nat) : Except Halt Unit :=
  if n ≤ effectRoom i.st i.ctx.world then .ok () else trapNow 0x3B (worldInfo i.st i.ctx.world (effectRoom i.st i.ctx.world) false)

/-- The operand of a remote form (R248): S[so][39:0], the checks of R196 with REMOTE besides the local rights, and the object check at
the source (24 R414). A register object is not reached (0x16). The answer is the home module and the offset. -/
def Iss.remoteAt (i : Iss) (ci so n align rights sz : Nat) : Except Halt (Iss × Nat × Nat) := do
  let o := i.globalOff so 0 1
  let i := o.1
  let c := readC i.ctx ci
  i.needObject c
  checkCap c ci o.2 n align (rights ||| rREMOTE) sz
  if 67108856 ≤ c.index then trapNow 0x16 (memInfo o.2 ci sz)
  else if c.home = Config.moduleNumber then .ok (i, c.home, o.2)
  else if Config.remoteBlocks c.obj i.st.now ≤ (o.2 + n - 1) / 65536 then trapNow 0x13 (memInfo o.2 ci sz)
  else .ok (i, c.home, o.2)

/-- A request to another module: slots, a tag, its flits; the context waits for its reply under `r`. An unreachable peer gets no request
(R436): the answer is none. -/
def Iss.sendReq (i : Iss) (peer kind cls n span mask info : Nat) (bs : List Byte) (dst : Land) (push acq : Bool) : Except Halt (Iss × Option Nat) := do
  if peerDown i.st i.die peer then
    .ok (i.atEnd (fun s => setAct s (raiseA (actCtx s) 0x2E (peer + 64 * kind))), none)
  else
    let i ← i.needSlots peer n
    let w := groupAsks i.st.core i.st.cx
    match tagFor (fabOf i.st i.die) w with
    | none => .error (.stall (fun s => waitTag s i.die w))
    | some ix =>
      let k := i.st.core
      let x := i.st.cx
      let q := takeSeq (spendSlots i.st k x peer n) k
      let t := takeTag q.1 w k x ix peer 0 kind cls span q.2 mask none 0 bs
      let c := ctxOf t.1 k x
      let r : FarReq := { tag := t.2, seq := q.2, peer := peer, kind := kind, cls := cls, dst := dst, push := push, acq := acq, info := info }
      .ok ({ i with st := Sys2Proof.Machine.setCtx t.1 k x { c with reqs := c.reqs ++ [r] } }, some t.2)

/-- The destination of a read that gets no answer is C-poisoned (25 R434, R436). -/
def spoiled (dst : Land) : Land :=
  match dst with
  | .scalar n _ => .spoil n
  | .row q r _ => .row q r ⟨0#1024, .corrupt⟩
  | w => w
/-- Add an entry that waits for nothing. -/
def Iss.landing (i : Iss) (lat : Nat) (w : Land) : Iss := i.add lat w none 0

/-- The pieces of a local block access of a remote form at its own module: any HBM block of the module. -/
def Iss.ownPlace (i : Iss) (ci off n sz : Nat) (write : Bool) : Except Halt (Iss × List (Nat × Nat × Nat)) := do
  let r ← i.resolve (readC i.ctx ci) ci off n sz write none
  match r.2 with
  | .mem ps => .ok (r.1, ps)
  | .reg _ _ => .ok (r.1, [])
/-- In a world an own-module LDR or LDRW reads committed memory (R248, 13 R276). -/
def Iss.asBase (l : LoadReq) (w : Nat) : LoadReq := if w = 0 then l else { l with world := 0, own := [] }
def baseLoads (s : State) (k key w : Nat) : State :=
  let c := coreOf s k
  setCore s k { c with ms := { c.ms with loads := c.ms.loads.map (fun l => if l.ctx == s.cx && l.key == key then Iss.asBase l w else l) } }

/-- LDR (R249): FN is DL [11:0], SZ [14:12]. -/
def opLdr (f : MD) : Op := fun i => do
  let sz := field f.fn 12 3
  let d := 8 * (f.fn % 4096)
  let n := sizeBytes sz
  let t ← i.loadDest sz f.ds
  let a ← t.1.remoteAt f.cb f.so n (sizeAlign sz) rLOAD sz
  let i := a.1
  if a.2.1 = Config.moduleNumber then
    let p ← i.ownPlace f.cb a.2.2 n sz false
    let j := p.1.loadFar f.cl d p.2 t.2
    .ok { j with st := baseLoads j.st j.st.core ((j.core.ms.loads.getLast?).map (·.key) |>.getD 0) i.ctx.world }
  else
    let c := readC i.ctx f.cb
    let r ← i.sendReq a.2.1 0 f.cl 1 (spanOfBytes c.obj a.2.2 n) 0 (memInfo a.2.2 f.cb sz) (addrWord c.index a.2.2 sz) t.2 false false
    match r.2 with
    | some tag => .ok (r.1.await d t.2 tag false)
    | none => .ok (r.1.landing d (spoiled t.2))

/-- The row of an engine-fed queue that a reply will push (R249, R251, 23 R401). -/
def Iss.claimReply (i : Iss) (q : Nat) : Except Halt (Iss × Nat) :=
  if (qcfgOf i.c0 q).cls ≠ 2 then trapNow 0x08 q else i.claim q
/-- The context waits for an own-module request whose row is pushed on arrival. -/
def Iss.ownReply (i : Iss) (key kind cls : Nat) (dst : Land) (acq : Bool) : Iss :=
  let c := i.ctx
  i.setCtx { c with reqs := c.reqs ++ [{ tag := key, seq := i.core.ms.seq - 1, peer := Config.moduleNumber, kind := kind, cls := cls, dst := dst, push := true, acq := acq, info := 0 }] }

/-- LDRW (R249): the row is pushed when the data arrives. -/
def opLdrw (f : MD) : Op := fun i => do
  let sz := field f.fn 12 3
  let n := sizeBytes sz
  let q := f.ds % 64
  let t ← i.claimReply q
  let dst := Land.row q t.2 Row.zero
  let a ← t.1.remoteAt f.cb f.so n (sizeAlign sz) rLOAD sz
  let i := a.1
  if a.2.1 = Config.moduleNumber then
    let p ← i.ownPlace f.cb a.2.2 n sz false
    if p.2.isEmpty then .ok p.1
    else
      let before := p.1.pends
      let j := p.1.loadFar f.cl 0 p.2 dst
      let key := ((j.core.ms.loads.getLast?).map (·.key)).getD 0
      .ok ({ j with st := baseLoads j.st j.st.core key i.ctx.world, pends := before }.ownReply key 0 f.cl dst false)
  else
    let c := readC i.ctx f.cb
    let r ← i.sendReq a.2.1 0 f.cl 1 (spanOfBytes c.obj a.2.2 n) 0 (memInfo a.2.2 f.cb sz) (addrWord c.index a.2.2 sz) dst true false
    match r.2 with
    | some _ => .ok r.1
    | none => .ok (r.1.atEnd (fun s => pushRow s s.core s.cx q t.2 ⟨0#1024, .corrupt⟩))

/-- STR (R250): deferred in a world, gated at its own module, sent otherwise. Poison is consumed (22 R387). -/
def opStr (f : MD) : Op := fun i => do
  let sz := field f.fn 12 3
  let n := sizeBytes sz
  let v : Iss × List Byte ← (
    if sz < 4 then
      let v := i.s (f.ds % 64)
      .ok (v.1, leBytes n v.2.toNat)
    else do
      let v ← i.sources 64 16 [f.ds] []
      .ok (v.1.consumeRows [f.ds] v.2, leBytes n (v.2.headD Row.zero).bits.toNat))
  let a ← v.1.remoteAt f.cb f.so n (sizeAlign sz) rSTORE sz
  let i := a.1
  let c := readC i.ctx f.cb
  if i.ctx.world ≠ 0 then
    i.needEffects 1
    let w := i.ctx.world
    let e : Effect := { kind := 2, core := i.st.core, ctx := i.st.cx, cls := f.cl, mod := a.2.1, obj := c.index, off := a.2.2, size := sz, aux := 0, runs := [], data := v.2, seq := 0 }
    .ok (i.atEnd (fun s => addEffects s w [e]))
  else if a.2.1 = Config.moduleNumber then
    let p ← i.ownPlace f.cb a.2.2 n sz true
    .ok (if p.2.isEmpty then p.1 else p.1.gate f.cl (.mem 0 p.2) v.2 false false)
  else
    let bs := addrWord c.index a.2.2 sz ++ v.2
    let r ← i.sendReq a.2.1 2 f.cl (if n = 128 then 2 else 1) (spanOfBytes c.obj a.2.2 n) 0 (memInfo a.2.2 f.cb sz) bs (.none Row.zero) false false
    .ok r.1

/-- The data of an atomic request after its address word: operands, then OP, ORD and SCOPE, FLUSH (log 32). -/
def atomBody (x y : BitVec 64) (fn flush : Nat) : List Byte := leBytes 8 x.toNat ++ leBytes 8 y.toNat ++ leBytes 2 (fn % 1024) ++ leBytes 2 flush
/-- ATOMR (R251): FN is as ATOM's with XS in [15:10]; a queue destination takes the old value in a row when the reply comes. -/
def opAtomr (f : MD) : Op := fun i => do
  i.revocable
  let xs := field f.fn 10 6
  let op := f.fn % 16
  let sz := 2 + field f.fn 4 1
  let ord := field f.fn 5 2
  let q := f.ds % 128
  let acq := ord % 2 = 1 && decide (1 < field f.fn 7 3)
  let x := i.s xs
  let y : Iss × BitVec 64 := if op = 9 then x.1.s (xs + 1) else (x.1, 0#64)
  let t : Iss × Nat ← if q < 64 then y.1.claimReply q else .ok (y.1, 0)
  let dst := if q < 64 then Land.row q t.2 Row.zero else .none Row.zero
  let a ← t.1.remoteAt f.cb f.so (2 ^ sz) (2 ^ sz) rATOMIC sz
  let i := a.1
  let c := readC i.ctx f.cb
  if a.2.1 = Config.moduleNumber then
    let p ← i.ownPlace f.cb a.2.2 (2 ^ sz) sz true
    if p.2.isEmpty then .ok p.1
    else
      let n := p.1.newKey
      let j := n.1.sendAtom { ctx := i.st.cx, cls := f.cl, op := op, bytes := 2 ^ sz, world := 0, pieces := p.2, x := x.2, y := y.2,
                              key := some n.2, flush := i.flush, ord := ord, scope := field f.fn 7 3, seq := 0, reach := none, slot := none, fin := none }
      .ok (if q < 64 then j.ownReply n.2 4 f.cl dst acq else j)
  else
    let bs := addrWord c.index a.2.2 sz ++ atomBody x.2 y.2 f.fn i.flush
    let r ← i.sendReq a.2.1 4 f.cl 1 (spanOfBytes c.obj a.2.2 (2 ^ sz)) (if 2 ≤ ord then 65536 else 0) (memInfo a.2.2 f.cb sz) bs dst (q < 64) acq
    match r.2 with
    | some _ => .ok r.1
    | none => .ok (if q < 64 then r.1.atEnd (fun s => pushRow s s.core s.cx q t.2 ⟨0#1024, .corrupt⟩) else r.1)

/-- FENCEF (R252): MASK is [15:0], CB [19:16]. At its own module the flag write waits for the accesses of the context in its mask, and later
ones for it (R248): operation 18, of no class, with the mask as its second operand. -/
def opFencef (f : MQ) : Op := fun i => do
  let cb := field f.imm 16 4
  let mask := if f.imm % 65536 = 0 then 65535 else f.imm % 65536
  let v := i.s f.sb
  let a ← v.1.remoteAt cb f.sa 8 8 rSTORE 3
  let i := a.1
  let c := readC i.ctx cb
  if a.2.1 = Config.moduleNumber then
    let p ← i.ownPlace cb a.2.2 8 3 true
    if p.2.isEmpty then .ok p.1
    else
      let j := p.1.overlayRoom c a.2.2 p.2
      .ok (j.sendAtom { ctx := i.st.cx, cls := 16, op := 18, bytes := 8, world := i.ctx.world, pieces := p.2, x := v.2, y := BitVec.ofNat 64 mask,
                        key := none, flush := 0, ord := 0, scope := 5, seq := 0, reach := none, slot := none, fin := none })
  else
    let r ← i.sendReq a.2.1 6 16 1 (spanOfBytes c.obj a.2.2 8) mask (memInfo a.2.2 cb 3) (addrWord c.index a.2.2 3 ++ leBytes 8 v.2.toNat) (.none Row.zero) false false
    .ok r.1

/-- FSCQ (R253): the peer is an immediate or S[SA]; the WAIT form stalls until the count is enough. -/
def Iss.slotCount (i : Iss) (f : MQ) (peer : Nat) : Iss := i.writeS 1 f.sb (BitVec.ofNat 64 (fscOf i.ctx peer))
def opFscq (f : MQ) : Op := fun i => .ok (i.slotCount f (f.imm % 64))
def opFscqReg (f : MQ) : Op := fun i =>
  let v := i.s f.sa
  let peer := v.2.toNat % 64
  if field f.imm 7 1 = 1 && fscOf v.1.ctx peer < field f.imm 8 8 then stallNow else .ok (v.1.slotCount f peer)
def opFscqWait (f : MQ) : Op := fun i =>
  let v := if field f.imm 6 1 = 1 then i.s f.sa else (i, BitVec.ofNat 64 f.imm)
  let peer := v.2.toNat % 64
  if fscOf v.1.ctx peer < field f.imm 8 8 then stallNow else .ok (v.1.slotCount f peer)

/-! ## The instructions: each issues as a group of its own (05 R85) -/

/-- LDR. -/
def execLdr (g : Guard) (f : MD) (s : State) : Host.Outcome State Fault Refusal :=
  .next (issueSyl (.ldr g f) (opLdr f) s)
/-- LDRW. -/
def execLdrw (g : Guard) (f : MD) (s : State) : Host.Outcome State Fault Refusal :=
  .next (issueSyl (.ldrw g f) (opLdrw f) s)
/-- STR. -/
def execStr (g : Guard) (f : MD) (s : State) : Host.Outcome State Fault Refusal :=
  .next (issueSyl (.str g f) (opStr f) s)
/-- ATOMR. -/
def execAtomr (g : Guard) (f : MD) (s : State) : Host.Outcome State Fault Refusal :=
  .next (issueSyl (.atomr g f) (opAtomr f) s)
/-- FENCEF. -/
def execFencef (g : Guard) (f : MQ) (s : State) : Host.Outcome State Fault Refusal :=
  .next (issueSyl (.fencef g f) (opFencef f) s)
/-- FSCQ. -/
def execFscq (g : Guard) (f : MQ) (s : State) : Host.Outcome State Fault Refusal :=
  .next (issueSyl (.fscq g f) (opFscq f) s)
/-- FSCQ_REG. -/
def execFscqReg (g : Guard) (f : MQ) (s : State) : Host.Outcome State Fault Refusal :=
  .next (issueSyl (.fscqReg g f) (opFscqReg f) s)
/-- FSCQ_WAIT. -/
def execFscqWait (g : Guard) (f : MQ) (s : State) : Host.Outcome State Fault Refusal :=
  .next (issueSyl (.fscqWait g f) (opFscqWait f) s)

end Sys2Proof.Machine
end

