-- ==== Sys2Proof/Machine/Perform.lean ====
section
/-! DEFINITION. Machine/Perform.lean: what is performed at the stacks, the typed buffers and the register objects: stores (10 R214, 11
R220, 27 R453), atomics and barrier updates (11 R225, R226, R234), loads on their way back (10 R208, 11 R218, 22 R390, 24 R423), far
requests reaching their die (10 R212), and freezes (24 R423, R424). -/

namespace Sys2Proof.Machine

/-! ## Writes of register objects (15 R310, R311, 24 R425, R426, 25 R441, 27 R453, R454) -/

/-- The state of test-mode refresh after a load of NRFSEED (24 R425). -/
def seedY (v : Nat) : Nat := if v % 4294967296 = 0 then 0x2545F491 else v % 4294967296
def loadY (d : Die) : Die := { d with y := [0, 1].foldl (fun m i => mapSet m 0 i (seedY (regRaw d 0x3018))) d.y }
/-- The lines of a die whose segments hold an arrival (R311). -/
def lineBusy (s : State) (d line : Nat) : Bool :=
  (List.range 80).any (fun i => hasArrived s line (80 * d + i))
/-- Bits of SYNCSPAN of the lines named. -/
def spanBits (ls : List Nat) : Nat := (ls.map (fun l => 3 * 4 ^ l)).foldl (· + ·) 0
/-- Every segment of a line in a die's partition is looked at anew. -/
def checkSegments (s : State) (d line : Nat) : State :=
  (groupDies s d).foldl (fun s e => (List.range 10).foldl (fun s i => checkLine s (80 * e + 8 * i) line) s) s
/-- Lines without an arrival change span at once; the others at their next release. A line whose span changed may have lost the last
participant it waited for (02 R40). -/
def writeSpan (s : State) (d v : Nat) : State :=
  let s := setDie s d (regPut (dieOf s d) 0x3808 v)
  let idle := (List.range 16).filter (fun l => !lineBusy s d l)
  let die := dieOf s d
  let m := spanBits idle
  let s' := setDie s d (setEff die 0x3808 (without (effRaw die 0x3808) m + maskTo (regRaw die 0x3808) m))
  (idle.filter (fun l => spanOf (dieOf s d) l != spanOf (dieOf s' d) l)).foldl (fun s l => checkSegments s d l) s'
/-- A store to a register is performed (R453); writes of the registers that only Garod writes are ignored. -/
def regWrite (s : State) (d off v : Nat) : State :=
  let off := off / 8 * 8 % 16384
  if garodOnly off then s
  else if 0x3100 ≤ off && off < 0x3300 then setCount s d ((off - 0x3100) / 8) v
  else if off = 0x3808 then writeSpan s d v
  else
    let die := regPut (dieOf s d) off (if off = 0x0748 then clearingBits s d off v else v)
    let die := if off = 0x3010 && field v 8 1 = 1 then loadY die
      else if off = 0x3018 && field (regRaw die 0x3010) 8 1 = 1 then loadY die
      else if 0x0400 ≤ off && off < 0x0600 then
        if slotCycle s < 20 then setEff die (0x20000 + off) (regRaw die off + 1) else setEff (setEff die (0x20000 + off) 0) (0x10000 + off) (regRaw die off + 1)
      else die
    setDie s d die

/-! ## Stores -/

/-- Spans of a store with their leaf entries and bytes, cut at 256 bytes. -/
def cutPieces (ps : List (Nat × Nat × Nat)) (data : List Byte) : List (Nat × Nat × List Byte) :=
  match ps with
  | [] => []
  | p :: rest =>
    (pieces 256 p.1 p.2.2 4).map (fun q => (q.1, p.2.1, ((data.drop (q.1 - p.1)).take q.2))) ++ cutPieces rest (data.drop p.2.2)
/-- The line of an address leaves the core's cache. -/
def dropLine (s : State) (k w phys : Nat) : State :=
  let c := coreOf s k
  setCore s k { c with ms := { c.ms with lines := mapSet c.ms.lines Line.init (lineKey phys w) Line.init } }
/-- Write a store's bytes at its stacks; the core's own lines follow, and a poisoned line is not kept. -/
def writePieces (s : State) (k w : Nat) (ps : List (Nat × Nat × Nat)) (data : List Byte) (tag bad : Bool) : State :=
  (cutPieces ps data).foldl (fun s p =>
    let s := writeIn s w p.1 p.2.1 p.2.2 tag bad
    if bad then (pieces 128 (viewAddr w p.2.1 p.1) p.2.2.length 4).foldl (fun s q => dropLine s k w q.1) s
    else updateLine s k w (viewAddr w p.2.1 p.1) p.2.2 tag) s
/-- The effect of one store. -/
def performStore (s : State) (k : Nat) (t : Store) : State :=
  match t.tgt with
  | .mem w ps => writePieces s k w ps t.data t.tag t.bad
  | .buf code _ | .swz code _ => (storeParts t).foldl (fun s p => writeBuf s k (.store t.ctx) code p.1 p.2 t.bad) s
  | .reg d off => regWrite s d off (leVal t.data)
  | .remote _ _ _ => s
/-- The released stores of a core whose cycle has come and that nothing earlier holds back are performed, oldest first. -/
def performStores (s : State) (k : Nat) : State :=
  (coreOf s k).ms.released.foldl (fun s t =>
    if reqReady s k t.fin t.view false && !flagBefore (coreOf s k) t.ctx t.cls t.seq then
      let c := coreOf s k
      performStore (setCore s k { c with ms := { c.ms with released := c.ms.released.filter (fun u => u.seq != t.seq) } }) k t
    else s) s

/-! ## Atomics and barriers -/

/-- The barrier after an update (R234): phases complete while EXP is met. -/
def barrierNext (ex ar ph : Nat) : Nat × Nat × Nat :=
  if ex ≠ 0 && ex ≤ ar then (0, ar - ex, (ph + 1) % 4294967296) else (ex, ar, ph)
/-- EXP, ARR and PH as the 16 bytes of a barrier, its reserved word kept. -/
def barrierBytes (old : List Byte) (n : Nat × Nat × Nat) : List Byte :=
  leBytes 4 n.1 ++ leBytes 4 n.2.1 ++ leBytes 4 n.2.2 ++ old.drop 12
/-- The new value of an atomic of n bytes (R225); a floating addition flushes by the bits of its type (04 R73). -/
def atomNew (op n old x y flush : Nat) : Nat :=
  let b := 8 * n
  let so := signed b old
  let sx := signed b x
  match op with
  | 0 => x
  | 1 => (old + x) % 2 ^ b
  | 2 => old &&& x
  | 3 => old ||| x
  | 4 => old ^^^ x
  | 5 => if sx < so then x else old
  | 6 => if so < sx then x else old
  | 7 => Nat.min old x
  | 8 => Nat.max old x
  | 9 => if old = x then y else old
  | _ =>
    let c := if n = 4 then 1 else 0
    let f := fmtOf c
    (addF f 0 (ftzOf flush c) (decodeF f (dazOf flush c) old) (decodeF f (dazOf flush c) x)).code
/-- The bytes an atomic writes. -/
def atomBytes (m : AtomReq) (old : List Byte) : List Byte :=
  let w := 2 ^ (8 * m.bytes)
  match m.op with
  | 16 => barrierBytes old (barrierNext (Nat.min (leVal (old.take 4) + m.x.toNat) 4294967295) (leVal ((old.drop 4).take 4)) (leVal ((old.drop 8).take 4)))
  | 17 => barrierBytes old (barrierNext (leVal (old.take 4)) (Nat.min (leVal ((old.drop 4).take 4) + m.x.toNat) 4294967295) (leVal ((old.drop 8).take 4)))
  | 18 => leBytes 8 m.x.toNat
  | op => leBytes m.bytes (atomNew op m.bytes (leVal old) (m.x.toNat % w) (m.y.toNat % w) m.flush)
/-- One atomic is performed indivisibly: it reads and writes its bytes, and its old value goes on its way. Poisoned memory stays as it
is, and the old value is poisoned (24 R420). -/
def performAtom (s : State) (k : Nat) (m : AtomReq) : State :=
  match m.pieces with
  | [] => s
  | p :: _ =>
    let old := readIn s m.world p.1 p.2.1 m.bytes
    let bad := badIn s m.world p.1 p.2.1 m.bytes && m.op ≠ 18
    let s := if bad then s else writePieces s k m.world [(p.1, p.2.1, m.bytes)] (atomBytes m old) false false
    match m.key with
    | none => s
    | some key =>
      let dst : Land := match ((ctxOf s k m.ctx).regs.shadow ++ ((ctxOf s k m.ctx).aside.map (·.shadow)).getD []).find? (fun q => q.waits == some key) with
        | some q => q.what
        | none => (((ctxOf s k m.ctx).reqs.find? (fun r => r.tag == key)).map (·.dst)).getD (.none Row.zero)
      let l : LoadReq := { ctx := m.ctx, key := key, cls := m.cls, world := 0, seq := m.seq, pieces := m.pieces, own := [], dst := dst, wantTag := false,
                           fill := false, exact := true, reach := none, slot := none, fin := some (s.now + 39), got := some (old, bad, false) }
      let c := coreOf s k
      setCore s k { c with ms := { c.ms with loads := c.ms.loads ++ [l] } }
/-- What a flag write at the own module waits for: earlier stores, atomics, puts and deferred effects of the context in its mask. -/
def flagHeld (s : State) (k : Nat) (m : AtomReq) : Bool :=
  let c := coreOf s k
  let covers : Nat → Nat → Nat → Bool := fun ctx cls seq => ctx == m.ctx && decide (seq < m.seq) && field m.y.toNat cls 1 == 1
  c.ms.released.any (fun t => covers t.ctx t.cls t.seq) || c.ms.atoms.any (fun t => covers t.ctx t.cls t.seq)
    || (ctxOf s k m.ctx).eng.copy.any (fun q => q.kind == .cpyrPut && q.cap.home == Config.moduleNumber && covers m.ctx q.cls q.seq)
    || s.worlds.releasing.any (fun e => e.core == k && e.mod == Config.moduleNumber && covers e.ctx e.cls e.seq)
/-- The atomics of a core whose cycle has come, oldest first; a release waits for every earlier access (R226), a flag write for those it
covers, and what it covers for it (12 R248). -/
def performAtoms (s : State) (k : Nat) : State :=
  (coreOf s k).ms.atoms.foldl (fun s m =>
    if reqReady s k m.fin m.view (2 ≤ m.ord) && !flagBefore (coreOf s k) m.ctx m.cls m.seq && !(m.op == 18 && flagHeld s k m) then
      let c := coreOf s k
      performAtom (setCore s k { c with ms := { c.ms with atoms := c.ms.atoms.filter (fun u => u.seq != m.seq) } }) k m
    else s) s

/-! ## Loads -/

/-- A line of the span that holds other bytes than a load past the cache has read is not kept: the context never goes back to an older
value (13 R265, log 78). -/
def dropStale (s : State) (k w : Nat) (ps : List (Nat × Nat × Nat)) : State :=
  ps.foldl (fun s p => (pieces 128 p.1 p.2.2 40).foldl (fun s q =>
    let a := viewAddr w p.2.1 q.1
    let l := mapGet (coreOf s k).ms.lines Line.init (lineKey a w)
    if l = Line.init || (l.bytes.drop (q.1 % 128)).take q.2 = readIn s w q.1 p.2.1 q.2 then s else dropLine s k w a) s) s
/-- A load whose cycle has come reads its bytes at its stack; its data is back at the core 39 cycles later. -/
def readLoads (s : State) (k : Nat) : State :=
  (coreOf s k).ms.loads.foldl (fun s l =>
    if l.got.isNone && reqReady s k l.fin l.view false then
      let c := coreOf s k
      let bad := (openOwn s k l).any (fun t => t.bad)
      let l' := { l with got := some (readLoad s k l), fin := some (s.now + 39), slot := none }
      let s := setCore s k { c with ms := { c.ms with loads := c.ms.loads.map (fun u => if u.seq == l.seq then l' else u) } }
      if l.fill then (if bad then s else fillSpan s k l.world l.pieces) else dropStale s k l.world l.pieces
    else s) s
/-- A remote form's row is pushed as its data arrives (12 R249, R251). -/
def pushReply (s : State) (k x : Nat) (r : FarReq) (bs : List Byte) (bad : Bool) : State :=
  match landValue r.dst bs bad false with
  | .row q row v =>
    let s := pushRow s k x q row v
    if r.acq then let c := ctxOf s k x; setCtx s k x { c with acqRows := c.acqRows ++ [row] } else s
  | _ => s
/-- The data of a load is back: it goes to the row that waits for it, to its shadow-record entry, or, when its destination is late, to
where the L mark stands (R390). -/
def deliver (s : State) (k x key : Nat) (exact : Bool) (dst : Land) (bs : List Byte) (bad tag : Bool) : State :=
  let c := ctxOf s k x
  match c.reqs.find? (fun r => r.tag == key && r.peer == Config.moduleNumber && r.push) with
  | some r => pushReply (setCtx s k x { c with reqs := c.reqs.filter (fun q => !(q.tag == key && q.peer == Config.moduleNumber)) }) k x r bs bad
  | none =>
    if waitsFor c key then
      setCtx s k x (if exact then settlePends c key (landValue dst bs bad tag) else settleEarly c key (landValue dst bs bad tag))
    else writeLate s k x key dst bs bad
/-- The loads of a core whose data arrives in this cycle. Late data is the event LATE_DATA_ARRIVAL; what ERTQ
reads (16 R323) it takes itself. -/
def arriving (s : State) (k : Nat) : List LoadReq :=
  (coreOf s k).ms.loads.filter (fun l => l.got.isSome && l.fin.any (fun f => f ≤ s.now) && l.dst != .spoil 64)
def deliverLoad (s : State) (k : Nat) (l : LoadReq) : State :=
  let c := coreOf s k
  let s := setCore s k { c with ms := { c.ms with loads := c.ms.loads.filter (fun u => u.seq != l.seq) } }
  match l.got with
  | some g => deliver s k l.ctx l.key l.exact l.dst g.1 g.2.1 g.2.2
  | none => s
/-- A load's shadow-record entry has landed late: only its L mark waits. -/
def isLate (s : State) (k : Nat) (l : LoadReq) : Bool :=
  !l.exact && !waitsFor (ctxOf s k l.ctx) l.key && !(ctxOf s k l.ctx).reqs.any (fun r => r.tag == l.key && r.peer == Config.moduleNumber)
def deliverLoads (s : State) (k : Nat) : State :=
  (arriving s k).foldl (fun s l => if isLate s k l then s else deliverLoad s k l) s
/-- The memory side of a core in a cycle: holds, loads read, data delivered. -/
def memPhase (s : State) (k : Nat) : State := deliverLoads (readLoads (holdScan s k) k) k

/-! ## Freezes (24 R423, R424) -/

/-- The context stands at the landing point of a request whose data is held. -/
def mustFreeze (s : State) (k x : Nat) : Bool :=
  let c := ctxOf s k x
  c.regs.shadow.any (heldBack (coreOf s k).ms x c.clock)
/-- The context leaves issue and its clock stands. -/
def freezeCtx (s : State) (k x : Nat) : State :=
  if mustFreeze s k x && !(ctxOf s k x).frozen then
    let s := leaveIssue s k x
    setCtx s k x { ctxOf s k x with frozen := true }
  else s
/-- The data is there: it lands, and the context is a candidate again. -/
def unfreezeCtx (s : State) (k x : Nat) : State :=
  if (ctxOf s k x).frozen && !mustFreeze s k x then
    landDue (setCtx s k x { ctxOf s k x with frozen := false }) k x
  else s
/-- 0x1B for the contexts whose requests have been held longer than HOLD_LIMIT, once for each hold; a frozen one wakes for the
trap. -/
def limitExceeded (s : State) (h : HeldReq) : Bool := !h.told && decide (holdLimit (dieOf s (h.stack / 2)) < s.now - h.since)
def raiseLimit (s : State) (k x : Nat) : State :=
  (List.range 8).foldl (fun s d =>
    let die := dieOf s d
    match die.held.find? (fun h => h.core == k && h.ctx == x && limitExceeded s h) with
    | none => s
    | some h =>
      let s := setDie s d { die with held := die.held.map (fun e => if e.core == k && e.ctx == x && e.stack == h.stack then { e with told := true } else e) }
      let c := raiseA (ctxOf s k x) 0x1B 0
      setCtx s k x { c with frozen := false }) s

/-! ## The events -/

/-- SHADOW_WRITE_LAND (03 R45): a frozen context aside, the entries due at a context's clock have landed with its cycle; an entry left
behind lands now. -/
def execShadowWriteLand (core ctx : Nat) (s : State) : Host.Outcome State Fault Refusal := .next (landDue s core ctx)
/-- STORE_PERFORMED (R220). -/
def execStorePerformed (core : Nat) (s : State) : Host.Outcome State Fault Refusal := .next (performStores s core)
/-- ATOMIC_PERFORMED (R225). -/
def execAtomicPerformed (core : Nat) (s : State) : Host.Outcome State Fault Refusal := .next (performAtoms s core)
/-- FAR_ACCESS_ARRIVAL (R212). -/
def execFarAccessArrival (die : Nat) (s : State) : Host.Outcome State Fault Refusal :=
  .next ((s.cores.map (·.1)).foldl (fun s k => farReach s die k) s)
/-- LATE_DATA_ARRIVAL (R390): the data of request `tag` of a context has arrived after its declared latency. -/
def execLateDataArrival (core ctx tag : Nat) (s : State) : Host.Outcome State Fault Refusal :=
  .next ((arriving s core).foldl (fun s l => if l.ctx == ctx && l.key == tag then deliverLoad s core l else s) s)
/-- HELD_REQUEST_SERVED (24 R422). -/
def execHeldRequestServed (stack : Nat) (s : State) : Host.Outcome State Fault Refusal := .next (serveHeld s stack)
/-- CONTEXT_FREEZE (24 R423). -/
def execContextFreeze (core ctx : Nat) (s : State) : Host.Outcome State Fault Refusal := .next (freezeCtx s core ctx)
/-- CONTEXT_UNFREEZE (24 R423). -/
def execContextUnfreeze (core ctx : Nat) (s : State) : Host.Outcome State Fault Refusal := .next (unfreezeCtx s core ctx)
/-- HOLD_LIMIT_EXCEEDED (24 R424). -/
def execHoldLimitExceeded (core ctx : Nat) (s : State) : Host.Outcome State Fault Refusal := .next (raiseLimit s core ctx)
/-- HTR_WRITE (15 R310): the code is stored; the drive follows with HEATER_EFFECT. -/
def execHtrWrite (die n val : Nat) (s : State) : Host.Outcome State Fault Refusal := .next (regWrite s die (8 * (n % 64)) val)
/-- RINGMAP_WRITE (15 R294). -/
def execRingmapWrite (die n val : Nat) (s : State) : Host.Outcome State Fault Refusal := .next (regWrite s die (0x0400 + 8 * (n % 64)) val)
/-- EVCNT_WRITE (02 R38). -/
def execEvcntWrite (die n val : Nat) (s : State) : Host.Outcome State Fault Refusal := .next (regWrite s die (0x3100 + 8 * (n % 64)) val)
/-- SYNCSPAN_WRITE (15 R311). -/
def execSyncspanWrite (die val : Nat) (s : State) : Host.Outcome State Fault Refusal := .next (regWrite s die 0x3808 val)
/-- NRFCFG_WRITE (10 R211, 24 R425). -/
def execNrfcfgWrite (die val : Nat) (s : State) : Host.Outcome State Fault Refusal := .next (regWrite s die 0x3010 val)
/-- NRFSEED_WRITE (24 R425). -/
def execNrfseedWrite (die val : Nat) (s : State) : Host.Outcome State Fault Refusal := .next (regWrite s die 0x3018 val)
/-- FPCNT_WRITE (24 R426). -/
def execFpcntWrite (die val : Nat) (s : State) : Host.Outcome State Fault Refusal := .next (regWrite s die 0x3008 val)
/-- ECCCNT_READ (24 R426): the count clears with the read. -/
def execEcccntRead (die st : Nat) (s : State) : Host.Outcome State Fault Refusal := .next (regAfterRead s die (0x3028 + 8 * (st % 2)))
/-- UELOG_READ (24 R426). -/
def execUelogRead (die st : Nat) (s : State) : Host.Outcome State Fault Refusal := .next (regAfterRead s die (0x3038 + 8 * (st % 2)))
/-- FABERR_READ (25 R441). -/
def execFaberrRead (die : Nat) (s : State) : Host.Outcome State Fault Refusal := .next (regAfterRead s die 0x0750)

end Sys2Proof.Machine
end

