-- ==== Sys2Proof/Machine/Sfe.lean ====
section
/-! DEFINITION. Machine/Sfe.lean: the values of the special-function engine (09 R190 to R192). Each function is a free value within 2
units in the last place of the exact result (log 9). -/

namespace Sys2Proof.Machine

def fp32f : FFmt := fmtOf 1

/-- m × 2^e as a multiple of 2^−200, rounded towards zero. -/
def fix200 (m : Nat) (e : Int) : Nat := if 0 ≤ e + 200 then m * 2 ^ (e + 200).toNat else m / 2 ^ (-(e + 200)).toNat
/-- log2 e × 2^120. -/
def log2e120 : Nat := 1917670637729674084946755258930051709
/-- e^x for x = (−1)^neg × m × 2^e, as M × 2^E. -/
def expNear (neg : Bool) (m : Nat) (e : Int) : Nat × Int :=
  let v := exp2Near neg (m * log2e120) (e - 120)
  (v.1, v.2 - 100)
/-- x ≥ k for a magnitude m × 2^e. -/
def atLeast (m : Nat) (e : Int) (k : Nat) : Bool := decide (k * 2 ^ 200 ≤ fix200 m e)

/-- 1/(1 + e^−x) as M × 2^E; |x| < 2^7. -/
def sigmNear (neg : Bool) (m : Nat) (e : Int) : Nat × Int :=
  let v := expNear true m e
  let t := fix200 v.1 v.2
  ((if neg then t else 2 ^ 200) * 2 ^ 200 / (2 ^ 200 + t), -200)
/-- tanh |x| as M × 2^E: x − x³/3 where |x| < 2^−8, (1 − e^−2x) / (1 + e^−2x) elsewhere. -/
def tanhNear (m : Nat) (e : Int) : Nat × Int :=
  if ilog2 m e < -8 then
    let k : Nat := (Nat.min 400 (-2 * e).toNat)
    let x2 := if -2 * e ≤ 400 then m * m * 2 ^ (400 - k) else 0
    (m * (3 * 2 ^ 400 - x2) / (3 * 2 ^ 300), e - 100)
  else
    let v := expNear true m (e + 1)
    let t := fix200 v.1 v.2
    ((2 ^ 200 - t) * 2 ^ 200 / (2 ^ 200 + t), -200)
/-- 2 × 0.7978845608 × (|x| + 0.044715 |x|³) in units of 2^−200; |x| < 2^8. -/
def geluArg (m : Nat) (e : Int) : Nat :=
  let x := fix200 m e
  let x3 := x * x / 2 ^ 200 * x / 2 ^ 200
  2 * 7978845608 * (x * 1000000 + 44715 * x3) / (10000000000 * 1000000)

/-- An FP32 result: the free value within the bound of the near value, with overflow and underflow by R70. -/
def sfeBound (func w : Nat) (neg : Bool) (v : Nat × Int) : FRes :=
  if v.1 = 0 then ⟨fp32f.withSign neg 0, 4⟩ else boundedApprox fp32f false (Config.sfeApprox func w % 4294967296) neg v.1 v.2

/-- A function of R191 at an FP32 code. -/
def sfeValue (func w : Nat) : FRes :=
  let one : FRes := ⟨0x3F800000, 0⟩
  match func, decodeF fp32f false w with
  | _, .nan => ⟨fp32f.nanCode, 0⟩
  | 0, .inf true => ⟨0, 0⟩
  | 0, .inf false => ⟨fp32f.infCode, 0⟩
  | 0, .num neg m e =>
    if m = 0 then one
    else if atLeast m e 89 then (if neg then (if atLeast m e 104 then ⟨0, 4⟩ else sfeBound 0 w false (expNear neg m e)) else ⟨fp32f.infCode, 3⟩)
    else sfeBound 0 w false (expNear neg m e)
  | 1, .inf neg => ⟨fp32f.withSign neg one.code, 0⟩
  | 1, .num neg m e =>
    if m = 0 then ⟨fp32f.withSign neg 0, 0⟩
    else if atLeast m e 64 then sfeBound 1 w neg (1, 0)
    else sfeBound 1 w neg (tanhNear m e)
  | 2, .inf neg => if neg then ⟨0, 0⟩ else one
  | 2, .num neg m e =>
    if m = 0 then ⟨0x3F000000, 0⟩
    else if atLeast m e 104 then (if neg then ⟨0, 4⟩ else sfeBound 2 w false (1, 0))
    else sfeBound 2 w false (sigmNear neg m e)
  | 3, .inf neg => if neg then ⟨0x80000000, 0⟩ else ⟨fp32f.infCode, 0⟩
  | 3, .num neg m e =>
    if m = 0 then ⟨fp32f.withSign neg 0, 0⟩
    else if atLeast m e 16 then (if neg then ⟨0x80000000, 4⟩ else sfeBound 3 w false (m, e))
    else
      let s := sigmNear neg (geluArg m e) (-200)
      sfeBound 3 w neg (m * s.1, e + s.2)
  | 4, .num neg m e =>
    let r := rcpF 1 false w
    if m = 0 || r.kind ≠ 0 then r else sfeBound 4 w neg (2 ^ (Nat.log2 m + 100) / m, -((Nat.log2 m : Nat) : Int) - 100 - e)
  | 4, _ => rcpF 1 false w
  | 5, .num neg m e =>
    let r := rsqF 1 false w
    if m = 0 || neg then r
    else
      let m' := if e % 2 = 0 then m else 2 * m
      let e' := if e % 2 = 0 then e else e - 1
      let k := 70 + Nat.log2 m'
      sfeBound 5 w false (sqrtBits (2 ^ (2 * k) / m') (k + 1) 0, -(k : Int) - e' / 2)
  | 5, _ => rsqF 1 false w
  | _, _ => ⟨w, 0⟩

/-- T code of an ST or DT field (R190). -/
def sfeType (c : Nat) : Nat := match c with | 0 => 1 | 1 => 2 | _ => 3
/-- One input: DAZ by the source family, then the product with the scale, rounded to FP32 (R190). -/
def sfeInput (flush st : Nat) (scale : Option (BitVec 32)) (w : Nat) : FVal :=
  let v := decodeF (fmtOf (sfeType st)) (dazOf flush (sfeType st)) w
  match scale with
  | none => v
  | some k => decodeF fp32f false (mulF fp32f 0 false v (decodeF fp32f false k.toNat)).code
/-- Rounded once to DT (R190). -/
def sfeRound (flush dt rm : Nat) (r : FRes) : FRes :=
  let f := fmtOf (sfeType dt)
  let q := roundF f rm false (ftzOf flush (sfeType dt)) none (decodeF fp32f false r.code)
  ⟨q.code, if r.kind ≠ 0 then r.kind else q.kind⟩
/-- The next power of two. -/
def padTo (n : Nat) : Nat := if n ≤ 1 then 1 else 2 ^ (Nat.log2 (n - 1) + 1)
/-- The R79 tree over values padded to a power of two. -/
def padTree (fn : FVal → FVal → FRes) (pad : FVal) (vs : List FVal) : FVal :=
  let ns := (vs ++ List.replicate (padTo vs.length - vs.length) pad).map (fun v => (⟨v, none⟩ : Node))
  (treeSum fn fp32f 20 1 1 0 ns).v
/-- Softmax of one row (R192). -/
def softmax (flush dt rm : Nat) (xs : List FVal) : List FRes :=
  let f := fmtOf (sfeType dt)
  let ftz := ftzOf flush (sfeType dt)
  let nan : FRes := ⟨f.nanCode, 0⟩
  if xs.any FVal.isNan then xs.map (fun _ => nan)
  else
    match padTree (fun a b => roundF fp32f 0 false false none (maxV a b)) .nan xs with
    | .inf true => xs.map (fun _ => ⟨0, 0⟩)
    | .inf false =>
      let k := (xs.filter (fun x => x == .inf false)).length
      xs.map (fun x => if x == .inf false then divF f rm ftz (ofIntV 1) (ofIntV k) else ⟨0, 0⟩)
    | m =>
      let es := xs.map (fun x => decodeF fp32f false (sfeValue 0 (addF fp32f 0 false x m.negate).code).code)
      let t := padTree (addF fp32f 0 false) (.num false 0 0) es
      es.map (fun e => divF f rm ftz e t)
/-- A run of elements through the engine (R190). -/
def sfeRun (func st dt rm flush : Nat) (scale : Option (BitVec 32)) (ws : List Nat) : List FRes :=
  let xs := ws.map (sfeInput flush st scale)
  if func = 6 then softmax flush dt rm xs
  else if func = 7 then xs.map (fun v => roundF (fmtOf (sfeType dt)) rm false (ftzOf flush (sfeType dt)) none v)
  else xs.map (fun v => sfeRound flush dt rm (sfeValue func (roundF fp32f 0 false false none v).code))
/-- Bytes of a source element and of a destination element. -/
def sfeBytes (t : Nat) : Nat := if t = 0 then 4 else 2

end Sys2Proof.Machine
end

