-- ==== Sys2Proof/Machine/Stream.lean ====
section
/-! DEFINITION. Machine/Stream.lean: stream ports and ring instructions (11 R228 to R232, 10 R213, 23 R403, R410). -/

namespace Sys2Proof.Machine

/-! ## Stream ports (R228 to R230) -/

/-- A result on its way to a port. -/
def portBusy (c : Ctx) (g : Nat) : Bool := c.regs.shadow.any (fun p => match p.what with | .port n _ => n == g | _ => false)
/-- SPSTOP: results to the port land first; then the armed bit clears and the vectors fetched are discarded (R230). -/
def Iss.stopPort (i : Iss) (g : Nat) : Except Halt Iss :=
  if (portOf i.ctx g).armed then
    (if portBusy i.ctx g then stallNow else .ok (i.setCtx (setPort i.ctx g Port.init)))
  else .ok i
def opSpstop (f : MS) : Op := fun i => i.stopPort f.gk

/-- The fields of a stream parameter set (R228). -/
def streamCnt (w : List Nat) (j : Nat) : Nat := field (w.getD (j + 1) 0) 0 16
def streamStr (w : List Nat) (j : Nat) : Int := signed 24 (field (w.getD (j + 1) 0) 16 24)
/-- A reserved field that is not 0, or a number of dimensions that is reserved. -/
def streamBad (w : List Nat) : Bool :=
  let d := field (w.headD 0) 21 3
  d == 0 || d == 7 || field (w.headD 0) 24 40 ≠ 0 || w.getD 7 0 ≠ 0
    || (List.range 6).any (fun j => if j < d then field (w.getD (j + 1) 0) 40 24 ≠ 0 else w.getD (j + 1) 0 ≠ 0)
/-- Lowest and highest byte of a walk of vectors of n bytes. -/
def walkLow (base : Nat) (cnts : List Nat) (strs : List Int) : Int :=
  (cnts.zip strs).foldl (fun (a : Int) p => a + min 0 ((p.1 : Int) * p.2)) (base : Int)
def walkHigh (base n : Nat) (cnts : List Nat) (strs : List Int) : Int :=
  (cnts.zip strs).foldl (fun (a : Int) p => a + max 0 ((p.1 : Int) * p.2)) ((base : Int) + n - 1)
/-- SPARM: FN is DIR [0], LAY [1], W [3:2], CL [7:4] (R228). A BASE or stride that is not a multiple of 32 is misaligned (log 31). -/
def opSparm (f : MS) : Op := fun i => do
  let i ← i.stopPort f.gk
  let code := f.cb / 4
  let v := i.s f.sa
  let i := v.1
  let a := v.2.toNat % 1048576
  if a % 64 ≠ 0 then trapNow 0x15 (bufInfo a 3 0)
  else if !(code = 1 || code = 3) then trapNow 0x16 (bufInfo a code 0)
  else
    i.ownRegion 3 a 64 (bufInfo a 3 0)
    let r := readBuf i.st i.st.core i.st.cx 3 a 64
    let i := if r.2 then i.consumes 0xFF .corrupt else i
    let w := words8 r.1
    let d := field (w.headD 0) 21 3
    let base := field (w.headD 0) 0 21
    let cnts := (List.range d).map (streamCnt w)
    let strs := (List.range d).map (streamStr w)
    let n := 32 * 2 ^ field f.fn 2 2
    let lo := walkLow base cnts strs
    let hi := walkHigh base n cnts strs
    if streamBad w then i.bad02
    else if base % 32 ≠ 0 || strs.any (fun t => t % 32 ≠ 0) then trapNow 0x15 (bufInfo base code 0)
    else if lo < 0 then trapNow 0x11 (bufInfo (wrap 40 lo) code 0)
    else if (bufSize code : Int) ≤ hi then trapNow 0x11 (bufInfo (Nat.max base (bufSize code)) code 0)
    else
      i.ownRegion code lo.toNat (hi - lo + 1).toNat (bufInfo lo.toNat code 0)
      .ok (i.setCtx (setPort i.ctx f.gk { armed := true, write := f.fn % 2 = 1, swz := field f.fn 1 1 = 1, w := field f.fn 2 2,
                                          cls := field f.fn 4 4, buf := code, base := base, cnts := cnts, strs := strs, pos := 0, fpos := 0,
                                          got := [], start := i.st.now + 4 }))

/-! ## Ring headers (R213, R231) -/

/-- A ring header as read: its two words. -/
structure RingHdr where
  w0 : Nat
  w1 : Nat
  deriving DecidableEq, Repr

def RingHdr.base (h : RingHdr) : Nat := field h.w0 0 20
def RingHdr.slotBytes (h : RingHdr) : Nat := 64 * (field h.w0 20 8 + 1)
def RingHdr.slots (h : RingHdr) : Nat := field h.w0 28 12 + 1
def RingHdr.head (h : RingHdr) : Nat := field h.w1 0 16
def RingHdr.tail (h : RingHdr) : Nat := field h.w1 16 16
def RingHdr.free (h : RingHdr) : Nat := field h.w1 32 16
/-- Slots published and not consumed. -/
def RingHdr.ready (h : RingHdr) : Nat := (h.head + 65536 - h.tail) % 65536
/-- The address of slot number t. -/
def RingHdr.slotAt (h : RingHdr) (t : Nat) : Nat := h.base + t % h.slots * h.slotBytes
/-- Word 1 after HEAD, TAIL and FREE move; its reserved bits stay. -/
def RingHdr.word1 (h : RingHdr) (dh dt : Nat) (df : Int) : Nat :=
  (h.head + dh) % 65536 + 65536 * ((h.tail + dt) % 65536) + 4294967296 * wrap 16 ((h.free : Int) + df) + 281474976710656 * field h.w1 48 16
def hdrOf (bs : List Byte) : RingHdr := ⟨leVal (bs.take 8), leVal ((bs.drop 8).take 8)⟩
/-- The header as performed at the buffer. -/
def hdrAt (s : State) (k code a : Nat) : RingHdr := hdrOf (bufBytes s k code a 16)
/-- One indivisible update of HEAD, TAIL and FREE at the buffer (R213). -/
def moveRing (s : State) (k : Nat) (by_ : Writer) (code a dh dt : Nat) (df : Int) : State :=
  writeBuf s k by_ code (a + 8) (leBytes 8 ((hdrAt s k code a).word1 dh dt df)) false

/-- An RNGPUB or RNGADV ends the quiesced state of its ring (09 R189). -/
def stirRing (s : State) (k code a : Nat) : State :=
  (List.range 8).foldl (fun s x =>
    let c := ctxOf s k x
    if c.eng.subs.any (fun u => u.quiesced && u.buf == code && u.hdr == a) then
      setCtx s k x { c with eng := { c.eng with subs := c.eng.subs.map (fun u => if u.buf == code && u.hdr == a then { u with quiesced := false } else u) } }
    else s) s
/-- The operands of a ring instruction: alignment, permission, ownership, the header as the context sees it, and n (R231). -/
def Iss.ring (i : Iss) (f : MQ) : Except Halt (Iss × Nat × Nat × RingHdr × Nat) := do
  let v := i.s f.sa
  let a := v.2.toNat % 1048576
  let code := field f.imm 24 2
  let n := f.imm % 4096 + 1
  v.1.checkBuf code a 64 64 0 (code = 1 || code = 3)
  let h := hdrOf (readBuf v.1.st v.1.st.core v.1.st.cx code a 64).1
  if h.slots < n then trapNow 0x11 (bufInfo a code 0)
  else .ok (v.1, code, a, h, n)

/-- A stall of a RNGWAIT that reaches 256 cycles counts for event source 1 (02 R37). -/
def Iss.ringStall : Except Halt Iss := .error (.stall (fun s =>
  let c := actCtx s
  let s := setAct s { c with ringWait := c.ringWait + 1 }
  if c.ringWait = 255 then countEvent s (dieOfCore s.core) 1 1 else s))

/-- The consumer's wait, and the producer's, which counts free slots (R231). -/
def opRngwait (f : MQ) : Op := fun i => do
  let r ← i.ring f
  if r.2.2.2.1.ready < r.2.2.2.2 then Iss.ringStall
  else .ok (r.1.writeS 1 f.sb (BitVec.ofNat 64 (r.2.2.2.1.slotAt r.2.2.2.1.tail)))
def opRngwaitProd (f : MQ) : Op := fun i => do
  let r ← i.ring f
  if r.2.2.2.1.free < r.2.2.2.2 then Iss.ringStall
  else .ok (r.1.writeS 1 f.sb (BitVec.ofNat 64 (r.2.2.2.1.slotAt r.2.2.2.1.head)))

/-- A read by the context of a buffer that has not landed (R231). -/
def bufReadOpen (c : Ctx) (code : Nat) : Bool := c.regs.shadow.any (fun p => match p.src with | some q => q.code == code | none => false)
/-- A store of the context that overlaps the header is not performed. -/
def hdrStoreOpen (s : State) (k x code a : Nat) : Bool :=
  ((ownStores s k x).filter (isBuf code)).any (fun t => (storeParts t).any (fun p => decide (p.1 < a + 64) && decide (a < p.1 + p.2.length)))
def opRngadv (f : MQ) : Op := fun i => do
  let r ← i.ring f
  let n := r.2.2.2.2
  if bufReadOpen r.1.ctx r.2.1 || hdrStoreOpen r.1.st r.1.st.core r.1.st.cx r.2.1 r.2.2.1 then stallNow
  else if r.2.2.2.1.ready < n then trapNow 0x06 0
  else .ok (r.1.atEnd (fun s => stirRing (moveRing s s.core (.store s.cx) r.2.1 r.2.2.1 0 n n) s.core r.2.1 r.2.2.1))
def opRngpub (f : MQ) : Op := fun i => do
  let r ← i.ring f
  let n := r.2.2.2.2
  if writesPending r.1.st r.1.st.core r.1.st.cx then stallNow
  else if r.2.2.2.1.free < n then trapNow 0x07 0
  else .ok (r.1.atEnd (fun s => stirRing (moveRing s s.core (.store s.cx) r.2.1 r.2.2.1 n 0 (-(n : Int))) s.core r.2.1 r.2.2.1))

/-! ## The instructions: each issues as a group of its own (05 R85) -/

/-- SPSTOP. -/
def execSpstop (g : Guard) (f : MS) (s : State) : Host.Outcome State Fault Refusal :=
  .next (issueSyl (.spstop g f) (opSpstop f) s)
/-- SPARM. -/
def execSparm (g : Guard) (f : MS) (s : State) : Host.Outcome State Fault Refusal :=
  .next (issueSyl (.sparm g f) (opSparm f) s)
/-- RNGWAIT. -/
def execRngwait (g : Guard) (f : MQ) (s : State) : Host.Outcome State Fault Refusal :=
  .next (issueSyl (.rngwait g f) (opRngwait f) s)
/-- RNGWAIT_PROD. -/
def execRngwaitProd (g : Guard) (f : MQ) (s : State) : Host.Outcome State Fault Refusal :=
  .next (issueSyl (.rngwaitProd g f) (opRngwaitProd f) s)
/-- RNGADV. -/
def execRngadv (g : Guard) (f : MQ) (s : State) : Host.Outcome State Fault Refusal :=
  .next (issueSyl (.rngadv g f) (opRngadv f) s)
/-- RNGPUB. -/
def execRngpub (g : Guard) (f : MQ) (s : State) : Host.Outcome State Fault Refusal :=
  .next (issueSyl (.rngpub g f) (opRngpub f) s)

end Sys2Proof.Machine
end

