-- ==== Sys2Proof/Machine/EngineRun.lean ====
section
/-! DEFINITION. Machine/EngineRun.lean: how an engine moves data (09 R180 to R192, 12 R254, 23 R411, 24 R417): its spaces, the checks of a
run, a run of each command, and the stop of an engine (22 R378). The cycles of beats that reach no calendar slot or slice are free (log
23). -/

namespace Sys2Proof.Machine

/-! ## Descriptors (R180) -/

def descOf (w : List Nat) : Desc :=
  let a := w.getD 0 0
  let d := Nat.min (field a 0 3) 5
  let dim : Nat → Nat := fun j => w.getD (j + 3) 0
  { dims := d, ssp := field a 4 4, dsp := field a 8 4, ssl := field a 12 5, dsl := field a 17 5, lu := field a 22 1 = 1, scope := field a 23 3,
    run := field a 32 14, sbase := field (w.getD 1 0) 0 40, dbase := field (w.getD 2 0) 0 40
    cnts := (List.range d).map (fun j => field (dim j) 0 16)
    sstr := (List.range d).map (fun j => signed 24 (field (dim j) 16 24))
    dstr := (List.range d).map (fun j => signed 24 (field (dim j) 40 24)) }
/-- A reserved field that is not 0, or a reserved value. -/
def descBad (w : List Nat) : Bool :=
  let a := w.getD 0 0
  decide (5 < field a 0 3) || field a 3 1 ≠ 0 || field a 26 6 ≠ 0 || field a 46 18 ≠ 0 || decide (4 < field a 23 3)
    || decide (8 < field a 4 4) || decide (8 < field a 8 4) || (field a 4 4 = 0 && field a 8 4 = 0)
    || field (w.getD 1 0) 40 24 ≠ 0 || field (w.getD 2 0) 40 24 ≠ 0
    || (List.range 5).any (fun j => decide (field a 0 3 ≤ j) && w.getD (j + 3) 0 ≠ 0)
/-- Runs of a walk, and bytes of a source run. -/
def Desc.runs (d : Desc) : Nat := walkLength d.cnts
def Desc.bytes (d : Desc) : Nat := 4 * (d.run + 1)
/-- Source and destination address of run n (R181). -/
def Desc.src (d : Desc) (n : Nat) : Int := (d.sbase : Int) + 4 * walkOffset d.cnts d.sstr n
def Desc.dst (d : Desc) (n : Nat) : Int := (d.dbase : Int) + 4 * walkOffset d.cnts d.dstr n
/-- Typed buffer of a space, if it is one; spaces 3 and 6 are swizzled. -/
def spaceBuf (sp : Nat) : Option Nat := match sp with | 1 => some 0 | 2 => some 1 | 3 => some 1 | 4 => some 2 | 5 => some 3 | 6 => some 3 | _ => none
def spaceSwz (sp : Nat) : Bool := sp == 3 || sp == 6
/-- Physical 64-byte lines of a span of a space. -/
def spaceLines (sp : Nat) (a n : Nat) : List (Nat × Nat) := if spaceSwz sp then swizzlePieces a n else [(a, n)]
/-- Source and destination are one buffer in its two layouts, with overlapping bytes over the walk (24 R418). -/
def twoLayouts (d : Desc) (dbytes : Nat) : Bool :=
  (spaceBuf d.ssp).isSome && spaceBuf d.ssp == spaceBuf d.dsp && d.ssp != d.dsp
    && (List.range d.runs).any (fun i => (spaceLines d.ssp (d.src i).toNat d.bytes).any (fun p =>
      (List.range d.runs).any (fun j => (spaceLines d.dsp (d.dst j).toNat dbytes).any (fun q =>
        decide (p.1 < q.1 + q.2) && decide (q.1 < p.1 + p.2)))))

/-! ## Spans of spaces -/

/-- Bytes with their poison. -/
abbrev Data := List (Byte × Bool)
/-- A cause found while a command runs (22 R378). -/
def stopNow {α : Type} (cause : Nat) : Except Halt α := .error (.trap cause 0)

/-- A fill begun by an engine, or by the home of a remote request (24 R416, R417). -/
def startFill (s : State) (leaf d blk base info : Nat) (who : List (Nat × Nat)) : State :=
  let mine : FillKind → Bool := fun f => match f with | .extent l _ _ _ _ => l == leaf | _ => false
  if s.fills.any (fun f => mine f.kind) then
    { s with fills := s.fills.map (fun f => match f.kind with
        | .extent l e p q ws => if l == leaf then { f with kind := .extent l e p q (ws ++ who.filter (fun w => !ws.contains w)) } else f
        | _ => f) }
  else if regRaw (dieOf s d) 0x3008 = 0 then s
  else
    let t := takePool s d
    { t.1 with fills := t.1.fills ++ [⟨.extent leaf d t.2 info who, blk, base, 0, 0⟩] }
/-- The tier holds a block that a fill can bring (24 R416). -/
def canFill (s : State) (j d : Nat) : Bool :=
  field (jobOf s j).features 6 1 = 1
    && (decide (0 < regRaw (dieOf s d) 0x3008) || s.fills.any (fun f => match f.kind with | .extent _ e _ _ _ => e == d | _ => false))

/-- The memory of a global span of an engine (R417), `x` the context plus 8 times the engine's number plus 1: checked per run; a block in the tier is waited for, or refused in a world. -/
def engSpan (s : State) (k x : Nat) (cap : Cap) (a : Int) (n rights world : Nat) (write : Bool) : Except Halt (List (Nat × Nat × Nat)) :=
  let d := dieOfCore k
  let y := x % 8
  let job := jobIdOf s k y
  if !cap.tag then stopNow 0x10
  else if !cap.grants rights then stopNow 0x12
  else if a < (cap.lower : Int) || (cap.upper : Int) < a + n then stopNow 0x11
  else if cap.home ≠ Config.moduleNumber then stopNow 0x13
  else if (regObject cap).isSome then stopNow 0x16
  else
    match objEntry s (ctxJob s k y) d cap.index with
    | none => if dirOutside s (ctxJob s k y) d cap.index then .error (.trap 0x13 (extentInfo cap.index 0 true)) else stopNow 0x13
    | some (dir, nblk) =>
      if nblk ≤ (a.toNat + n - 1) / 65536 then stopNow 0x13
      else
        let ws := walks s d dir a.toNat n
        match ws.find? (fun w => match w.2.2 with | .hbm _ _ => false | _ => true) with
        | some (o, _, .tier blk leaf) =>
          if !canFill s job d then stopNow 0x14
          else if world ≠ 0 then stopNow 0x3C
          else .error (.stall (fun s => startFill s leaf d blk (ctxJob s k y).tier (extentInfo cap.index (o / 65536) false) [(k, x)]))
        | some (o, _, .absent out) => .error (.trap 0x14 (if out then extentInfo cap.index (o / 65536) true else 0))
        | some _ => stopNow 0x14
        | none =>
          let ps := ws.filterMap (fun w => match w.2.2 with | .hbm p l => some (p, l, w.2.1) | _ => none)
          if ps.any (fun p => stackHeld s (stackOf p.1)) then .error (.stall id)
          else if world ≠ 0 && write && decide (shareOf s k y < usedRecords s (stackOf (firstPhys ps)) + newLines s world ps) then stopNow 0x3A
          else .ok ps
/-- Heat of a resolved engine span (10 R201). -/
def heatAll (s : State) (ps : List (Nat × Nat × Nat)) (write : Bool) : State := ps.foldl (fun s p => raiseHeat s p.2.1 write) s

/-- A typed-buffer span must be in bounds and its regions the partition's (24 R419). -/
def engBuf (s : State) (k code : Nat) (a : Int) (n : Nat) : Except Halt Unit :=
  if a < 0 || (bufSize code : Int) < a + n then stopNow 0x11
  else
    match foreignRegion s k code a.toNat n with
    | none => .ok ()
    | some r => if regionHeld s k r then stopNow 0x18 else .error (.stall (swapRegion k r))

/-- Staging slices (10 R205, 14 R291): 4 MiB each, tagged by 64 KiB region. -/
def sliceKey (j a : Nat) : Nat := 4194304 * j + a
def swapSlice (d region part : Nat) (s : State) : State :=
  let die := dieOf s d
  let old := mapGet die.sliceRegion 0 region
  let back := mapGet die.sliceSpills Spill.none (4096 * part + region)
  setDie s d { die with
    slices := refilled die.slices back region
    sliceBad := remarked die.sliceBad back region
    sliceSpills := mapSet (mapSet die.sliceSpills Spill.none (4096 * (old - 1) + region) (spillOf die.slices die.sliceBad region)) Spill.none (4096 * part + region) Spill.none
    sliceRegion := mapSet die.sliceRegion 0 region (part + 1) }
/-- A stopped engine command of the outgoing partition has an endpoint in the region. -/
def sliceHeld (s : State) (d region : Nat) : Bool :=
  (List.range 80).any (fun i => (coreOf s (80 * d + i)).vrf.area.any (fun p => (p.2.eng.copy).any (fun m =>
    (m.desc.ssp == 7 && sliceKey m.desc.ssl m.desc.sbase / 65536 == region) || (m.desc.dsp == 7 && sliceKey m.desc.dsl m.desc.dbase / 65536 == region))))
def engSlice (s : State) (k j : Nat) (a : Int) (n : Nat) : Except Halt Unit :=
  let d := dieOfCore k
  let part := (coreOf s k).part
  if a < 0 || 4194304 < a + n then stopNow 0x11
  else
    let lo := sliceKey j a.toNat / 65536
    match ((List.range ((sliceKey j a.toNat + n - 1) / 65536 - lo + 1)).map (fun i => lo + i)).find? (fun r =>
        let t := mapGet (dieOf s d).sliceRegion 0 r; t != 0 && t != part + 1) with
    | none => .ok ()
    | some r => if sliceHeld s d r then stopNow 0x18 else .error (.stall (swapSlice d r part))

/-- Bytes of one space piece with the poison of their 64-byte lines. -/
def flagged (bad : Nat → Bool) (a : Nat) (bs : List Byte) : Data := (List.range bs.length).map (fun i => (bs.getD i 0#8, bad (a + i)))
/-- Read a run at its source. -/
def readSide (s : State) (k x sp sl : Nat) (cap : Cap) (a : Int) (n world : Nat) (rights : Nat) : Except Halt (State × Data) := do
  match sp with
  | 0 =>
    let ps ← engSpan s k x cap a n rights world false
    .ok (heatAll s ps false, ps.flatMap (fun p => (pieces 256 p.1 p.2.2 300).flatMap (fun q =>
      flagged (fun b => badIn s world b p.2.1 1) q.1 (readIn s world q.1 p.2.1 q.2))))
  | 7 =>
    engSlice s k sl a n
    let d := dieOf s (dieOfCore k)
    let key := sliceKey sl a.toNat
    .ok (s, flagged (fun b => mapGet d.sliceBad false (b / 64)) key (getBytes d.slices key n))
  | _ =>
    let code := (spaceBuf sp).getD 0
    engBuf s k code a n
    .ok (s, (spaceLines sp a.toNat n).flatMap (fun p => flagged (fun b => bufBad s k code b 1) p.1 (bufBytes s k code p.1 p.2)))
/-- The source of a run may be read. -/
def checkFrom (s : State) (k x sp sl : Nat) (cap : Cap) (a : Int) (n world : Nat) (rights : Nat) : Except Halt Unit :=
  match sp with
  | 0 => do let _ ← engSpan s k x cap a n rights world false; .ok ()
  | 7 => engSlice s k sl a n
  | _ => engBuf s k ((spaceBuf sp).getD 0) a n
/-- The destination of a run may be written. -/
def checkSide (s : State) (k x sp sl : Nat) (cap : Cap) (a : Int) (n world : Nat) (rights : Nat) : Except Halt (List (Nat × Nat × Nat)) := do
  match sp with
  | 0 => engSpan s k x cap a n rights world true
  | 7 => do engSlice s k sl a n; .ok []
  | _ => do engBuf s k ((spaceBuf sp).getD 0) a n; .ok []
/-- Write a run at its destination: every 64-byte line written from poisoned data is poisoned (22 R386); the core keeps no line of global
bytes so written, so that an acquire at core scope sees them too (13 R268; log 79). -/
def writeSide (s : State) (k : Nat) (by_ : Writer) (sp sl : Nat) (ps : List (Nat × Nat × Nat)) (a : Int) (world : Nat) (data : Data) : State :=
  let cut : Data → Nat → List (Nat × Data) := fun d at_ => (pieces 64 at_ d.length (d.length + 1)).map (fun q => (q.1, (d.drop (q.1 - at_)).take q.2))
  match sp with
  | 0 =>
    let s := heatAll s ps true
    (ps.foldl (fun (acc : State × Data) p =>
      ((cut (acc.2.take p.2.2) p.1).foldl (fun s q =>
        dropLine (writeIn s world q.1 p.2.1 (q.2.map (·.1)) false (q.2.any (·.2))) k world (viewAddr world p.2.1 q.1)) acc.1, acc.2.drop p.2.2)) (s, data)).1
  | 7 =>
    (cut data (sliceKey sl a.toNat)).foldl (fun s q =>
      let d := dieOf s (dieOfCore k)
      setDie s (dieOfCore k) { d with
        slices := setBytes d.slices q.1 (q.2.map (·.1))
        sliceBad := poisonWrite d.sliceBad q.1 q.2.length (q.2.any (·.2))
        sliceRegion := mapSet d.sliceRegion 0 (q.1 / 65536) ((coreOf s k).part + 1) }) s
  | _ =>
    let code := (spaceBuf sp).getD 0
    ((spaceLines sp a.toNat data.length).foldl (fun (acc : State × Data) p =>
      ((cut (acc.2.take p.2) p.1).foldl (fun s q => writeBuf s k by_ code q.1 (q.2.map (·.1)) (q.2.any (·.2))) acc.1, acc.2.drop p.2)) (s, data)).1

/-! ## Engines of a context -/

/-- The queue of engine `e`: 0 copy, 1 SFE, 4 send, 5 collective, 6 checkpoint, 7 gate queue; subscriptions have their own table. -/
def Engines.queue (g : Engines) (e : Nat) : List Cmd :=
  match e with | 0 => g.copy | 1 => g.sfe | 4 => g.send | 5 => g.coll | 6 => g.ck | 7 => g.gq | _ => []
def Engines.setQueue (g : Engines) (e : Nat) (q : List Cmd) : Engines :=
  match e with
  | 0 => { g with copy := q } | 1 => { g with sfe := q } | 4 => { g with send := q } | 5 => { g with coll := q } | 6 => { g with ck := q }
  | 7 => { g with gq := q } | _ => g
def setQueue (s : State) (k x e : Nat) (q : List Cmd) : State :=
  let c := ctxOf s k x
  setCtx s k x { c with eng := c.eng.setQueue e q }
def setHead (s : State) (k x e : Nat) (m : Cmd) : State := setQueue s k x e (m :: ((ctxOf s k x).eng.queue e).drop 1)
def setSubs (s : State) (k x : Nat) (us : List Sub) : State :=
  let c := ctxOf s k x
  setCtx s k x { c with eng := { c.eng with subs := us } }
/-- EINFO of an engine-found cause (22 R384). -/
def engInfo (sem e : Nat) : Nat := sem + 16 * e
/-- An engine stops: the command and the later ones of the context in the engine go, and the cause is taken in class A (22 R378); EINFO
of 0x2E names the peer and the KIND instead (25 R436). -/
def stopWith (s : State) (k x e cause info : Nat) : State :=
  let s := setQueue s k x e []
  setCtx s k x (raiseA (ctxOf s k x) cause info)
def stopEngine (s : State) (k x e : Nat) (m : Cmd) (cause : Nat) : State := stopWith s k x e cause (engInfo m.sem e)
/-- The same of a subscription: it and the later ones of its direction go. -/
def stopSub (s : State) (k x n : Nat) (u : Sub) (cause : Nat) : State :=
  let us := (ctxOf s k x).eng.subs
  let s := setSubs s k x (us.take n ++ (us.drop n).filter (fun v => v.store != u.store))
  setCtx s k x (raiseA (ctxOf s k x) cause (engInfo u.cmd.sem (if u.store then 3 else 2)))
/-- A semaphore is incremented on completion; one of a scope wider than core makes its WAITS acquire (12 R239). -/
def creditSem (s : State) (k x sem scope : Nat) : State :=
  let c := addSem (ctxOf s k x) sem 1
  setCtx s k x { c with semWide := if 1 < scope then c.semWide ||| 2 ^ sem else c.semWide }
/-- Earlier local accesses of the command's class are performed (R179), and every store that its group's mark released (10 R214, 13
R273). -/
def cmdOrdered (s : State) (k x : Nat) (m : Cmd) : Bool :=
  !blockedReq (localReqs (coreOf s k)) ⟨x, m.cls, m.seq, 8, [], false⟩ false
    && !(coreOf s k).ms.released.any (fun t => t.ctx == x && decide (t.seq < m.seq))
    && !(m.kind == .cpyrPut && m.cap.home == Config.moduleNumber && flagBefore (coreOf s k) x m.cls m.seq)
/-- The number of a run in walk order from its indices, innermost first, and the indices of a run (R181). -/
def rankOf (cnts ix : List Nat) : Nat := match cnts, ix with | c :: cs, i :: is => i + (c + 1) * rankOf cs is | _, _ => 0
def indicesOf (cnts : List Nat) (n : Nat) : List Nat := match cnts with | [] => [] | c :: cs => n % (c + 1) :: indicesOf cs (n / (c + 1))
def Cmd.word (m : Cmd) : Nat := m.idx.getD 0 0
def Cmd.run (m : Cmd) : Nat := rankOf m.desc.cnts (m.idx.drop 1)
/-- The cursor at a word of a run: six loop indices (R184, 03 R57). -/
def Cmd.goto (m : Cmd) (word run : Nat) : Cmd := { m with idx := word :: (indicesOf m.desc.cnts run ++ List.replicate 5 0).take 5 }
/-- A ring slot of the subscription is on its way. -/
def Sub.busy (u : Sub) : Bool := u.cmd.fin.isSome || u.cmd.word != 0
/-- Bytes of a destination run. -/
def Cmd.dstBytes (m : Cmd) : Nat :=
  match m.kind with
  | .sfe _ st dt _ _ => m.desc.bytes / sfeBytes st * sfeBytes dt
  | _ => m.desc.bytes
/-- The world whose memory a command reads and writes: a get at its own module acts as CPY (12 R248), and a put in a world is deferred. -/
def cmdWorld (s : State) (k x : Nat) (m : Cmd) : Nat := if m.kind == .cpyrPut then 0 else (ctxOf s k x).world
def cmdRights (m : Cmd) (r : Nat) : Nat := r ||| rENGINE ||| (if m.kind == .cpyrGet || m.kind == .cpyrPut then rREMOTE else 0)
/-- Offset of the global endpoint. -/
def Cmd.at_ (m : Cmd) (sp : Nat) (a : Int) : Int := if sp = 0 then a + m.off else a

/-- Bytes of the next beat of a run: what is left of it, to the next boundary of 256 bytes of the global side, since a slot moves one
aligned span (10 R207), or of the run. -/
def Cmd.beatBytes (m : Cmd) (src dst : Int) : Nat :=
  let a := if m.desc.ssp = 0 then (src + 4 * m.word).toNat else if m.desc.dsp = 0 then (dst + 4 * m.word).toNat else 4 * m.word
  Nat.min (256 - a % 256) (m.desc.bytes - 4 * m.word)
/-- A beat of a command's stream over the pieces of device memory `ps` (10 R208, R212): one near the core takes an owned slot that is still
unbound as its cycle comes, and none is its answer where there is none; one of another die crosses the bridges to it. The other answer is
the cycle it ends, where that is known. -/
def globalBeat (s : State) (k seq : Nat) (ps : List (Nat × Nat × Nat)) (write : Bool) : Option (State × Nat) :=
  match farDie k ps with
  | some e =>
    let c := coreOf s k
    let b : Beat := { seq := seq, slice := none, pieces := ps, reach := some (s.now + 48 * hops (dieOfCore k) e), write := write, fin := none }
    some (setCore s k { c with ms := { c.ms with beats := c.ms.beats ++ [b] } }, 0)
  | none =>
    let b := bindSlot s k
    if b.2 = s.now then some (b.1, b.2 + (if write then 152 else 192)) else none
/-- A beat of a staging slice waits for the slice's port (R206). -/
def sliceBeat (s : State) (k seq j : Nat) : State :=
  let c := coreOf s k
  setCore s k { c with ms := { c.ms with beats := c.ms.beats ++ [{ seq := seq, slice := some j, pieces := [], reach := none, write := false, fin := none }] } }
/-- The latency of a core at a slice (R206). -/
def sliceCycles (s : State) (k j : Nat) : Nat :=
  let l := Config.sliceLatency k j s.repairs.spares
  if l < 22 then 22 else if 58 < l then 58 else l
/-- The beats of a command that have not ended. -/
def beatsOpen (s : State) (k seq : Nat) : Bool := (coreOf s k).ms.beats.any (fun b => b.seq == seq && !b.fin.any (fun f => f ≤ s.now))
/-- Those that have are done with. -/
def clearBeats (s : State) (k seq : Nat) : State :=
  let c := coreOf s k
  setCore s k { c with ms := { c.ms with beats := c.ms.beats.filter (fun b => b.seq != seq) } }
/-- The core whose beat a slice serves: the first with one waiting after the core it served last, as if the die's last core had been
served at reset (R206). -/
def sliceNext (s : State) (d j : Nat) : Option Nat :=
  let last := mapGet (dieOf s d).sliceLast 0 j
  let from_ := if last = 0 then 0 else last - 80 * d
  ((List.range 80).map (fun i => 80 * d + (from_ + i) % 80)).find? (fun k => (coreOf s k).ms.beats.any (fun b => b.slice == some j && b.fin.isNone))
/-- A slice serves one beat in a cycle: the earliest of the core it serves. -/
def serveSlice (s : State) (d j : Nat) : State :=
  match sliceNext s d j with
  | none => s
  | some k =>
    let c := coreOf s k
    let ix := c.ms.beats.findIdx (fun b => b.slice == some j && b.fin.isNone)
    let bs := (List.range c.ms.beats.length).filterMap (fun i => (c.ms.beats[i]?).map (fun b => if i = ix then { b with fin := some (s.now + sliceCycles s k j) } else b))
    let s := setCore s k { c with ms := { c.ms with beats := bs } }
    setDie s d { dieOf s d with sliceLast := mapSet (dieOf s d).sliceLast 0 j (k + 1) }
/-- Every slice of a die with a beat waiting. -/
def serveSlices (s : State) (d : Nat) : State :=
  let js := (List.range 32).filter (fun j => s.cores.any (fun c => c.1 / 80 == d && c.2.ms.beats.any (fun b => b.slice == some j && b.fin.isNone)))
  js.foldl (fun s j => serveSlice s d j) s

/-- The next row of a queue destination (R186): it waits while the queue is full, rows held until a restart point counted as full (08 R164,
22 R383); a queue that is not engine-fed stops the command. -/
def pushBytes (s : State) (k x q : Nat) (data : Data) : Except Halt State :=
  let c := ctxOf s k x
  let cfg := qcfgOf c q
  if cfg.cls ≠ 2 then stopNow 0x08
  else
    let ahead := (qptrOf c q).count + claimedRows c q
    if cfg.depth ≤ ahead + mapGet c.held 0 q + mapGet c.freed 0 q then .error (.stall id)
    else .ok (pushRow s k x q (rowAt c q ahead) ⟨BitVec.ofNat 1024 (leVal ((data.take 128).map (·.1))), if (data.take 128).any (·.2) then .corrupt else .clean⟩)

/-- One run of CPY, CPYR at its own module, or SFE takes effect: read whole, then written (R185, R190). -/
def doRun (s : State) (k x : Nat) (m : Cmd) : Except Halt (State × Cmd) := do
  let d := m.desc
  let n := m.run
  let w := cmdWorld s k x m
  let src := m.at_ d.ssp (d.src n)
  let dst := m.at_ d.dsp (d.dst n)
  let who := x + (match m.kind with | .sfe _ _ _ _ _ => 16 | _ => 8)
  let ps ← if d.dsp = 8 then .ok [] else checkSide s k who d.dsp d.dsl m.cap dst m.dstBytes w (cmdRights m rSTORE)
  let r ← readSide s k who d.ssp d.ssl m.cap src d.bytes w (cmdRights m rLOAD)
  let out : Data × List Nat := match m.kind with
    | .sfe func st dt rm scale =>
      let ws := (List.range (d.bytes / sfeBytes st)).map (fun i => leVal (((r.2.drop (i * sfeBytes st)).take (sfeBytes st)).map (·.1)))
      let bad : Nat → Bool := fun i => if func = 6 then r.2.any (·.2) else ((r.2.drop (i * sfeBytes st)).take (sfeBytes st)).any (·.2)
      let rs := sfeRun func st dt rm m.flush scale ws
      ((List.range rs.length).flatMap (fun i => (leBytes (sfeBytes dt) (rs.getD i ⟨0, 0⟩).code).map (fun b => (b, bad i))), rs.map (·.kind))
    | _ => (r.2, [])
  let s := match eventOf (firstKind out.2) m.addr 6 with
    | some e => setCtx r.1 k x (noteEvent (ctxOf r.1 k x) r.1.now m.iss e)
    | none => r.1
  if m.kind == .cpyrPut && out.1.any (·.2) then stopNow 0x19
  else if d.dsp = 8 then .ok (s, { m with buffer := m.buffer ++ out.1 })
  else .ok (writeSide s k (.command x m.cls m.iss) d.dsp d.dsl ps dst w out.1, m)

/-- The cursor passes the run; after the last the command waits for its writes (R184). -/
def nextRun (m : Cmd) : Cmd :=
  if m.run + 1 < m.desc.runs then { m.goto 0 (m.run + 1) with sent := 0, fin := none, upc := 1 } else { m with sent := 0, fin := none, upc := 2 }
/-- What an engine does with the outcome of a step of its head: it goes on, waits, or stops. -/
def settleEngine (s : State) (k x e : Nat) (m : Cmd) (r : Except Halt (State × Cmd)) : State :=
  match r with
  | .ok (t, m') => setHead t k x e m'
  | .error (.stall f) => f s
  | .error (.trap cause info) => stopWith (logOutside s cause info) k x e cause (if cause = 0x2E then info else engInfo m.sem e)
  | .error _ => s

end Sys2Proof.Machine
end

