-- ==== Sys2Proof/Machine/Engines.lean ====
section
/-! DEFINITION. Machine/Engines.lean: the CE commands as they issue (09 R178 to R191, 12 R254 to R257, 16 R316, 23 R399, R411): capacity, the
descriptor as read at issue, the checks, and the entry in the engine. With a pending guard every check but those is put off to the head of
the queue, and its cause is kept with the command. -/

namespace Sys2Proof.Machine

/-! ## Entering an engine -/

/-- A linear S-buffer read at S[sa] (R179): a descriptor, a gate record or a payload of n bytes at a multiple of `align`. -/
def Iss.readBlock (i : Iss) (sa n align : Nat) : Except Halt (Iss × List Byte) := do
  let v := i.s sa
  let a := v.2.toNat % 1048576
  v.1.checkBuf 3 a n align 0 true
  let r := readBuf v.1.st v.1.st.core v.1.st.cx 3 a n
  .ok (if r.2 then v.1.consumes 0xFF .corrupt else v.1, r.1)
/-- The first failed check traps, or waits for the guard with the command (23 R399), poison likewise; of `used` entries of `limit` none free is
0x29 after them (R178, 23 R396), and at once for a command whose guard is pending. -/
def Iss.checks (i : Iss) (used limit : Nat) (cs : List (Bool × Nat × Nat)) : Except Halt (Iss × Option Nat) :=
  match cs.find? (fun c => c.1), i.guard with
  | some c, none => trapNow c.2.1 c.2.2
  | bad, pending =>
    if limit ≤ used then trapNow 0x29 0
    else match bad, pending, i.corrupt with
      | some c, _, _ => .ok ({ i with corrupt := none }, some c.2.1)
      | none, some _, some _ => .ok ({ i with corrupt := none }, some 0x19)
      | none, _, _ => .ok (i, none)
/-- A fresh command. -/
def Iss.command (i : Iss) (f : EC) (kind : CmdKind) (d : Desc) (off : Nat) (fault : Option Nat) : Cmd :=
  { kind := kind, sem := f.sem, cls := f.cl, cap := readC i.ctx f.cb, capIx := f.cb, off := off, desc := d, flush := i.flush, addr := i.g.addr,
    guard := i.guard, headAt := none, upc := 0, idx := List.replicate 6 0, sent := 0, short := 0, buffer := [], fin := none, seq := 0, tag := none, iss := i.clock, fault := fault }
/-- It enters its queue after the stores of the group's mark, with the next number in the core's order of requests. -/
def Iss.queueCmd (i : Iss) (e : Nat) (m : Cmd) : Iss :=
  i.afterMark (fun s =>
    let q := takeSeq s s.core
    setQueue q.1 s.core s.cx e ((ctxOf q.1 s.core s.cx).eng.queue e ++ [{ m with seq := q.2 }]))
/-- A command with a C-buffer endpoint waits until no tile is busy (09 R167). -/
def Iss.tilesQuiet (i : Iss) (d : Desc) : Except Halt Unit := if (d.ssp = 4 || d.dsp = 4) && busyTiles i.core ≠ 0 then stallNow else .ok ()
/-- EINFO of a misaligned base. -/
def baseInfo (f : EC) (d : Desc) (off : Nat) : Nat :=
  let ix : Nat → Nat := fun sp => if sp = 0 then f.cb else 8 + (spaceBuf sp).getD 0
  if d.sbase % 4 ≠ 0 then memInfo d.sbase (ix d.ssp) 0 else if d.dsp ≠ 8 && d.dbase % 4 ≠ 0 then memInfo d.dbase (ix d.dsp) 0 else memInfo off f.cb 0
/-- The checks of a walk with the spaces it may use (R411, in the order of R396). -/
def Iss.walkChecks (i : Iss) (f : EC) (w : List Nat) (off dbytes : Nat) (spaces : Bool) : List (Bool × Nat × Nat) :=
  let d := descOf w
  let global := d.ssp = 0 || d.dsp = 0
  let known := decide (d.ssp ≤ 8) && decide (d.dsp ≤ 8) && !(d.ssp = 0 && d.dsp = 0)
  [(d.sbase % 4 ≠ 0 || (d.dsp ≠ 8 && d.dbase % 4 ≠ 0) || (global && off % 4 ≠ 0), 0x15, baseInfo f d off),
   (known && !spaces, 0x16, 0),
   (descBad w || (d.dsp = 8 && (decide (64 ≤ d.dbase) || dbytes * d.runs % 128 ≠ 0)), 0x02, i.syl),
   (twoLayouts d dbytes, 0x17, 0)]

/-! ## Data movement -/

def opCpy (f : EC) : Op := fun i => do
  let t ← i.readBlock f.sa 64 64
  let b := t.1.s f.sb
  let off := b.2.toNat % 1099511627776
  let w := words8 t.2
  let d := descOf w
  b.1.tilesQuiet d
  let c ← b.1.checks b.1.ctx.eng.copy.length 16 (b.1.walkChecks f w off d.bytes (d.ssp ≠ 8))
  .ok (c.1.queueCmd 0 (c.1.command f .cpy d off c.2))

/-- CPYR (12 R254): in a world a put is deferred, with room for all of it reserved (17 R340, 26 R451). -/
def Iss.cpyr (i : Iss) (f : EC) (put : Bool) : Except Halt Iss := do
  let t ← i.readBlock f.sa 64 64
  let b := t.1.s f.sb
  let off := b.2.toNat % 1099511627776
  let w := words8 t.2
  let d := descOf w
  let i := b.1
  i.tilesQuiet d
  let ok := if put then decide (d.dsp = 0) && decide (1 ≤ d.ssp) && decide (d.ssp ≤ 7) else decide (d.ssp = 0) && decide (1 ≤ d.dsp) && decide (d.dsp ≤ 8)
  let room := effectRoom i.st i.ctx.world
  let full := put && i.ctx.world ≠ 0 && decide (room < (d.bytes * d.runs + 4095) / 4096)
  let c ← i.checks i.ctx.eng.copy.length 16 (i.walkChecks f w off d.bytes ok ++ [(full, 0x3B, worldInfo i.st i.ctx.world room false)])
  .ok (c.1.queueCmd 0 (c.1.command f (if put then .cpyrPut else .cpyrGet) d off c.2))
def opCpyrGet (f : EC) : Op := fun i => i.cpyr f false
def opCpyrPut (f : EC) : Op := fun i => i.cpyr f true

/-- SFE (R190): FN is FUNC [3:0], ST [5:4], DT [7:6], RM [9:8]. -/
def opSfe (f : EC) : Op := fun i => do
  let t ← i.readBlock f.sa 64 64
  let b := t.1.s f.sb
  let scale := if f.sb = 0 then none else some (b.2.setWidth 32)
  let w := words8 t.2
  let d := descOf w
  let st := field f.fn 4 2
  let dt := field f.fn 6 2
  b.1.tilesQuiet d
  let ok := decide (2 ≤ d.ssp) && decide (d.ssp ≤ 6) && ((decide (2 ≤ d.dsp) && decide (d.dsp ≤ 6)) || decide (d.dsp = 8))
  let c ← b.1.checks b.1.ctx.eng.sfe.length 16 (b.1.walkChecks f w 0 (d.bytes / sfeBytes st * sfeBytes dt) ok)
  .ok (c.1.queueCmd 1 (c.1.command f (.sfe (f.fn % 16) st dt (field f.fn 8 2) scale) d 0 c.2))

/-! ## Subscriptions (R187 to R189) -/

/-- SUBS: the ring's header is DBASE of a load, SBASE of a store; the strides on the ring's side are reserved. -/
def Iss.subs (i : Iss) (f : EC) (store : Bool) : Except Halt Iss := do
  let t ← i.readBlock f.sa 64 64
  let b := t.1.s f.sb
  let off := b.2.toNat % 1099511627776
  let w := words8 t.2
  let d := descOf w
  let ring := if store then d.ssp else d.dsp
  let hdr := if store then d.sbase else d.dbase
  let far := if store then d.dsp else d.ssp
  let code := (spaceBuf ring).getD 0
  let ok := decide (far = 0) && (ring = 2 || ring = 5)
  let strides := if store then d.sstr else d.dstr
  let base := b.1.walkChecks f w off d.bytes ok
  let c ← b.1.checks b.1.ctx.eng.subs.length 8 ([(ok && hdr % 64 ≠ 0, 0x15, memInfo hdr (8 + code) 0)] ++ base ++ [(strides.any (fun v => v ≠ 0), 0x02, b.1.syl)])
  let m := c.1.command f .cpy d off c.2
  .ok (c.1.afterMark (fun s =>
    let q := takeSeq s s.core
    let u : Sub := { store := store, cmd := { m with seq := q.2 }, buf := code, hdr := hdr, moved := 0, stopping := none, silent := false, draining := [],
                     quiesced := false }
    setSubs q.1 s.core s.cx ((ctxOf q.1 s.core s.cx).eng.subs ++ [u])))
def opSubsLd (f : EC) : Op := fun i => i.subs f false
def opSubsSt (f : EC) : Op := fun i => i.subs f true
def setSub (s : State) (k x n : Nat) (u : Sub) : State := setSubs s k x ((ctxOf s k x).eng.subs.set n u)
/-- The live subscription of a context on a ring. -/
def subOn (s : State) (k x buf hdr : Nat) : Option (Nat × Sub) :=
  let us := (ctxOf s k x).eng.subs
  (List.range us.length).findSome? (fun n => (us[n]?).bind (fun u => if u.buf == buf && u.hdr == hdr then some (n, u) else none))
/-- An UNSUB or a DRAIN takes effect: on a ring with no live subscription of the context its semaphore counts at once (R188, R189). `head`
is the count of slots published as it issued. -/
def ringAct (s : State) (k x sem : Nat) (drain : Bool) (buf hdr head : Nat) : State :=
  match subOn s k x buf hdr with
  | none => creditSem s k x sem 0
  | some (n, u) => setSub s k x n (if drain then { u with draining := u.draining ++ [(sem, head)] } else { u with stopping := some (sem, head) })
/-- UNSUB and DRAIN take no entry (R178). With a pending guard, or behind one that has it, they wait for it in their order (R182). -/
def Iss.onRing (i : Iss) (f : EC) (drain : Bool) : Except Halt Iss :=
  let a := i.s f.sa
  let buf := f.cb / 4
  let hdr := a.2.toNat % 1048576
  let i := a.1
  .ok (i.afterMark (fun s =>
    let head := (hdrAt s s.core buf hdr).head
    if i.guard.isNone && (actCtx s).eng.ring.isEmpty then ringAct s s.core s.cx f.sem drain buf hdr head
    else
      let m := i.command f (.ringOp drain buf hdr head) ⟨0, 1, 1, 0, 0, false, 4, 0, 0, 0, [], [], []⟩ 0 none
      let c := actCtx s
      setAct s { c with eng := { c.eng with ring := c.eng.ring ++ [m] } }))
def opUnsub (f : EC) : Op := fun i => i.onRing f false
def opDrain (f : EC) : Op := fun i => i.onRing f true

/-! ## Gate queue, collectives, messages, checkpoint marks -/

/-- A routing register of a die by CSR number (16 R313). -/
def routeReg (s : State) (d csr : Nat) : Nat := mapGet (dieOf s d).xr 0 csr
/-- Bytes of a token row (R313). -/
def rowBytes (s : State) (d : Nat) : Nat :=
  let r := routeReg s d 0x7C1
  let hid := 64 * (field r 0 9 + 1)
  if field r 9 1 = 1 then hid else 2 * hid
/-- No descriptor. -/
def Desc.none : Desc := ⟨0, 1, 1, 0, 0, false, 4, 0, 0, 0, [], [], []⟩

/-- GQPUSH (16 R316): the row must be readable in the die's row object, at a multiple of 64; in a world the push is deferred. -/
def opGqpush (f : EC) : Op := fun i => do
  let t ← i.readBlock f.sa 64 64
  let b := t.1.s f.sb
  let off := b.2.toNat % 1099511627776
  let i := b.1
  let c := readC i.ctx f.cb
  let n := rowBytes i.st i.die
  i.needObject c
  let info := memInfo off f.cb 0
  let room := effectRoom i.st i.ctx.world
  let r ← i.checks i.ctx.eng.gq.length 16 [(!c.tag, 0x10, info), (!c.grants rLOAD || decide (c.index ≠ routeReg i.st i.die 0x7C0) || decide (c.home ≠ Config.moduleNumber), 0x12, info), (off % 64 ≠ 0, 0x15, info),
    (decide (off < c.lower) || decide (c.upper < off + n), 0x11, info),
    (i.ctx.world ≠ 0 && room = 0, 0x3B, worldInfo i.st i.ctx.world room false)]
  .ok (r.1.queueCmd 7 (r.1.command f (.gqpush t.2 off) Desc.none off r.2))

/-- COLL (12 R256): the 64-byte descriptor; irrevocable in a world. -/
def collBad (w : List Nat) : Bool :=
  let a := w.getD 0 0
  let ty := field a 4 4
  decide (5 < field a 0 4) || !(ty ≤ 3 || ty = 6 || ty = 7) || field a 8 2 = 3 || field a 16 48 ≠ 0 || field (w.getD 2 0) 40 24 ≠ 0
    || field (w.getD 3 0) 40 24 ≠ 0 || decide (w.getD 4 0 = 0) || field (w.getD 4 0) 32 32 ≠ 0 || field (w.getD 5 0) 32 32 ≠ 0 || w.getD 6 0 ≠ 0 || w.getD 7 0 ≠ 0
def opColl (f : EC) : Op := fun i => do
  i.revocable
  let t ← i.readBlock f.sa 64 64
  let w := words8 t.2
  let c ← t.1.checks t.1.ctx.eng.coll.length 2 [(collBad w || field (w.getD 1 0) Config.moduleNumber 1 = 0, 0x02, t.1.syl)]
  .ok (c.1.queueCmd 5 (c.1.command f (.coll w) Desc.none 0 c.2))

/-- SEND (12 R255): FN is hnd [7:0], len / 16 − 1 [13:8]; the payload is read at issue, and its poison is consumed. -/
def opSend (f : EC) : Op := fun i => do
  let n := 16 * (field f.fn 8 6 + 1)
  let t ← i.readBlock f.sa n 16
  let b := t.1.s f.sb
  let room := effectRoom b.1.st b.1.ctx.world
  let c ← b.1.checks b.1.ctx.eng.send.length 8 [(b.1.ctx.world ≠ 0 && room = 0, 0x3B, worldInfo b.1.st b.1.ctx.world room false)]
  .ok (c.1.queueCmd 4 (c.1.command f (.send (b.2.toNat % 64) (field b.2.toNat 6 10) (f.fn % 256) t.2) Desc.none 0 c.2))

/-- CKMARK (12 R257): irrevocable in a world. -/
def opCkmark (f : EC) : Op := fun i => do
  i.revocable
  let v := i.s f.sa
  let c ← v.1.checks v.1.ctx.eng.ck.length 1 []
  .ok (c.1.queueCmd 6 (c.1.command f (.ckmark v.2) Desc.none 0 c.2))

/-! ## The instructions: each issues as a group of its own (05 R85) -/

/-- CPY. -/
def execCpy (g : Guard) (f : EC) (s : State) : Host.Outcome State Fault Refusal :=
  .next (issueSyl (.cpy g f) (opCpy f) s)
/-- CPYR_GET. -/
def execCpyrGet (g : Guard) (f : EC) (s : State) : Host.Outcome State Fault Refusal :=
  .next (issueSyl (.cpyrGet g f) (opCpyrGet f) s)
/-- CPYR_PUT. -/
def execCpyrPut (g : Guard) (f : EC) (s : State) : Host.Outcome State Fault Refusal :=
  .next (issueSyl (.cpyrPut g f) (opCpyrPut f) s)
/-- SFE. -/
def execSfe (g : Guard) (f : EC) (s : State) : Host.Outcome State Fault Refusal :=
  .next (issueSyl (.sfe g f) (opSfe f) s)
/-- SUBS_LD. -/
def execSubsLd (g : Guard) (f : EC) (s : State) : Host.Outcome State Fault Refusal :=
  .next (issueSyl (.subsLd g f) (opSubsLd f) s)
/-- SUBS_ST. -/
def execSubsSt (g : Guard) (f : EC) (s : State) : Host.Outcome State Fault Refusal :=
  .next (issueSyl (.subsSt g f) (opSubsSt f) s)
/-- UNSUB. -/
def execUnsub (g : Guard) (f : EC) (s : State) : Host.Outcome State Fault Refusal :=
  .next (issueSyl (.unsub g f) (opUnsub f) s)
/-- DRAIN. -/
def execDrain (g : Guard) (f : EC) (s : State) : Host.Outcome State Fault Refusal :=
  .next (issueSyl (.drain g f) (opDrain f) s)
/-- GQPUSH. -/
def execGqpush (g : Guard) (f : EC) (s : State) : Host.Outcome State Fault Refusal :=
  .next (issueSyl (.gqpush g f) (opGqpush f) s)
/-- COLL. -/
def execColl (g : Guard) (f : EC) (s : State) : Host.Outcome State Fault Refusal :=
  .next (issueSyl (.coll g f) (opColl f) s)
/-- SEND. -/
def execSend (g : Guard) (f : EC) (s : State) : Host.Outcome State Fault Refusal :=
  .next (issueSyl (.send g f) (opSend f) s)
/-- CKMARK. -/
def execCkmark (g : Guard) (f : EC) (s : State) : Host.Outcome State Fault Refusal :=
  .next (issueSyl (.ckmark g f) (opCkmark f) s)

end Sys2Proof.Machine
end

