-- ==== Sys2Proof/Machine/Vector.lean ====
section
/-! DEFINITION. Machine/Vector.lean: the VA and VB slots (08 R144 to R165): element-wise operations, conversions, approximations,
reductions, permutations, lane masks and QADV. -/

namespace Sys2Proof.Machine

/-! ## Elements -/

/-- Bits of an element of a T, ST or DT code (R98, R144). -/
def elemBits (t : Nat) : Nat :=
  match t with
  | 0 => 64 | 1 => 32 | 2 => 16 | 3 => 16 | 4 => 8 | 5 => 16 | 6 => 32 | 7 => 64 | 8 => 8 | 9 => 16 | 10 => 32 | 11 => 64
  | 12 => 64 | 13 => 128 | 16 => 4 | _ => 8
/-- Floating-point T codes, and the complex ones. -/
def isFloatV (t : Nat) : Bool := t < 4 || 13 < t
def isComplex (t : Nat) : Bool := t == 12 || t == 13
/-- An operand of a floating format under the context's FLUSH (R73), and a result rounded to it. -/
def fpIn (flush t w : Nat) : FVal := decodeF (fmtOf t) (dazOf flush t) w
def fpOut (flush t rm : Nat) (v : FVal) : FRes := roundF (fmtOf t) rm false (ftzOf flush t) none v
/-- `.sat` of a finite value; an infinity widens to an infinity whatever `.sat` says (R70, R155). -/
def satFinite (sat : Nat) (v : FVal) : Bool := match v with | .inf _ => false | _ => sat == 1

/-- The result row of an operation on b-bit elements of width w: the codes packed, marked by its sources, with its event. -/
def Iss.vectorOut (i : Iss) (vd lat b : Nat) (rs : List FRes) (rows : List Row) : Except Halt Iss :=
  i.result vd lat ⟨packRow b (rs.map (·.code)), markOf rows⟩ (firstKind (rs.map (·.kind)))

/-- Elements of a masked operation: an inactive one is 0 under Z and the merge operand's otherwise (R146). -/
def masked (c : Ctx) (msk z b n : Nat) (merge : Nat → Nat) (fn : Nat → FRes) : List FRes :=
  (List.range n).map (fun i => if activeElem c msk b i then fn i else ⟨if z = 1 then 0 else merge i, 0⟩)

/-- A row of the sources by position. -/
def rowBits (rows : List Row) (k : Nat) : BitVec 1024 := (rows.getD k Row.zero).bits

/-- Element-wise format VX (R151): binary and unary. -/
def vx2 (lat : VX → Nat) (fn : Nat → VX → Nat → Nat → FRes) (f : VX) : Op := fun i => do
  let b := elemBits f.t
  let n := widthOf f.w / b
  let r ← i.sources b n [f.va, f.vb] []
  let x := rowBits r.2 0
  let y := rowBits r.2 1
  r.1.vectorOut f.vd (lat f) b (masked i.ctx f.msk f.z b n (elem b x) (fun e => fn i.flush f (elem b x e) (elem b y e))) r.2
def vx1 (lat : VX → Nat) (fn : Nat → VX → Nat → FRes) (f : VX) : Op := fun i => do
  let b := elemBits f.t
  let n := widthOf f.w / b
  let r ← i.sources b n [f.va] []
  let x := rowBits r.2 0
  r.1.vectorOut f.vd (lat f) b (masked i.ctx f.msk f.z b n (elem b x) (fun e => fn i.flush f (elem b x e))) r.2

/-! ## Element operations (R151) -/

/-- The latencies of R149. -/
def latAdd (f : VX) : Nat := if isFloatV f.t || isComplex f.t then 3 else 2
def latMul (f : VX) : Nat := if f.t = 0 then 6 else if isFloatV f.t then 5 else 3
def latTree (base : Nat) (f : VX) : Nat := base + f.w

/-- The parts of a complex element (R68), and an element of two results. -/
def partOf (t k w : Nat) : Nat := w / 2 ^ (elemBits t / 2 * k) % 2 ^ (elemBits t / 2)
def cxIn (flush t w : Nat) : FVal × FVal := (fpIn flush t (partOf t 0 w), fpIn flush t (partOf t 1 w))
def cxOut (t : Nat) (re im : FRes) : FRes := ⟨re.code + im.code * 2 ^ (elemBits t / 2), worseKind re.kind im.kind⟩

/-- An operation on integers of T code t, low bits kept (R66). -/
def intRes (fn : Int → Int → Int) (t a b : Nat) : FRes := ⟨wrap (elemBits t) (fn (intOf t (elemBits t) a) (intOf t (elemBits t) b)), 0⟩

def addElem (flush : Nat) (f : VX) (a b : Nat) : FRes :=
  let g := fmtOf f.t
  let ftz := ftzOf flush f.t
  if isComplex f.t then
    let x := cxIn flush f.t a
    let y := cxIn flush f.t b
    cxOut f.t (addF g f.rm ftz x.1 y.1) (addF g f.rm ftz x.2 y.2)
  else if isFloatV f.t then addF g f.rm ftz (fpIn flush f.t a) (fpIn flush f.t b)
  else intRes (· + ·) f.t a b
def subElem (flush : Nat) (f : VX) (a b : Nat) : FRes :=
  let g := fmtOf f.t
  let ftz := ftzOf flush f.t
  if isComplex f.t then
    let x := cxIn flush f.t a
    let y := cxIn flush f.t b
    cxOut f.t (addF g f.rm ftz x.1 y.1.negate) (addF g f.rm ftz x.2 y.2.negate)
  else if isFloatV f.t then addF g f.rm ftz (fpIn flush f.t a) (fpIn flush f.t b).negate
  else intRes (· - ·) f.t a b
def mulElem (flush : Nat) (f : VX) (a b : Nat) : FRes :=
  if isFloatV f.t then mulF (fmtOf f.t) f.rm (ftzOf flush f.t) (fpIn flush f.t a) (fpIn flush f.t b)
  else intRes (· * ·) f.t a b
def minElem (flush : Nat) (f : VX) (a b : Nat) : FRes :=
  if isFloatV f.t then fpOut flush f.t 0 (minV (fpIn flush f.t a) (fpIn flush f.t b))
  else intRes (fun x y => if y < x then y else x) f.t a b
def maxElem (flush : Nat) (f : VX) (a b : Nat) : FRes :=
  if isFloatV f.t then fpOut flush f.t 0 (maxV (fpIn flush f.t a) (fpIn flush f.t b))
  else intRes (fun x y => if x < y then y else x) f.t a b
def absElem (flush : Nat) (f : VX) (a : Nat) : FRes :=
  if isFloatV f.t then
    let v := fpIn flush f.t a
    fpOut flush f.t 0 (if v.isNeg then v.negate else v)
  else intRes (fun x _ => if x < 0 then -x else x) f.t a 0
def negElem (flush : Nat) (f : VX) (a : Nat) : FRes :=
  if isFloatV f.t then fpOut flush f.t 0 (fpIn flush f.t a).negate else intRes (fun x _ => -x) f.t a 0
def bitElem (fn : Nat → Nat → Nat) (_flush : Nat) (_f : VX) (a b : Nat) : FRes := ⟨fn a b, 0⟩
def shlElem (_flush : Nat) (f : VX) (a b : Nat) : FRes := ⟨a * 2 ^ (b % elemBits f.t) % 2 ^ elemBits f.t, 0⟩
def shrElem (_flush : Nat) (f : VX) (a b : Nat) : FRes := ⟨a / 2 ^ (b % elemBits f.t), 0⟩
def sraElem (_flush : Nat) (f : VX) (a b : Nat) : FRes := ⟨wrap (elemBits f.t) (signed (elemBits f.t) a / (2 ^ (b % elemBits f.t) : Nat)), 0⟩
def rndElem (flush : Nat) (f : VX) (a : Nat) : FRes := fpOut flush f.t f.rm (rndV f.rm (fpIn flush f.t a))
/-- VSCL: k beyond 4,000 gives what 4,000 gives in every format. -/
def sclElem (flush : Nat) (f : VX) (a b : Nat) : FRes :=
  let k := (clampI (-4000) 4000 (signed (elemBits f.t) b)).1
  fpOut flush f.t f.rm (match fpIn flush f.t a with | .num s m e => .num s m (e + k) | v => v)
def cmulElem (flush : Nat) (f : VX) (a b : Nat) : FRes :=
  let g := fmtOf f.t
  let ftz := ftzOf flush f.t
  let x := cxIn flush f.t a
  let y := cxIn flush f.t b
  cxOut f.t (dot2F g f.rm ftz x.1 y.1 x.2.negate y.2 none) (dot2F g f.rm ftz x.1 y.2 x.2 y.1 none)
def conjElem (flush : Nat) (f : VX) (a : Nat) : FRes :=
  let x := cxIn flush f.t a
  cxOut f.t (fpOut flush f.t 0 x.1) (fpOut flush f.t 0 x.2.negate)

def opVadd (f : VX) : Op := vx2 latAdd addElem f
def opVsub (f : VX) : Op := vx2 latAdd subElem f
def opVmul (f : VX) : Op := vx2 latMul mulElem f
def opVmin (f : VX) : Op := vx2 (fun _ => 2) minElem f
def opVmax (f : VX) : Op := vx2 (fun _ => 2) maxElem f
def opVabs (f : VX) : Op := vx1 (fun _ => 2) absElem f
def opVneg (f : VX) : Op := vx1 (fun _ => 2) negElem f
def opVand (f : VX) : Op := vx2 (fun _ => 2) (bitElem (· &&& ·)) f
def opVor (f : VX) : Op := vx2 (fun _ => 2) (bitElem (· ||| ·)) f
def opVxor (f : VX) : Op := vx2 (fun _ => 2) (bitElem (· ^^^ ·)) f
def opVshl (f : VX) : Op := vx2 (fun _ => 2) shlElem f
def opVshr (f : VX) : Op := vx2 (fun _ => 2) shrElem f
def opVsra (f : VX) : Op := vx2 (fun _ => 2) sraElem f
def opVrnd (f : VX) : Op := vx1 (fun _ => 3) rndElem f
def opVscl (f : VX) : Op := vx2 (fun _ => 3) sclElem f
def opVcmul (f : VX) : Op := vx2 (fun _ => 6) cmulElem f
def opVconj (f : VX) : Op := vx1 (fun _ => 2) conjElem f
def opVrcp (f : VX) : Op := vx1 (fun _ => 7) (fun flush f a => rcpF f.t (dazOf flush f.t) a) f
def opVrsq (f : VX) : Op := vx1 (fun _ => 7) (fun flush f a => rsqF f.t (dazOf flush f.t) a) f
def opVexp2 (f : VX) : Op := vx1 (fun _ => 9) (fun flush f a => exp2F f.t (dazOf flush f.t) (ftzOf flush f.t) a) f
def opVlog2 (f : VX) : Op := vx1 (fun _ => 9) (fun flush f a => log2F f.t (dazOf flush f.t) (ftzOf flush f.t) a) f

/-! ## Comparison (R152) -/

/-- The lane-mask bits of elements whose flag holds: b / 8 bits each. -/
def maskBits (b : Nat) (flags : List Bool) : Nat :=
  match flags with
  | [] => 0
  | x :: rest => (if x then 2 ^ (b / 8) - 1 else 0) + 2 ^ (b / 8) * maskBits b rest
/-- CC stands in bits [31:28], where RM and Z stand otherwise; the mask's number in VD[3:0]. A poisoned source is consumed (22
R387). -/
def opVcmp (f : VX) : Op := fun i => do
  let b := elemBits f.t
  let n := widthOf f.w / b
  let r ← i.sources b n [f.va, f.vb] []
  let cc := 2 * f.rm + f.z
  let hold : Nat → Nat → Bool := fun a c =>
    if isFloatV f.t then cmpV cc (fpIn i.flush f.t a) (fpIn i.flush f.t c) else cmpI cc (intOf f.t b a) (intOf f.t b c)
  let flags := (List.range n).map (fun e =>
    activeElem i.ctx f.msk b e && hold (elem b (rowBits r.2 0) e) (elem b (rowBits r.2 1) e))
  let j := r.1.consumeRows [f.va, f.vb] r.2
  .ok (j.add 2 (.mask (f.vd % 16) (BitVec.ofNat 128 (maskBits b flags))) none 0)

/-! ## Three operands (R153) -/

def vy (t : Nat) (lat : Nat) (fn : Nat → Nat → Nat → Nat → FRes) (f : VY) : Op := fun i => do
  let b := elemBits t
  let n := widthOf f.w / b
  let r ← i.sources b n [f.va, f.vb, f.vc] []
  r.1.vectorOut f.vd lat b ((List.range n).map (fun e =>
    fn i.flush (elem b (rowBits r.2 0) e) (elem b (rowBits r.2 1) e) (elem b (rowBits r.2 2) e))) r.2
def fmaLat (f : VY) : Nat := if f.ft = 0 then 6 else 5
def fmaElem (pre : FVal → FVal) (post : FVal → FVal) (f : VY) (flush a b c : Nat) : FRes :=
  fmaF (fmtOf f.ft) f.rm (ftzOf flush f.ft) (pre (fpIn flush f.ft a)) (fpIn flush f.ft b) (post (fpIn flush f.ft c))
def cmaElem (t : Nat) (f : VY) (flush a b c : Nat) : FRes :=
  let g := fmtOf t
  let ftz := ftzOf flush t
  let x := cxIn flush t a
  let y := cxIn flush t b
  let z := cxIn flush t c
  cxOut t (dot2F g f.rm ftz x.1 y.1 x.2.negate y.2 (some z.1)) (dot2F g f.rm ftz x.1 y.2 x.2 y.1 (some z.2))
def opVfma (f : VY) : Op := vy f.ft (fmaLat f) (fmaElem id id f) f
def opVfms (f : VY) : Op := vy f.ft (fmaLat f) (fmaElem id FVal.negate f) f
def opVfnma (f : VY) : Op := vy f.ft (fmaLat f) (fmaElem FVal.negate id f) f
/-- FT: 0 complex FP64, 1 complex FP32. -/
def opVcma (f : VY) : Op := vy (13 - f.ft) 6 (cmaElem (13 - f.ft) f) f
/-- FT: 0 int64, 1 int32, 2 int16, 3 int8. -/
def opVimad (f : VY) : Op :=
  vy (7 - f.ft) 3 (fun _ a b c => ⟨(a * b + c) % 2 ^ elemBits (7 - f.ft), 0⟩) f

/-! ## Conversions (R154 to R156) -/

/-- Every value of the source is a value of the destination (R154). -/
def widens (st dt : Nat) : Bool :=
  match dt with
  | 0 => st != 0
  | 1 => st == 2 || st == 3 || 13 < st
  | 2 => 13 < st
  | 3 => 13 < st
  | 14 => st == 16
  | 15 => st == 16
  | _ => false

/-- One element of VCVT, with the generator's state before and after. -/
def cvtElem (flush : Nat) (f : VC) (w : Nat) (x : BitVec 64) : FRes × BitVec 64 :=
  let ws := elemBits f.st
  let wd := elemBits f.dt
  if f.st = 17 then (fpOut flush 1 0 (scaleV w), x)
  else if f.dt = 17 then
    (match fpIn flush 1 w with
    | .nan => ⟨255, 0⟩
    | .inf _ => ⟨254, 0⟩
    | .num _ m e => ⟨if m = 0 then 0 else (max 0 (min 254 (ilog2 m e + 127))).toNat, 0⟩, x)
  else if isFloatV f.st && isFloatV f.dt then
    let r := roundDraws (fmtOf f.dt) f.rm (f.sat = 1 && !widens f.st f.dt) (ftzOf flush f.dt) [fpIn flush f.st w] x
    (r.1.headD ⟨0, 0⟩, r.2)
  else if isFloatV f.st then (toIntF f.dt wd f.rm (fpIn flush f.st w), x)
  else if isFloatV f.dt then (roundF (fmtOf f.dt) f.rm (f.sat = 1) (ftzOf flush f.dt) none (ofIntV (intOf f.st ws w)), x)
  else
    let z := intOf f.st ws w
    if f.sat = 1 && decide (wd < ws) then
      let r := clampI (intLo f.dt wd) (intHi f.dt wd) z
      (⟨wrap wd r.1, r.2⟩, x)
    else (⟨wrap wd z, 0⟩, x)

/-- Active elements in ascending order, drawing as they go; inactive ones are 0. -/
def cvtElems (flush : Nat) (f : VC) (ws : List (Bool × Nat)) (x : BitVec 64) : List FRes × BitVec 64 :=
  match ws with
  | [] => ([], x)
  | (on, w) :: rest =>
    let r := if on then cvtElem flush f w x else (⟨0, 0⟩, x)
    let t := cvtElems flush f rest r.2
    (r.1 :: t.1, t.2)

def opVcvt (f : VC) : Op := fun i => do
  let ws := elemBits f.st
  let m := Nat.max ws (elemBits f.dt)
  let n := widthOf f.w / m
  let r ← i.sources ws n [f.va] []
  let es := (List.range n).map (fun e => (activeElem i.ctx f.msk m e, elem ws (rowBits r.2 0) e))
  let out := cvtElems i.flush f es i.core.gen
  let j := r.1.setCore { r.1.core with gen := out.2 }
  j.vectorOut f.vd 3 (elemBits f.dt) out.1 r.2

/-- One element of VSAT: beyond DT's range it becomes the end of the range, rounded towards zero to ST. -/
def satElem (flush : Nat) (f : VC) (w : Nat) : FRes :=
  if isFloatV f.st then
    let v := fpIn flush f.st w
    match largestV (fmtOf f.dt) with
    | .num _ p g =>
      let past := match v with | .nan => false | .inf _ => true | .num _ m e => ltV (.num false p g) (.num false m e)
      if past then ⟨(roundF (fmtOf f.st) 1 false (ftzOf flush f.st) none (.num v.isNeg p g)).code, 5⟩ else fpOut flush f.st 0 v
    | _ => fpOut flush f.st 0 v
  else
    let r := clampI (intLo f.dt (elemBits f.dt)) (intHi f.dt (elemBits f.dt)) (intOf f.st (elemBits f.st) w)
    ⟨wrap (elemBits f.st) r.1, r.2⟩
def opVsat (f : VC) : Op := fun i => do
  let b := elemBits f.st
  let n := widthOf f.w / b
  let r ← i.sources b n [f.va] []
  let x := rowBits r.2 0
  r.1.vectorOut f.vd 2 b (masked i.ctx f.msk f.z b n (elem b x) (fun e => satElem i.flush f (elem b x e))) r.2

/-- The packed-row layout: elements from byte 0, scale bytes from byte 64. -/
def packedRow (eb : Nat) (codes scales : List Nat) : BitVec 1024 :=
  BitVec.ofNat 1024 (packElems eb codes + 2 ^ 512 * packElems 8 scales)
def opVpack (f : VC) : Op := fun i => do
  let b := elemBits f.st
  let n := widthOf f.w / b
  let r ← i.sources b n [f.va] []
  let vs := (List.range n).map (fun e => fpIn i.flush f.st (elem b (rowBits r.2 0) e))
  let one := packBlock i.flush f.st f.dt f.rm (vs.take 32) i.core.gen
  let two := if n = 64 then packBlock i.flush f.st f.dt f.rm (vs.drop 32) one.2.2 else (0, [], one.2.2)
  let j := r.1.setCore { r.1.core with gen := two.2.2 }
  let rs := one.2.1 ++ two.2.1
  j.result f.vd 5 ⟨packedRow (mxElem f.dt).2.1 (rs.map (·.code)) (if n = 64 then [one.1, two.1] else [one.1]), markOf r.2⟩
    (firstKind (rs.map (·.kind)))
/-- VUNPK of a scalar broadcast: the spec gives every element and no scale byte, which is a free value, fixed by the format and the scalar
(04 R80, log 24). -/
def opVunpk (f : VC) : Op := fun i => do
  let n := widthOf f.w / elemBits f.dt
  let el := mxElem f.st
  let r ← i.sources el.2.1 n [f.va] []
  let row := rowBits r.2 0
  let stf := match f.st with | 18 => 14 | 19 => 15 | _ => 16
  let rs := (List.range n).map (fun e =>
    let x := if 192 ≤ f.va then Config.broadcastScale f.st (readS i.ctx (f.va % 64)) % 256 else elem 8 row (64 + e / 32)
    let v := mulV (scaleV x) (fpIn i.flush stf (elem el.2.1 row e))
    roundF (fmtOf f.dt) f.rm (satFinite f.sat v) (ftzOf i.flush f.dt) none v)
  r.1.vectorOut f.vd 4 (elemBits f.dt) rs r.2

/-! ## Reductions (R79, R158) -/

/-- Put the result of a reduction in element 0. -/
def Iss.reduced (i : Iss) (f : VX) (lat code kind : Nat) (rows : List Row) : Except Halt Iss :=
  i.result f.vd lat ⟨BitVec.ofNat 1024 (code % 2 ^ elemBits f.t), markOf rows⟩ kind

/-- The active elements of a reduction; inactive ones as `rest`. -/
def leavesOf (c : Ctx) (f : VX) (n : Nat) (leaf : Nat → Node) (rest : FVal) : List Node :=
  (List.range n).map (fun e => if activeElem c f.msk (elemBits f.t) e then leaf e else ⟨rest, none⟩)
def sumInts (c : Ctx) (f : VX) (n : Nat) (val : Nat → Int) : Nat :=
  wrap (elemBits f.t) ((List.range n).foldl (fun z e => if activeElem c f.msk (elemBits f.t) e then z + val e else z) 0)
def opVsum (f : VX) : Op := fun i => do
  let b := elemBits f.t
  let n := widthOf f.w / b
  let r ← i.sources b n [f.va] []
  let x := rowBits r.2 0
  if isFloatV f.t then
    let t := treeSum (addF (fmtOf f.t) f.rm (ftzOf i.flush f.t)) (fmtOf f.t) 8 1 1 0
      (leavesOf i.ctx f n (fun e => ⟨fpIn i.flush f.t (elem b x e), none⟩) (.num false 0 0))
    r.1.reduced f (latTree 4 f) (fpOut 0 f.t 0 t.v).code (evKind t.ev 0) r.2
  else r.1.reduced f (latTree 4 f) (sumInts i.ctx f n (fun e => intOf f.t b (elem b x e))) 0 r.2
def opVdot (f : VX) : Op := fun i => do
  let b := elemBits f.t
  let n := widthOf f.w / b
  let r ← i.sources b n [f.va, f.vb] []
  let x := rowBits r.2 0
  let y := rowBits r.2 1
  if isFloatV f.t then
    let leaf : Nat → Node := fun e =>
      let p := fpIn i.flush f.t (elem b x e)
      let q := fpIn i.flush f.t (elem b y e)
      let v := mulV p q
      ⟨v, if v.isNan && !p.isNan && !q.isNan then some (e, 0, 1) else none⟩
    let t := treeSum (addF (fmtOf f.t) f.rm (ftzOf i.flush f.t)) (fmtOf f.t) 8 1 1 0 (leavesOf i.ctx f n leaf (.num false 0 0))
    r.1.reduced f (latTree 6 f) (fpOut 0 f.t 0 t.v).code (evKind t.ev 0) r.2
  else r.1.reduced f (latTree 6 f) (sumInts i.ctx f n (fun e => intOf f.t b (elem b x e) * intOf f.t b (elem b y e))) 0 r.2
/-- VMAXR: each node is rounded and notes its own event (22 R391); an inactive element enters as NaN, or as the minimum of its type. -/
def opVmaxr (f : VX) : Op := fun i => do
  let b := elemBits f.t
  let n := widthOf f.w / b
  let r ← i.sources b n [f.va] []
  let x := rowBits r.2 0
  if isFloatV f.t then
    let t := treeSum (fun x y => fpOut i.flush f.t f.rm (maxV x y)) (fmtOf f.t) 8 1 1 0
      (leavesOf i.ctx f n (fun e => ⟨fpIn i.flush f.t (elem b x e), none⟩) .nan)
    r.1.reduced f (latTree 4 f) (fpOut 0 f.t 0 t.v).code (evKind t.ev 0) r.2
  else
    let z := (List.range n).foldl (fun z e =>
      let v := intOf f.t b (elem b x e)
      if activeElem i.ctx f.msk b e && decide (z < v) then v else z) (intLo f.t b)
    r.1.reduced f (latTree 4 f) (wrap b z) 0 r.2

/-! ## Moves and permutations (R160 to R162) -/

def opVperm (f : VX) : Op :=  fun i => do
  let b := elemBits f.t
  let n := widthOf f.w / b
  let r ← i.sources b n [f.va, f.vb] []
  let x := rowBits r.2 0
  r.1.vectorOut f.vd 4 b (masked i.ctx f.msk f.z b n (elem b x) (fun e => ⟨elem b x (elem b (rowBits r.2 1) e % n), 0⟩)) r.2
/-- s(i) of VSHUF: rotate, reverse in groups, exchange. -/
def shufIndex (pat p n i : Nat) : Nat := match pat with | 0 => (i + p) % n | 1 => i ^^^ (2 ^ p - 1) | _ => i ^^^ p
def opVshuf (f : VI) : Op := fun i => do
  let b := elemBits f.t
  let n := widthOf f.w / b
  let r ← i.sources b n [f.va] []
  r.1.vectorOut f.vd 4 b ((List.range n).map (fun e => ⟨elem b (rowBits r.2 0) (shufIndex (f.imm / 4096) (f.imm % 4096) n e), 0⟩)) r.2
def opVbcast (f : VI) : Op := fun i => do
  let b := elemBits f.t
  let n := widthOf f.w / b
  let r ← i.sources b n [f.va] []
  r.1.vectorOut f.vd 2 b ((List.range n).map (fun _ => ⟨elem b (rowBits r.2 0) f.imm, 0⟩)) r.2
def opVsel (f : VX) : Op := fun i => do
  let b := elemBits f.t
  let n := widthOf f.w / b
  let r ← i.sources b n [f.va, f.vb] []
  r.1.vectorOut f.vd 2 b (masked i.ctx f.msk 0 b n (elem b (rowBits r.2 1)) (fun e => ⟨elem b (rowBits r.2 0) e, 0⟩)) r.2
/-- VMOV: VB is read only as the merge operand (R145, R162). -/
def opVmov (f : VX) : Op := fun i => do
  let b := elemBits f.t
  let n := widthOf f.w / b
  let r ← i.sources b n (if 16 ≤ f.msk && f.z = 0 then [f.va, f.vb] else [f.va]) []
  r.1.vectorOut f.vd 2 b (masked i.ctx f.msk f.z b n (elem b (rowBits r.2 1)) (fun e => ⟨elem b (rowBits r.2 0) e, 0⟩)) r.2

/-! ## Lane masks and QADV (R163, R164) -/

/-- The mask bits an operation of width w works on. -/
def maskIn (f : VM) (v : BitVec 128) : Nat := v.toNat % 2 ^ (widthOf f.w / 8)
def Iss.writeMask (i : Iss) (f : VM) (v : Nat) : Iss := i.add 2 (.mask f.ed (BitVec.ofNat 128 (v % 2 ^ (widthOf f.w / 8)))) none 0
/-- Element size of FN[1:0] in bits, and the elements whose lowest mask bit is set. -/
def maskElem (f : VM) : Nat := 8 * 2 ^ (f.fn % 4)
def maskHits (f : VM) (v : Nat) : List Nat :=
  (List.range (widthOf f.w / maskElem f)).filter (fun i => v.testBit (maskElem f * i / 8))
def opVmset (f : VM) : Op := fun i =>
  let a := i.s f.sd
  let n := widthOf f.w / maskElem f
  .ok (a.1.writeMask f (2 ^ (Nat.min a.2.toNat n * (maskElem f / 8)) - 1))
def opVmand (f : VM) : Op := fun i => .ok (i.writeMask f (maskIn f (readE i.ctx f.ea) &&& maskIn f (readE i.ctx f.eb)))
def opVmor (f : VM) : Op := fun i => .ok (i.writeMask f (maskIn f (readE i.ctx f.ea) ||| maskIn f (readE i.ctx f.eb)))
def opVmnot (f : VM) : Op := fun i => .ok (i.writeMask f (2 ^ (widthOf f.w / 8) - 1 - maskIn f (readE i.ctx f.ea)))
def opVmcnt (f : VM) : Op := fun i => .ok (i.writeS 2 f.sd (BitVec.ofNat 64 (maskHits f (readE i.ctx f.ea).toNat).length))
def opVmfirst (f : VM) : Op := fun i =>
  .ok (i.writeS 2 f.sd (BitVec.ofNat 64 ((maskHits f (readE i.ctx f.ea).toNat).headD (widthOf f.w / maskElem f))))
def opQadv (f : VQ) : Op := fun i => do
  let q := qcfgOf i.ctx f.qn
  if q.cls = 2 && decide (q.depth < f.cnt) then trapNow 0x06 f.qn
  else
    i.needRow f.qn f.cnt
    .ok (i.setCtx (advance i.ctx f.qn f.cnt))

/-! ## The instructions: each issues as a group of its own (05 R85) -/

/-- VADD. -/
def execVadd (g : Guard) (b : Bool) (f : VX) (s : State) : Host.Outcome State Fault Refusal :=
  .next (issueSyl (.vadd g b f) (opVadd f) s)
/-- VSUB. -/
def execVsub (g : Guard) (b : Bool) (f : VX) (s : State) : Host.Outcome State Fault Refusal :=
  .next (issueSyl (.vsub g b f) (opVsub f) s)
/-- VMUL. -/
def execVmul (g : Guard) (b : Bool) (f : VX) (s : State) : Host.Outcome State Fault Refusal :=
  .next (issueSyl (.vmul g b f) (opVmul f) s)
/-- VMIN. -/
def execVmin (g : Guard) (b : Bool) (f : VX) (s : State) : Host.Outcome State Fault Refusal :=
  .next (issueSyl (.vmin g b f) (opVmin f) s)
/-- VMAX. -/
def execVmax (g : Guard) (b : Bool) (f : VX) (s : State) : Host.Outcome State Fault Refusal :=
  .next (issueSyl (.vmax g b f) (opVmax f) s)
/-- VABS. -/
def execVabs (g : Guard) (b : Bool) (f : VX) (s : State) : Host.Outcome State Fault Refusal :=
  .next (issueSyl (.vabs g b f) (opVabs f) s)
/-- VNEG. -/
def execVneg (g : Guard) (b : Bool) (f : VX) (s : State) : Host.Outcome State Fault Refusal :=
  .next (issueSyl (.vneg g b f) (opVneg f) s)
/-- VAND. -/
def execVand (g : Guard) (b : Bool) (f : VX) (s : State) : Host.Outcome State Fault Refusal :=
  .next (issueSyl (.vand g b f) (opVand f) s)
/-- VOR. -/
def execVor (g : Guard) (b : Bool) (f : VX) (s : State) : Host.Outcome State Fault Refusal :=
  .next (issueSyl (.vor g b f) (opVor f) s)
/-- VXOR. -/
def execVxor (g : Guard) (b : Bool) (f : VX) (s : State) : Host.Outcome State Fault Refusal :=
  .next (issueSyl (.vxor g b f) (opVxor f) s)
/-- VSHL. -/
def execVshl (g : Guard) (b : Bool) (f : VX) (s : State) : Host.Outcome State Fault Refusal :=
  .next (issueSyl (.vshl g b f) (opVshl f) s)
/-- VSHR. -/
def execVshr (g : Guard) (b : Bool) (f : VX) (s : State) : Host.Outcome State Fault Refusal :=
  .next (issueSyl (.vshr g b f) (opVshr f) s)
/-- VSRA. -/
def execVsra (g : Guard) (b : Bool) (f : VX) (s : State) : Host.Outcome State Fault Refusal :=
  .next (issueSyl (.vsra g b f) (opVsra f) s)
/-- VRND. -/
def execVrnd (g : Guard) (b : Bool) (f : VX) (s : State) : Host.Outcome State Fault Refusal :=
  .next (issueSyl (.vrnd g b f) (opVrnd f) s)
/-- VSCL. -/
def execVscl (g : Guard) (b : Bool) (f : VX) (s : State) : Host.Outcome State Fault Refusal :=
  .next (issueSyl (.vscl g b f) (opVscl f) s)
/-- VCMUL. -/
def execVcmul (g : Guard) (b : Bool) (f : VX) (s : State) : Host.Outcome State Fault Refusal :=
  .next (issueSyl (.vcmul g b f) (opVcmul f) s)
/-- VCONJ. -/
def execVconj (g : Guard) (b : Bool) (f : VX) (s : State) : Host.Outcome State Fault Refusal :=
  .next (issueSyl (.vconj g b f) (opVconj f) s)
/-- VRCP. -/
def execVrcp (g : Guard) (f : VX) (s : State) : Host.Outcome State Fault Refusal :=
  .next (issueSyl (.vrcp g f) (opVrcp f) s)
/-- VRSQ. -/
def execVrsq (g : Guard) (f : VX) (s : State) : Host.Outcome State Fault Refusal :=
  .next (issueSyl (.vrsq g f) (opVrsq f) s)
/-- VEXP2. -/
def execVexp2 (g : Guard) (f : VX) (s : State) : Host.Outcome State Fault Refusal :=
  .next (issueSyl (.vexp2 g f) (opVexp2 f) s)
/-- VLOG2. -/
def execVlog2 (g : Guard) (f : VX) (s : State) : Host.Outcome State Fault Refusal :=
  .next (issueSyl (.vlog2 g f) (opVlog2 f) s)
/-- VCMP. -/
def execVcmp (g : Guard) (b : Bool) (f : VX) (s : State) : Host.Outcome State Fault Refusal :=
  .next (issueSyl (.vcmp g b f) (opVcmp f) s)
/-- VFMA. -/
def execVfma (g : Guard) (b : Bool) (f : VY) (s : State) : Host.Outcome State Fault Refusal :=
  .next (issueSyl (.vfma g b f) (opVfma f) s)
/-- VFMS. -/
def execVfms (g : Guard) (b : Bool) (f : VY) (s : State) : Host.Outcome State Fault Refusal :=
  .next (issueSyl (.vfms g b f) (opVfms f) s)
/-- VFNMA. -/
def execVfnma (g : Guard) (b : Bool) (f : VY) (s : State) : Host.Outcome State Fault Refusal :=
  .next (issueSyl (.vfnma g b f) (opVfnma f) s)
/-- VCMA. -/
def execVcma (g : Guard) (b : Bool) (f : VY) (s : State) : Host.Outcome State Fault Refusal :=
  .next (issueSyl (.vcma g b f) (opVcma f) s)
/-- VIMAD. -/
def execVimad (g : Guard) (b : Bool) (f : VY) (s : State) : Host.Outcome State Fault Refusal :=
  .next (issueSyl (.vimad g b f) (opVimad f) s)
/-- VCVT. -/
def execVcvt (g : Guard) (b : Bool) (f : VC) (s : State) : Host.Outcome State Fault Refusal :=
  .next (issueSyl (.vcvt g b f) (opVcvt f) s)
/-- VSAT. -/
def execVsat (g : Guard) (b : Bool) (f : VC) (s : State) : Host.Outcome State Fault Refusal :=
  .next (issueSyl (.vsat g b f) (opVsat f) s)
/-- VPACK. -/
def execVpack (g : Guard) (f : VC) (s : State) : Host.Outcome State Fault Refusal :=
  .next (issueSyl (.vpack g f) (opVpack f) s)
/-- VUNPK. -/
def execVunpk (g : Guard) (f : VC) (s : State) : Host.Outcome State Fault Refusal :=
  .next (issueSyl (.vunpk g f) (opVunpk f) s)
/-- VSUM. -/
def execVsum (g : Guard) (b : Bool) (f : VX) (s : State) : Host.Outcome State Fault Refusal :=
  .next (issueSyl (.vsum g b f) (opVsum f) s)
/-- VDOT. -/
def execVdot (g : Guard) (b : Bool) (f : VX) (s : State) : Host.Outcome State Fault Refusal :=
  .next (issueSyl (.vdot g b f) (opVdot f) s)
/-- VMAXR. -/
def execVmaxr (g : Guard) (b : Bool) (f : VX) (s : State) : Host.Outcome State Fault Refusal :=
  .next (issueSyl (.vmaxr g b f) (opVmaxr f) s)
/-- VPERM. -/
def execVperm (g : Guard) (f : VX) (s : State) : Host.Outcome State Fault Refusal :=
  .next (issueSyl (.vperm g f) (opVperm f) s)
/-- VSHUF. -/
def execVshuf (g : Guard) (f : VI) (s : State) : Host.Outcome State Fault Refusal :=
  .next (issueSyl (.vshuf g f) (opVshuf f) s)
/-- VBCAST. -/
def execVbcast (g : Guard) (b : Bool) (f : VI) (s : State) : Host.Outcome State Fault Refusal :=
  .next (issueSyl (.vbcast g b f) (opVbcast f) s)
/-- VSEL. -/
def execVsel (g : Guard) (b : Bool) (f : VX) (s : State) : Host.Outcome State Fault Refusal :=
  .next (issueSyl (.vsel g b f) (opVsel f) s)
/-- VMOV. -/
def execVmov (g : Guard) (b : Bool) (f : VX) (s : State) : Host.Outcome State Fault Refusal :=
  .next (issueSyl (.vmov g b f) (opVmov f) s)
/-- VMSET. -/
def execVmset (g : Guard) (b : Bool) (f : VM) (s : State) : Host.Outcome State Fault Refusal :=
  .next (issueSyl (.vmset g b f) (opVmset f) s)
/-- VMAND. -/
def execVmand (g : Guard) (b : Bool) (f : VM) (s : State) : Host.Outcome State Fault Refusal :=
  .next (issueSyl (.vmand g b f) (opVmand f) s)
/-- VMOR. -/
def execVmor (g : Guard) (b : Bool) (f : VM) (s : State) : Host.Outcome State Fault Refusal :=
  .next (issueSyl (.vmor g b f) (opVmor f) s)
/-- VMNOT. -/
def execVmnot (g : Guard) (b : Bool) (f : VM) (s : State) : Host.Outcome State Fault Refusal :=
  .next (issueSyl (.vmnot g b f) (opVmnot f) s)
/-- VMCNT. -/
def execVmcnt (g : Guard) (b : Bool) (f : VM) (s : State) : Host.Outcome State Fault Refusal :=
  .next (issueSyl (.vmcnt g b f) (opVmcnt f) s)
/-- VMFIRST. -/
def execVmfirst (g : Guard) (b : Bool) (f : VM) (s : State) : Host.Outcome State Fault Refusal :=
  .next (issueSyl (.vmfirst g b f) (opVmfirst f) s)
/-- QADV. -/
def execQadv (g : Guard) (b : Bool) (f : VQ) (s : State) : Host.Outcome State Fault Refusal :=
  .next (issueSyl (.qadv g b f) (opQadv f) s)

end Sys2Proof.Machine
end

