-- ==== Sys2Proof/Machine/EngineEv.lean ====
section
/-! DEFINITION. Machine/EngineEv.lean: the engines at work (09 R181 to R189, 12 R254 to R257): guards at the head of a queue, beats,
remote runs, messages, collectives, ring slots, stream fetches, and completion with its semaphore. -/

namespace Sys2Proof.Machine

/-! ## Heads and guards (R182, 23 R399) -/

/-- The guard of a command is not resolved. -/
def guardOpen (m : Cmd) : Bool := match m.guard with | some (d, _, _) => d != 0 | none => false
/-- Settle a head whose guard is known: false discards it, a cause put off stops the engine. -/
def resolveHead (s : State) (k x e : Nat) : State :=
  match (ctxOf s k x).eng.queue e with
  | [] => s
  | m :: rest =>
    if guardOpen m then (if m.headAt.isNone then setHead s k x e { m with headAt := some s.now } else s)
    else if m.guard.isSome then setQueue s k x e rest
    else match m.fault with
      | some c => stopEngine s k x e m c
      | none => s
/-- A guard not written 65,536 cycles after its command reached the head: the context's commands in the engine go, and 0x2A is taken. -/
def neverWritten (s : State) (k x e : Nat) : State :=
  match (ctxOf s k x).eng.queue e with
  | [] => s
  | m :: _ => if guardOpen m && m.headAt.any (fun h => h + 65536 ≤ s.now) then stopEngine s k x e m 0x2A else s
/-- An UNSUB or DRAIN whose guard was pending, at the head of those that wait: false discards it, true lets it act; one whose guard no one
writes for 65,536 cycles goes with the later ones, and 0x2A is taken (23 R399). -/
def ringStep (s : State) (k x : Nat) : State :=
  let c := ctxOf s k x
  let put : List Cmd → State := fun q => setCtx s k x { c with eng := { c.eng with ring := q } }
  match c.eng.ring with
  | [] => s
  | m :: rest =>
    if guardOpen m then
      (match m.headAt with
      | none => put ({ m with headAt := some s.now } :: rest)
      | some h =>
        if h + 65536 ≤ s.now then
          let t := put []
          let e := match m.kind with | .ringOp _ b a _ => ((subOn s k x b a).map (fun p => if p.2.store then 3 else 2)).getD 2 | _ => 2
          setCtx t k x (raiseA (ctxOf t k x) 0x2A (engInfo m.sem e))
        else s)
    else if m.guard.isSome then put rest
    else match m.kind with
      | .ringOp drain b a h => ringAct (put rest) k x m.sem drain b a h
      | _ => put rest
/-- The head may work. -/
def headReady (s : State) (k x : Nat) (m : Cmd) : Bool := m.guard.isNone && m.fault.isNone && (m.upc ≠ 0 || cmdOrdered s k x m)

/-! ## Remote runs of CPYR (12 R254) -/

/-- The checks of a run's global endpoint against the command's capability (R196, R248). -/
def endpointRun (m : Cmd) (a : Int) (n right : Nat) : Except Halt Unit :=
  let c := m.cap
  if !c.tag then stopNow 0x10
  else if !c.grants (cmdRights m right) then stopNow 0x12
  else if a < (c.lower : Int) || (c.upper : Int) < a + n then stopNow 0x11
  else if 67108856 ≤ c.index then stopNow 0x16
  else .ok ()
/-- The global side of a remote run: checks at the source. -/
def remoteRun (s : State) (m : Cmd) (a : Int) (n right : Nat) : Except Halt Unit := do
  let c := m.cap
  endpointRun m a n right
  if Config.remoteBlocks c.obj s.now ≤ (a.toNat + n - 1) / 65536 then stopNow 0x13
  else .ok ()
/-- Take the lowest free tag for a request of an engine, with the number of its command and without a flit yet. -/
def holdTag (s : State) (k x e peer kind cls span seq : Nat) : Option (State × Nat) :=
  let d := dieOfCore k
  (tagFor (fabOf s d) (engineAsks k x e)).map (fun ix =>
    let t := tagAt' (fabOf s d) ix
    let inc := (nextInc t).getD 0
    let f := fabOf s d
    let s := setFab s d { f with waiting := f.waiting.filter (fun p => p.1 != engineAsks k x e) }
    (setTag s d ix { t with inc := inc, busy := true, peer := peer, core := k, ctx := x, kind := kind, cls := cls, span := span, seq := seq,
                                 mask := 0, eng := some e, sent := none }, tagName d ix inc))
/-- Queue one flit for one receive slot; nothing where the context has none. -/
def queueFlit (s : State) (k x peer : Nat) (f : Flit) : Option State :=
  let s := drawUpTo s k x peer 1 1
  if fscOf (ctxOf s k x) peer = 0 then none
  else
    let s := spendSlots s k x peer 1
    let d := dieOfCore k
    let b := fabOf s d
    some (setFab s d { b with sendQ := b.sendQ ++ [f] })
/-- A flit of a command that waits for a receive slot: it counts once for event source 3 (02 R37). -/
def waitFlit (s : State) (k x e peer : Nat) (m : Cmd) : State :=
  let s := drawUpTo s k x peer 1 1
  if m.short = m.sent + 1 then s else countEvent (setHead s k x e { m with short := m.sent + 1 }) (dieOfCore k) 3 1
/-- The flits of a remote operation under a tag's name. -/
def namedFlits (s : State) (peer vc kind cls name aux : Nat) (bs : List Byte) : List Flit := mkFlits s peer vc kind cls (name % 4096) (name / 4096) aux bs
/-- One step of a remote run: a get asks and writes what comes back; a put reads, sends flit by flit, and waits for its report. -/
def remoteStep (s : State) (k x : Nat) (m : Cmd) : Except Halt (State × Cmd) := do
  let d := m.desc
  let get := m.kind == .cpyrGet
  let a := (if get then d.src m.run else d.dst m.run) + m.off
  let peer := m.cap.home
  match m.tag with
  | none =>
    if m.sent = 0 then
      remoteRun s m a d.bytes (if get then rLOAD else rSTORE)
      if peerDown s (dieOfCore k) peer then .error (.trap 0x2E (peer + 64 * (if get then 0 else 2)))
      else
        let r ← if get then .ok (s, ([] : Data)) else readSide s k x d.ssp d.ssl m.cap (d.src m.run) d.bytes 0 0
        if r.2.any (·.2) then stopNow 0x19
        else
          match holdTag r.1 k x 0 peer (if get then 0 else 2) m.cls (spanOfBytes m.cap.obj a.toNat d.bytes) m.seq with
          | none => .error (.stall (fun s => waitTag s (dieOfCore k) (engineAsks k x 0)))
          | some t => .ok (t.1, { m with tag := some t.2, buffer := if get then m.buffer else r.2 })
    else if get then
      -- the data has come
      if d.dsp = 8 then .ok (s, nextRun m)
      else
        let ps ← checkSide s k x d.dsp d.dsl m.cap (d.dst m.run) d.bytes 0 0
        .ok (writeSide s k (.command x m.cls m.iss) d.dsp d.dsl ps (d.dst m.run) 0 (m.buffer.take d.bytes), nextRun { m with buffer := [] })
    else .ok (s, nextRun { m with buffer := [] })
  | some name =>
    let bs := addrWord m.cap.index a.toNat 15 ++ (if get then [] else m.buffer.map (·.1))
    let fs := namedFlits s peer 0 (if get then 0 else 2) m.cls name (if get then d.bytes else 0) bs
    match fs[m.sent]? with
    | none => .error (.stall id)
    | some f =>
      match queueFlit s k x peer f with
      | none => .error (.stall (fun s => waitFlit s k x 0 peer m))
      | some t => .ok (t, { m with sent := m.sent + 1 })

/-! ## Deferral in a world (17 R340) -/

/-- Pieces of the byte stream of a put: position in the stream, destination offset, length. -/
def putPieces (m : Cmd) : List (Nat × Nat × Nat) :=
  (List.range m.desc.runs).flatMap (fun n =>
    (pieces 4096 (n * m.desc.bytes) m.desc.bytes 20).map (fun p => (p.1, (m.desc.dst n + m.off).toNat + (p.1 - n * m.desc.bytes), p.2)))
/-- The entries of a captured put. -/
def putEffects (k x : Nat) (m : Cmd) : List Effect :=
  (List.range ((m.desc.runs * m.desc.bytes + 4095) / 4096)).map (fun i =>
    { kind := 20, core := k, ctx := x, cls := m.cls, mod := m.cap.home, obj := m.cap.index, off := 0, size := 15, aux := 0,
      runs := ((putPieces m).filter (fun p => p.1 / 4096 == i)).map (fun p => (p.2.1, p.2.2)),
      data := ((m.buffer.drop (4096 * i)).take 4096).map (·.1), seq := 0 })
/-- One run of a put is captured, its endpoint checked; after the last the entries are made. -/
def captureRun (s : State) (k x : Nat) (m : Cmd) : Except Halt (State × Cmd) := do
  if m.cap.home = Config.moduleNumber then endpointRun m (m.desc.dst m.run + m.off) m.desc.bytes rSTORE
  else remoteRun s m (m.desc.dst m.run + m.off) m.desc.bytes rSTORE
  let r ← readSide s k x m.desc.ssp m.desc.ssl m.cap (m.desc.src m.run) m.desc.bytes 0 0
  if r.2.any (·.2) then stopNow 0x19
  else
    let m := nextRun { m with buffer := m.buffer ++ r.2 }
    .ok (if m.upc = 2 then addEffects r.1 (ctxOf r.1 k x).world (putEffects k x m) else r.1, m)

/-! ## Beats -/

/-- The endpoint checks of a run (10 R196, 24 R417), in the order of its transfer. -/
def checkRun (s : State) (k x : Nat) (m : Cmd) (src dst : Int) : Except Halt Unit := do
  let d := m.desc
  let w := cmdWorld s k x m
  let who := x + (match m.kind with | .sfe _ _ _ _ _ => 16 | _ => 8)
  let _ ← if d.dsp = 8 then .ok [] else checkSide s k who d.dsp d.dsl m.cap dst m.dstBytes w (cmdRights m rSTORE)
  checkFrom s k who d.ssp d.ssl m.cap src d.bytes w (cmdRights m rLOAD)
/-- The next beat of a run (R183): its global side takes a slot or crosses the bridges, each staging slice of its endpoints queues it; within
the core it takes a cycle. -/
def runBeat (s : State) (k x : Nat) (m : Cmd) : Except Halt (State × Cmd) := do
  let d := m.desc
  let src := m.at_ d.ssp (d.src m.run)
  let dst := m.at_ d.dsp (d.dst m.run)
  if m.word = 0 then checkRun s k x m src dst
  let n := m.beatBytes src dst
  let w := cmdWorld s k x m
  let global := d.ssp = 0 || d.dsp = 0
  let side := if d.ssp = 0 then src else dst
  let right := cmdRights m (if d.ssp = 0 then rLOAD else rSTORE)
  let ps ← if global then engSpan s k (x + 8) m.cap (side + 4 * m.word) n right w (decide (d.dsp = 0)) else .ok []
  match (if global then globalBeat s k m.seq ps (decide (d.dsp = 0)) else some (s, s.now + 1)) with
  | none => .error (.stall id)
  | some b =>
    let t := if d.ssp = 7 then sliceBeat b.1 k m.seq d.ssl else b.1
    let t := if d.dsp = 7 then sliceBeat t k m.seq d.dsl else t
    let m := { m with upc := 1, fin := some (Nat.max (m.fin.getD 0) b.2) }
    .ok (t, if 4 * m.word + n < d.bytes then m.goto (m.word + n / 4) m.run else { m with sent := 1 })
/-- A softmax forms its row's maximum and then its sum (R184) once the row has come. -/
def isSoftmax (m : Cmd) : Bool := match m.kind with | .sfe 6 _ _ _ _ => true | _ => false
/-- A command that moves its runs itself, in beats. -/
def ownMover (s : State) (k x : Nat) (m : Cmd) : Bool :=
  match m.kind with
  | .cpy | .sfe _ _ _ _ _ => true
  | .cpyrGet => m.cap.home == Config.moduleNumber
  | .cpyrPut => m.cap.home == Config.moduleNumber && (ctxOf s k x).world == 0
  | _ => false
/-- What the copy engine or the SFE does at a context's head beside its turn: rows still to push, then the effect of a run whose beats have
ended. -/
def settleRun (s : State) (k x : Nat) (m : Cmd) : Except Halt (State × Cmd) := do
  let d := m.desc
  if d.dsp = 8 && 128 ≤ m.buffer.length then
    let t ← pushBytes s k x (d.dbase % 64) m.buffer
    .ok (t, { m with buffer := m.buffer.drop 128 })
  else if !ownMover s k x m || m.upc = 2 || m.sent = 0 || decide (s.now < m.fin.getD 0) || beatsOpen s k m.seq then .error (.stall id)
  else if isSoftmax m && decide (m.upc < 4) then .ok (s, { m with upc := if m.upc = 3 then 4 else 3 })
  else
    let r ← doRun (clearBeats s k m.seq) k x m
    .ok (r.1, nextRun r.2)
/-- The turn of a context's head in the copy engine or the SFE: a beat of 256 bytes. -/
def moveStep (s : State) (k x : Nat) (m : Cmd) : Except Halt (State × Cmd) := do
  if m.upc = 2 || (m.desc.dsp = 8 && decide (128 ≤ m.buffer.length)) then .error (.stall id)
  else if m.kind == .cpyrPut && (ctxOf s k x).world ≠ 0 then captureRun s k x { m with upc := 1 }
  else if (m.kind == .cpyrGet || m.kind == .cpyrPut) && m.cap.home ≠ Config.moduleNumber then remoteStep s k x { m with upc := 1 }
  else if m.sent ≠ 0 then .error (.stall id)
  else runBeat s k x m

/-- Messages (R255): in a world the send is deferred; otherwise its flits go out on VC4 one slot each, or over the bridges at its own
module, and its report ends it. -/
def msgAux (core hnd : Nat) : Nat := core + 1024 * hnd
def sendStep (s : State) (k x : Nat) (m : Cmd) (peer core hnd : Nat) (payload : List Byte) : Except Halt (State × Cmd) :=
  let w := (ctxOf s k x).world
  if w ≠ 0 then
    let e : Effect := { kind := 9, core := k, ctx := x, cls := m.cls, mod := peer, obj := core, off := hnd, size := 0, aux := 0, runs := [], data := payload, seq := 0 }
    .ok (addEffects s w [e], { m with upc := 2 })
  else
    match m.tag with
    | none =>
      if m.sent ≠ 0 then .ok (s, { m with upc := 2 })
      else if peer ≠ Config.moduleNumber && peerDown s (dieOfCore k) peer then .error (.trap 0x2E (peer + 64 * 9))
      else
        match holdTag s k x 4 peer 9 m.cls 0 m.seq with
        | none => .error (.stall (fun s => waitTag s (dieOfCore k) (engineAsks k x 4)))
        | some t => .ok (t.1, { m with upc := 1, tag := some t.2 })
    | some name =>
      let fs := namedFlits s peer 4 9 m.cls name (msgAux core hnd) payload
      if peer = Config.moduleNumber then
        if m.sent ≠ 0 then .error (.stall id)
        else .ok (ownMessage s (dieOfCore k) core hnd name payload, { m with sent := fs.length })
      else
        match fs[m.sent]? with
        | none => .error (.stall id)
        | some f =>
          match queueFlit s k x peer f with
          | none => .error (.stall (fun s => waitFlit s k x 4 peer m))
          | some t => .ok (t, { m with sent := m.sent + 1 })
/-- A checkpoint mark reaches the checkpoint engine once every earlier access of the context is performed (R257). -/
def markStep (s : State) (k x : Nat) (m : Cmd) (seq : BitVec 64) : Except Halt (State × Cmd) :=
  if m.upc ≠ 0 || blockedReq (openReqs s k) ⟨x, m.cls, m.seq, 8, [], true⟩ true then .error (.stall id)
  else .ok ({ s with ck := { s.ck with marks := s.ck.marks ++ [(k, x, m.sem, seq)] } }, { m with upc := 1 })
/-- A gate record enters the gate queue with its row's place (16 R316, R317), or the effect buffer of a world. -/
def gateRecord (rec : List Byte) (off : Nat) : List Byte := rec.take 8 ++ leBytes 8 (off / 64) ++ rec.drop 16
def gateCount (ex : Experts) : Nat := (ex.gate.filter (fun g => g.1 != 2)).length
def pushGate (s : State) (d kind : Nat) (rec : List Byte) : State :=
  let die := dieOf s d
  setDie s d { die with ex := { die.ex with gate := die.ex.gate ++ [(kind, rec)] } }
def gateStep (s : State) (k x : Nat) (m : Cmd) (rec : List Byte) (off : Nat) : Except Halt (State × Cmd) :=
  let w := (ctxOf s k x).world
  let d := dieOfCore k
  if w ≠ 0 then
    let e : Effect := { kind := 16, core := k, ctx := x, cls := m.cls, mod := 0, obj := 0, off := off, size := 0, aux := 0, runs := [], data := rec, seq := 0 }
    .ok (addEffects s w [e], { m with upc := 2 })
  else if 1024 ≤ gateCount (dieOf s d).ex then .error (.stall id)
  else .ok (pushGate s d 1 (gateRecord rec off), { m with upc := 2 })

/-- Beside its turn: the guard of a context's head in engine `e`, and what its run settles. -/
def settleHead (s : State) (k x e : Nat) : State :=
  let s := resolveHead s k x e
  match (ctxOf s k x).eng.queue e with
  | m :: _ => if headReady s k x m && decide (e < 2) then settleEngine s k x e m (settleRun s k x m) else s
  | [] => s
/-- The turn of engine `e` for the head of a context. -/
def engineTurn (s : State) (k x e : Nat) : State :=
  match (ctxOf s k x).eng.queue e with
  | [] => s
  | m :: _ =>
    if !headReady s k x m then s
    else
      match m.kind with
      | .send p c h bs => settleEngine s k x e m (if m.upc = 2 then .error (.stall id) else sendStep s k x m p c h bs)
      | .ckmark q => settleEngine s k x e m (markStep s k x m q)
      | .gqpush r o => settleEngine s k x e m (if m.upc = 2 then .error (.stall id) else gateStep s k x m r o)
      | .coll w =>
        if m.upc ≠ 0 then s
        else
          (match (List.range 64).find? (fun j => field (w.getD 1 0) j 1 = 1 && peerDown s (dieOfCore k) j) with
          | some j => stopWith s k x e 0x2E (j + 64 * 8)
          | none => setHead s k x e { m with upc := 1 })
      | _ => settleEngine s k x e m (moveStep s k x m)
/-- What engine `e` does for a context in a cycle that gives it the turn. -/
def engineStep (s : State) (k x e : Nat) : State := engineTurn (settleHead s k x e) k x e
/-- The turn has moved the head on: its cursor, its requests, or its place in the queue. -/
def turnUsed (s t : State) (k x e : Nat) : Bool :=
  let a := (ctxOf s k x).eng.queue e
  let b := (ctxOf t k x).eng.queue e
  decide (a.length ≠ b.length) || (match a, b with | m :: _, n :: _ => m.idx != n.idx || m.sent != n.sent || m.upc != n.upc || m.tag != n.tag | _, _ => false)
/-- Engine `e` serves the contexts in turn from the one after the last it served (R183): the first whose head can use the turn has it. -/
def serveTurn (s : State) (k e : Nat) (xs : List Nat) : State :=
  match xs with
  | [] => s
  | x :: rest =>
    let t := engineTurn s k x e
    if turnUsed s t k x e then
      let c := coreOf t k
      setCore t k { c with rr := mapSet c.rr 0 e (x + 1) }
    else serveTurn t k e rest
/-- A command whose writes are performed completes: its entry goes and its semaphore counts (R183). -/
def completeEngine (s : State) (k x e : Nat) : State :=
  match (ctxOf s k x).eng.queue e with
  | [] => s
  | m :: rest =>
    if m.upc ≠ 2 || 128 ≤ m.buffer.length && m.desc.dsp = 8 then s
    else
      let deferred := (ctxOf s k x).world ≠ 0 && (match m.kind with | .cpyrPut => true | .send _ _ _ _ => true | .gqpush _ _ => true | _ => false)
      creditSem (setQueue s k x e rest) k x m.sem (if deferred then 0 else match m.kind with | .send _ _ _ _ => 5 | _ => m.desc.scope)

/-! ## Collectives (12 R256) -/

/-- One node of a reduction: RNE with DAZ and FTZ off; integers wrap. -/
def redNode (ty red : Nat) (a b : Nat) : Nat :=
  let f := fmtOf ty
  match red with
  | 0 => if ty < 4 then (addF f 0 false (decodeF f false a) (decodeF f false b)).code else a + b
  | 1 => if ty < 4 then (roundF f 0 false false none (maxV (decodeF f false a) (decodeF f false b))).code
         else if intOf ty (elemBits ty) a < intOf ty (elemBits ty) b then b else a
  | _ => if ty < 4 then (roundF f 0 false false none (minV (decodeF f false a) (decodeF f false b))).code
         else if intOf ty (elemBits ty) b < intOf ty (elemBits ty) a then b else a
/-- What an absent module enters. -/
def redPad (ty red : Nat) : Nat :=
  match red with
  | 0 => 0
  | 1 => if ty < 4 then (fmtOf ty).nanCode else wrap (elemBits ty) (intLo ty (elemBits ty))
  | _ => if ty < 4 then (fmtOf ty).nanCode else wrap (elemBits ty) (intHi ty (elemBits ty))
/-- The pairwise tree over the 64 module positions. -/
def redTree (ty red fuel : Nat) (vs : List Nat) : Nat :=
  match fuel with
  | 0 => vs.headD 0
  | fuel + 1 =>
    match vs with
    | [v] => v
    | _ => redTree ty red fuel ((List.range (vs.length / 2)).map (fun i => redNode ty red (vs.getD (2 * i) 0) (vs.getD (2 * i + 1) 0) % 2 ^ elemBits ty))
/-- The result at the member of rank r, from every member's source bytes by module. -/
def collResult (w : List Nat) (r : Nat) (src : Nat → List Byte) : List Byte :=
  let a := w.getD 0 0
  let op := field a 0 4
  let ty := field a 4 4
  let red := field a 8 2
  let n := field (w.getD 4 0) 0 32
  let eb := elemBits ty / 8
  let mem := w.getD 1 0
  let ms := (List.range 64).filter (fun m => field mem m 1 = 1)
  let el : Nat → Nat → Nat := fun m i => leVal (((src m).drop (eb * i)).take eb)
  let sum : Nat → Nat := fun i => redTree ty red 7 ((List.range 64).map (fun m => if field mem m 1 = 1 then el m i else redPad ty red))
  match op with
  | 0 => (List.range n).flatMap (fun i => leBytes eb (sum i))
  | 1 => (List.range n).flatMap (fun i => leBytes eb (sum (r * n + i)))
  | 2 => ms.flatMap (fun m => ((src m).take (eb * n)))
  | 3 => (src (field a 10 6)).take (eb * n)
  | 4 => ms.flatMap (fun m => ((src m).drop (eb * r * n)).take (eb * n))
  | _ => []
/-- What members' commands must agree in (R256): OP, TYPE, RED, ROOT, MEMBERS, COUNT and CID. -/
def collKey (w : List Nat) : List Nat := [w.getD 0 0 % 65536, w.getD 1 0, w.getD 4 0, w.getD 5 0]
/-- Source and destination lengths in chunks of COUNT elements. -/
def collChunks (op members : Nat) : Nat × Nat := match op with | 0 => (1, 1) | 1 => (members, 1) | 2 => (1, members) | 3 => (1, 1) | 4 => (members, members) | _ => (0, 0)
/-- A barrier moves no data, but its capability is checked as the others' (R256). -/
def collCap (m : Cmd) : Except Halt Unit :=
  if !m.cap.tag then stopNow 0x10
  else if !m.cap.grants (rLOAD ||| rSTORE ||| rENGINE) then stopNow 0x12
  else if m.cap.home ≠ Config.moduleNumber then stopNow 0x13
  else .ok ()
/-- A collective ends at this member: its own source is read, the others' have come, and the result is written; members that do not agree
give 0x33. What comes from a member is its 64-byte descriptor and then its source (log 88). -/
def collDone (s : State) (k x : Nat) (sources : List (Nat × List Byte)) : State :=
  match (ctxOf s k x).eng.coll with
  | [] => s
  | m :: rest =>
    match m.kind with
    | .coll w =>
      if m.upc ≠ 1 then s
      else
        let mem := w.getD 1 0
        let me := Config.moduleNumber
        let ms := (List.range 64).filter (fun j => field mem j 1 = 1)
        let rank := (ms.filter (fun j => j < me)).length
        let eb := elemBits (field (w.getD 0 0) 4 4) / 8
        let ch := collChunks (field (w.getD 0 0) 0 4) ms.length
        let n := eb * field (w.getD 4 0) 0 32
        let need := ch.1 * n
        if ms.any (fun j => j != me && !sources.any (fun p => p.1 == j && decide (need + 64 ≤ p.2.length) && collKey (words8 (p.2.take 64)) == collKey w))
            || sources.any (fun p => field mem p.1 1 = 0) then
          stopEngine s k x 5 m 0x33
        else
          let rights := rLOAD ||| rSTORE ||| rENGINE
          let r : Except Halt State := do
            collCap m
            let src ← if need = 0 then .ok (s, ([] : Data)) else readSide s k (x + 48) 0 0 m.cap (w.getD 2 0 : Nat) need 0 rights
            let ps ← if ch.2 * n = 0 then .ok [] else checkSide src.1 k (x + 48) 0 0 m.cap (w.getD 3 0 : Nat) (ch.2 * n) 0 rights
            if src.2.any (·.2) then stopNow 0x19
            else
              let out := collResult w rank (fun j => if j = me then src.2.map (·.1) else ((sources.find? (fun p => p.1 == j)).map (·.2.drop 64)).getD [])
              .ok (writeSide src.1 k (.command x m.cls m.iss) 0 0 ps (w.getD 3 0 : Nat) 0 (out.map (fun b => (b, false))))
          (match r with
          | .ok t => creditSem (setQueue t k x 5 rest) k x m.sem 5
          | .error (.stall f) => f s
          | .error (.trap c _) => stopEngine s k x 5 m c
          | .error _ => s)
    | _ => s

/-! ## Subscriptions (R187 to R189) -/

/-- The memory-side pieces of stream bytes [p, p + n) of a walk. -/
def streamPieces (d : Desc) (at_ : Nat → Int) (p n : Nat) : List (Int × Nat) :=
  (List.range ((p + n - 1) / d.bytes - p / d.bytes + 1)).map (fun i =>
    let r := p / d.bytes + i
    let lo := Nat.max p (r * d.bytes)
    let hi := Nat.min (p + n) ((r + 1) * d.bytes)
    (at_ r + ((lo - r * d.bytes : Nat) : Int), hi - lo))
def subTotal (u : Sub) : Nat := u.cmd.desc.runs * u.cmd.desc.bytes
/-- A subscription's place in its table is freed. -/
def dropSub (s : State) (k x n : Nat) : State := setSubs s k x ((ctxOf s k x).eng.subs.eraseIdx n)
/-- A loader slot whose data has come is written and published (R187). -/
def publishSlot (s : State) (k x n : Nat) (u : Sub) : State :=
  let h := hdrAt s k u.buf u.hdr
  let len := Nat.min h.slotBytes (subTotal u - u.moved)
  let w := (ctxOf s k x).world
  let r : Except Halt State := do
    let d ← (streamPieces u.cmd.desc u.cmd.desc.src u.moved len).foldl (fun (acc : Except Halt (State × Data)) p => do
      let a ← acc
      let b ← readSide a.1 k (x + 24) 0 0 u.cmd.cap (p.1 + u.cmd.off) p.2 w (rLOAD ||| rENGINE)
      .ok (b.1, a.2 ++ b.2)) (.ok (s, []))
    engBuf d.1 k u.buf (h.slotAt h.head : Nat) h.slotBytes
    let s := writeSide d.1 k (.command x u.cmd.cls u.cmd.iss) (if u.buf = 1 then 2 else 5) 0 [] (h.slotAt h.head : Nat) 0 (d.2 ++ List.replicate (h.slotBytes - len) (0#8, false))
    .ok (moveRing s k .other u.buf u.hdr 1 0 (-1))
  match r with
  | .ok t => setSub t k x n { u with moved := u.moved + len, cmd := { u.cmd with fin := none }, quiesced := false }
  | .error (.stall f) => f s
  | .error (.trap c info) => stopSub (logOutside s c info) k x n u c
  | .error _ => s
/-- A storer slot's bytes are written along the walk, and the slot is freed (R187). -/
def writeSlot (s : State) (k x n : Nat) (u : Sub) : State :=
  let h := hdrAt s k u.buf u.hdr
  let len := Nat.min h.slotBytes (subTotal u - u.moved)
  let w := (ctxOf s k x).world
  let rights := rSTORE ||| rENGINE
  let r : Except Halt State := do
    let d ← readSide s k x (if u.buf = 1 then 2 else 5) 0 u.cmd.cap (h.slotAt h.tail : Nat) len w 0
    let ps := streamPieces u.cmd.desc u.cmd.desc.dst u.moved len
    let t ← ps.foldl (fun (acc : Except Halt (State × Data)) p => do
      let a ← acc
      let q ← checkSide a.1 k (x + 32) 0 0 u.cmd.cap (p.1 + u.cmd.off) p.2 w rights
      .ok (writeSide a.1 k (.command x u.cmd.cls u.cmd.iss) 0 0 q (p.1 + u.cmd.off) w (a.2.take p.2), a.2.drop p.2)) (.ok d)
    .ok (moveRing t.1 k .other u.buf u.hdr 0 1 1)
  match r with
  | .ok t => setSub t k x n { u with moved := u.moved + len, cmd := { u.cmd with fin := none }, quiesced := false }
  | .error (.stall f) => f s
  | .error (.trap c info) => stopSub (logOutside s c info) k x n u c
  | .error _ => s
/-- The spans of device memory that a ring slot's bytes lie in, each within 256 aligned bytes: a beat each (10 R207). -/
def slotSpans (u : Sub) (n : Nat) : List (Int × Nat) :=
  (streamPieces u.cmd.desc (if u.store then u.cmd.desc.dst else u.cmd.desc.src) u.moved (Nat.min n (subTotal u - u.moved))).flatMap (fun (p : Int × Nat) =>
    (pieces 256 (p.1 + (u.cmd.off : Int)).toNat p.2 (p.2 / 256 + 2)).map (fun q => ((q.1 : Int), q.2)))
/-- One beat of a ring slot of n bytes: near the core it takes an owned slot that is unbound as its cycle comes (10 R208); the last settles
when the transfer ends. -/
def slotBeat (s : State) (k x i : Nat) (u : Sub) (n : Nat) : State :=
  let spans := slotSpans u n
  match spans[u.cmd.word]? with
  | none => setSub s k x i { u with cmd := { u.cmd with idx := List.replicate 6 0, fin := some s.now } }
  | some p =>
    match engSpan s k (x + (if u.store then 32 else 24)) u.cmd.cap p.1 p.2 ((if u.store then rSTORE else rLOAD) ||| rENGINE) (ctxOf s k x).world u.store with
    | .error (.stall f) => f s
    | .error (.trap c info) => stopSub (logOutside s c info) k x i u c
    | .error _ => s
    | .ok ps =>
      match globalBeat s k u.cmd.seq ps u.store with
      | none => s
      | some b =>
        let f := Nat.max u.cmd.sent b.2
        if u.cmd.word + 1 < spans.length then
          setSub b.1 k x i { u with cmd := { u.cmd with idx := (u.cmd.word + 1) :: List.replicate 5 0, sent := f } }
        else setSub b.1 k x i { u with cmd := { u.cmd with idx := List.replicate 6 0, sent := 0, fin := some f } }
/-- DRAINs that are satisfied count their semaphores (R189). -/
def settleDrains (s : State) (k x n : Nat) (u : Sub) (tail : Nat) : State :=
  let done : Nat × Nat → Bool := fun d => if u.store then decide ((tail + 65536 - d.2) % 65536 < 32768) else !u.busy
  let ds := u.draining.filter done
  if ds.isEmpty then s
  else ds.foldl (fun s d => creditSem s k x d.1 4) (setSub s k x n { u with draining := u.draining.filter (fun d => !done d), quiesced := true })
/-- A subscription ends: its own semaphore for its walk, the UNSUB's for a stop; open DRAINs count first. -/
def endSub (s : State) (k x n : Nat) (u : Sub) : State :=
  let s := u.draining.foldl (fun s d => creditSem s k x d.1 4) (dropSub s k x n)
  if u.silent then s else creditSem s k x ((u.stopping.map (·.1)).getD u.cmd.sem) u.cmd.desc.scope
/-- A store subscription has a published slot to take; a stopping one takes those published before its UNSUB (R188). -/
def slotReady (u : Sub) (h : RingHdr) : Bool :=
  match u.stopping with
  | none => h.ready ≠ 0
  | some (_, head) => decide ((head + 65536 - h.tail) % 65536 ≠ 0) && decide ((head + 65536 - h.tail) % 65536 < 32768)
/-- One turn of a subscription: what its transfers settle, then a beat. `beat` is false in a cycle in which another has the turn. -/
def subTurn (s : State) (k x n : Nat) (beat : Bool) : State :=
  match (ctxOf s k x).eng.subs[n]? with
  | none => s
  | some u =>
    let m := u.cmd
    if guardOpen m then
      (if m.headAt.isNone then setSub s k x n { u with cmd := { m with headAt := some s.now } }
       else if m.headAt.any (fun h => h + 65536 ≤ s.now) then stopSub s k x n u 0x2A else s)
    else if m.guard.isSome then dropSub s k x n
    else if m.fault.isSome then stopSub s k x n u (m.fault.getD 0)
    else if m.upc = 0 && !cmdOrdered s k x m then s
    else
      let u := { u with cmd := { m with upc := 1 } }
      let h := hdrAt s k u.buf u.hdr
      let s := settleDrains (setSub s k x n u) k x n u h.tail
      match (ctxOf s k x).eng.subs[n]? with
      | none => s
      | some u =>
        match u.cmd.fin with
        | some f =>
          if s.now < f || beatsOpen s k u.cmd.seq then s
          else if u.store then writeSlot (clearBeats s k u.cmd.seq) k x n u else publishSlot (clearBeats s k u.cmd.seq) k x n u
        | none =>
          if u.cmd.word ≠ 0 then (if beat then slotBeat s k x n u h.slotBytes else s)
          else if subTotal u ≤ u.moved then endSub s k x n u
          else if u.store then
            (if !slotReady u h then (if u.stopping.isSome then endSub s k x n u else s)
             else if beat then slotBeat s k x n u h.slotBytes else s)
          else if u.stopping.isSome then endSub s k x n u
          else if h.free = 0 || !beat then s
          else slotBeat s k x n u h.slotBytes
def subStep (s : State) (k x n : Nat) : State := subTurn s k x n true
/-- A beat has been given to the subscription. -/
def subUsed (s t : State) (k x n : Nat) : Bool :=
  match (ctxOf s k x).eng.subs[n]?, (ctxOf t k x).eng.subs[n]? with
  | some u, some v => u.cmd.word != v.cmd.word || u.cmd.fin != v.cmd.fin
  | _, _ => false
/-- The loader (2) or the storer (3) serves the live subscriptions in turn from the one after the last it served (R183): each settles what
its transfers bring, and the first that can use the turn has a beat. -/
def serveSubs (s : State) (k e : Nat) (ps : List (Nat × Nat)) : State :=
  match ps with
  | [] => s
  | p :: rest =>
    let t := subStep s k p.1 p.2
    if subUsed s t k p.1 p.2 then
      let c := coreOf t k
      rest.foldl (fun s q => subTurn s k q.1 q.2 false) (setCore t k { c with rr := mapSet c.rr 0 e (8 * p.1 + p.2 + 1) })
    else serveSubs t k e rest

/-! ## Stream ports (11 R229) -/

/-- An armed read port fetches its next vector: bytes performed, with the context's stores. -/
def fetchVector (s : State) (k x g : Nat) : State :=
  let c := ctxOf s k x
  let p := portOf c g
  if !p.armed || p.write || s.now < p.start || 8 ≤ p.got.length || walkLength p.cnts ≤ p.fpos then s
  else
    let n := 32 * 2 ^ p.w
    let a := ((p.base : Int) + walkOffset p.cnts p.strs p.fpos).toNat
    let parts := (if p.swz then swizzlePieces a n else [(a, n)]).map (fun q => readBuf s k x p.buf q.1 q.2)
    let v : Row := ⟨BitVec.ofNat 1024 (leVal (parts.flatMap (·.1))), if parts.any (·.2) then .corrupt else .clean⟩
    setCtx s k x (setPort c g { p with got := p.got ++ [v], fpos := p.fpos + 1 })

/-! ## The events -/

/-- ENGINE_GUARD_RESOLVED (R182). -/
def execEngineGuardResolved (core ctx eng : Nat) (s : State) : Host.Outcome State Fault Refusal := .next (resolveHead s core ctx eng)
/-- GUARD_NEVER_WRITTEN (23 R399). -/
def execGuardNeverWritten (core ctx eng : Nat) (s : State) : Host.Outcome State Fault Refusal := .next (neverWritten s core ctx eng)
/-- ENGINE_BEAT (R183): for the loader and the storer, a turn of each of the context's subscriptions of that direction. -/
def execEngineBeat (core ctx eng : Nat) (s : State) : Host.Outcome State Fault Refusal := .next (engineStep s core ctx eng)
/-- ENGINE_COMMAND_COMPLETE (R183). -/
def execEngineCommandComplete (core ctx eng : Nat) (s : State) : Host.Outcome State Fault Refusal := .next (completeEngine s core ctx eng)
/-- LOADER_SLOT_PUBLISH (R187): a turn of a load subscription. -/
def execLoaderSlotPublish (core ctx sub : Nat) (s : State) : Host.Outcome State Fault Refusal :=
  .next (if (ctxOf s core ctx).eng.subs[sub]?.any (fun u => !u.store) then subStep s core ctx sub else s)
/-- STORER_SLOT_WRITTEN (R187): a turn of a store subscription. -/
def execStorerSlotWritten (core ctx sub : Nat) (s : State) : Host.Outcome State Fault Refusal :=
  .next (if (ctxOf s core ctx).eng.subs[sub]?.any (fun u => u.store) then subStep s core ctx sub else s)
/-- STREAM_FETCH (11 R229). -/
def execStreamFetch (core ctx port : Nat) (s : State) : Host.Outcome State Fault Refusal := .next (fetchVector s core ctx port)
/-- COLLECTIVE_COMPLETE (12 R256). -/
def execCollectiveComplete (core ctx : Nat) (sources : List (Nat × List Byte)) (s : State) : Host.Outcome State Fault Refusal :=
  .next (collDone s core ctx sources)

end Sys2Proof.Machine
end

