-- ==== Sys2Proof/Machine/TaskOps.lean ====
section
/-! DEFINITION. Machine/TaskOps.lean: the task instructions (12 R240 to R245, R460, 26 R442, R443). Records and counters are taken as
the group issues; readiness, signals and completion records wait for the stores its mark releases (02 R34). -/

namespace Sys2Proof.Machine

/-- The record template at S[st] (R241): eight words of the S buffer as the context sees them. A record takes no mark, and R263 and R387 name no cause
for a template whose line is poisoned: its bytes are taken as they are. -/
def Iss.template (i : Iss) (st : Nat) : Except Halt (Iss × List Nat) := do
  let v := i.s st
  let a := v.2.toNat % 1048576
  v.1.checkBuf 3 a 64 64 0 true
  let r := readBuf v.1.st v.1.st.core v.1.st.cx 3 a 64
  let w := words8 r.1
  if templateBad w then v.1.bad02 else .ok (v.1, w)
/-- ARG: the capability that XC names, or the template's bytes (R241). -/
def Iss.argOf (i : Iss) (xc : Nat) (w : List Nat) : Cap := if 32 ≤ xc then readC i.ctx (xc % 16) else templateArg w
/-- Poison the syllable has read: it is consumed ahead of what a unit would answer (23 R396). -/
def Iss.poisoned (i : Iss) : Bool := i.corrupt.isSome || i.late.isSome
/-- The record the template makes for this context (R27). -/
def Iss.record (i : Iss) (xc : Nat) (w : List Nat) : TaskRec :=
  recOfWords w (i.argOf xc w) (jobIdOf i.st i.st.core i.st.cx) i.ctx.world
/-- EINFO of 0x22 (R443). -/
def fullInfo (counter : Bool) (d : Nat) : Nat := (if counter then 1 else 0) + 2 * d
/-- EINFO of 0x20 and 0x21 (R442). -/
def joinInfo (form signals n : Nat) : Nat := form + 65536 * Nat.min signals 65535 + 4294967296 * n

def opTspawn (f : YX) : Op := fun i => do
  let t ← i.template f.xb
  let i := t.1
  let v := i.record f.xc t.2
  let d := dieFor i.st i.die v.scope v.core
  if i.poisoned then .ok i
  else
    match freeRec i.st d with
    | none => trapNow 0x22 (fullInfo false d)
    | some r =>
      .ok ((i.writeS 8 f.xa (BitVec.ofNat 64 (r + 16384 * d))).afterMark (fun s =>
        awaitAct (countNew (setRec s d r v) v) (dieOfCore s.core) s.core s.cx (uptoNow s s.core) (.ready d r)))

def opTjoin (f : YX) : Op := fun i =>
  match freeJoin i.st i.die with
  | none => trapNow 0x22 (fullInfo true i.die)
  | some j =>
    .ok ((i.writeS 8 f.xa (BitVec.ofNat 64 (32768 + 4096 * i.die + j))).atEnd (fun s => setJoin s (dieOfCore s.core) j (openedJoin s)))

/-- A form that names no counter of the partition is read as a FREE counter. -/
def Iss.counter (i : Iss) (form : Nat) : JoinCtr :=
  if field form 15 1 = 1 && sameGroup i.st i.die (joinDie form) then joinOf i.st (joinDie form) (joinIx form) else JoinCtr.init
/-- TSEAL with expected count n: the counter is sealed as the group issues, or fires at once (R32). -/
def Iss.seal (i : Iss) (f : YX) (form n : Nat) : Except Halt Iss := do
  let t ← i.template f.xb
  let i := t.1
  let v := i.record f.xc t.2
  let d := joinDie form
  let j := joinIx form
  let c := i.counter form
  if i.poisoned then .ok i
  else if c.state ≠ .opened then trapNow 0x20 (joinInfo form c.signals n)
  else if n < c.signals then trapNow 0x21 (joinInfo form c.signals n)
  else
    match freeRec i.st d with
    | none => trapNow 0x22 (fullInfo false d)
    | some r =>
      .ok (i.afterMark (fun s =>
        let s := countNew (setRec s d r v) v
        if c.signals = n then awaitAct (setJoin s d j JoinCtr.init) (dieOfCore s.core) s.core s.cx (uptoNow s s.core) (.ready d r)
        else awaitAct (setJoin s d j { c with state := .sealed, expect := n, cont := r }) d s.core s.cx (uptoNow s s.core) (.seal d j n r)))
def opTsealImm (f : YX) : Op := fun i => let j := i.s f.xa; j.1.seal f (j.2.toNat % 65536) (f.fn % 65536)
def opTsealReg (f : YX) : Op := fun i =>
  let j := i.s f.xa
  let n := j.1.s (f.fn % 64)
  n.1.seal f (j.2.toNat % 65536) (n.2.toNat % 65536)

/-- TSIGNAL (R33): naming the task's own counter, it stands for the implicit signal. -/
def opTsignal (f : YX) : Op := fun i =>
  let v := i.s f.xa
  let form := v.2.toNat % 65536
  if v.1.poisoned then .ok v.1
  else if foundFree v.1.st (v.1.counter form) then trapNow 0x20 (joinInfo form 0 0)
  else .ok (v.1.afterMark (fun s =>
    let s := match (actCtx s).task with
      | some (d, r) => if (taskOf s d r).join = form then setRec s d r { taskOf s d r with signalled := true } else s
      | none => s
    awaitAct s (dieOfCore s.core) s.core s.cx (uptoNow s s.core) (.signal (joinDie form) (joinIx form))))

/-- TEXIT (R243): the stretch and the task end with the group. -/
def opTexit (_ : YX) : Op := fun i => .ok { i with stop := .exit }

/-- READY records of a die that carry a cancelled level are ended where they wait (02 R25, R26). -/
def endCancelled (s : State) (d : Nat) : State :=
  let t := (dieOf s d).tasks
  let dead := t.recs.filter (fun p => p.2.state == .ready && !inFlight t p.1 && !t.preempts.any (fun q => q.record == p.1) && recCancelled s p.2)
  dead.foldl (fun s p => trimRing (endRecord s d p.1) d p.2.prio) s
/-- Set the cancel bit of a level of the issuer's own job (R244). -/
def setCancel (lvl id : Nat) (s : State) : State :=
  let key := levelKey (jobIdOf s s.core s.cx) lvl id
  let s := setLevel s key { levelOf s key with cancel := true }
  (List.range 8).foldl endCancelled s
def opTcancelImm (f : YX) : Op := fun i => .ok (i.atEnd (setCancel (field f.fn 16 2) (f.fn % 65536)))
def opTcancelReg (f : YX) : Op := fun i => let v := i.s f.xa; .ok (v.1.atEnd (setCancel (field f.fn 16 2) (v.2.toNat % 65536)))

/-- TPRIO (R245): a value above 23 is taken as 23. -/
def setPrio (n : Nat) (s : State) : State := let c := actCtx s; setAct s { c with sp := { c.sp with prio := Nat.min n 23 } }
def opTprioImm (f : YX) : Op := fun i => .ok (i.atEnd (setPrio (f.fn % 32)))
def opTprioReg (f : YX) : Op := fun i => let v := i.s f.xa; .ok (v.1.atEnd (setPrio v.2.toNat))

/-- TLVREC (R460): the record is HELD, in no level, until its level completes. -/
def Iss.levelRecord (i : Iss) (f : YX) (id : Nat) : Except Halt Iss := do
  let t ← i.template f.xb
  let i := t.1
  let v := i.record f.xc t.2
  let d := dieFor i.st i.die v.scope v.core
  let key := levelKey v.job (field f.fn 16 2) id
  if i.poisoned then .ok i
  else
    match freeRec i.st d with
    | none => trapNow 0x22 (fullInfo false d)
    | some r =>
      .ok (i.afterMark (fun s => awaitAct (setRec s d r v) (dieOfCore s.core) s.core s.cx (uptoNow s s.core) (.record key d r)))
def opTlvrecImm (f : YX) : Op := fun i => i.levelRecord f (f.fn % 65536)
def opTlvrecReg (f : YX) : Op := fun i => let v := i.s f.xa; v.1.levelRecord f (v.2.toNat % 65536)

/-! ## The instructions: each issues as a group of its own (05 R85) -/

/-- TSPAWN. -/
def execTspawn (g : Guard) (f : YX) (s : State) : Host.Outcome State Fault Refusal :=
  .next (issueSyl (.tspawn g f) (opTspawn f) s)
/-- TJOIN. -/
def execTjoin (g : Guard) (f : YX) (s : State) : Host.Outcome State Fault Refusal :=
  .next (issueSyl (.tjoin g f) (opTjoin f) s)
/-- TSEAL_IMM. -/
def execTsealImm (g : Guard) (f : YX) (s : State) : Host.Outcome State Fault Refusal :=
  .next (issueSyl (.tsealImm g f) (opTsealImm f) s)
/-- TSEAL_REG. -/
def execTsealReg (g : Guard) (f : YX) (s : State) : Host.Outcome State Fault Refusal :=
  .next (issueSyl (.tsealReg g f) (opTsealReg f) s)
/-- TSIGNAL. -/
def execTsignal (g : Guard) (f : YX) (s : State) : Host.Outcome State Fault Refusal :=
  .next (issueSyl (.tsignal g f) (opTsignal f) s)
/-- TEXIT. -/
def execTexit (g : Guard) (f : YX) (s : State) : Host.Outcome State Fault Refusal :=
  .next (issueSyl (.texit g f) (opTexit f) s)
/-- TCANCEL_IMM. -/
def execTcancelImm (g : Guard) (f : YX) (s : State) : Host.Outcome State Fault Refusal :=
  .next (issueSyl (.tcancelImm g f) (opTcancelImm f) s)
/-- TCANCEL_REG. -/
def execTcancelReg (g : Guard) (f : YX) (s : State) : Host.Outcome State Fault Refusal :=
  .next (issueSyl (.tcancelReg g f) (opTcancelReg f) s)
/-- TPRIO_IMM. -/
def execTprioImm (g : Guard) (f : YX) (s : State) : Host.Outcome State Fault Refusal :=
  .next (issueSyl (.tprioImm g f) (opTprioImm f) s)
/-- TPRIO_REG. -/
def execTprioReg (g : Guard) (f : YX) (s : State) : Host.Outcome State Fault Refusal :=
  .next (issueSyl (.tprioReg g f) (opTprioReg f) s)
/-- TLVREC_IMM. -/
def execTlvrecImm (g : Guard) (f : YX) (s : State) : Host.Outcome State Fault Refusal :=
  .next (issueSyl (.tlvrecImm g f) (opTlvrecImm f) s)
/-- TLVREC_REG. -/
def execTlvrecReg (g : Guard) (f : YX) (s : State) : Host.Outcome State Fault Refusal :=
  .next (issueSyl (.tlvrecReg g f) (opTlvrecReg f) s)

end Sys2Proof.Machine
end

