-- ==== Sys2Proof/Machine/Worlds.lean ====
section
/-! DEFINITION. Machine/Worlds.lean: rival worlds (17 R330 to R349, 26 R449 to R452): forking, ending a rival, choosing one with its merge and
its effects, tags, and the events EFFECT_RELEASE and WORLD_FREED. -/

namespace Sys2Proof.Machine

/-! ## Forks and overlays -/

def Fork.init : Fork := ⟨0, 0, 0, 0, []⟩
def forkOf (s : State) (f : Nat) : Fork := mapGet s.worlds.forks Fork.init f
def setFork (s : State) (f : Nat) (v : Fork) : State := { s with worlds := { s.worlds with forks := mapSet s.worlds.forks Fork.init f v } }
/-- A live entry (R334). -/
def forkLive (s : State) (f : Nat) : Bool := decide (f < 32) && (forkOf s f).n ≠ 0
def setWorld (s : State) (w : Nat) (v : World) : State := { s with worlds := { s.worlds with ents := mapSet s.worlds.ents World.init w v } }
/-- The rival record of a world changes with its entry (R334). -/
def noteRival (s : State) (w : Nat) (f : Rival → Rival) : State :=
  let e := worldOf s w
  let k := forkOf s e.fork
  if k.n = 0 then s else setFork s e.fork { k with rivals := k.rivals.mapIdx (fun n r => if n + 1 = e.rival && r.tag = w then f r else r) }
/-- Records of a world, as (stack, number). -/
def recordsOf (s : State) (w : Nat) : List (Nat × Nat) :=
  (s.worlds.overlays.filter (fun p => p.2.tag == w)).map (fun p => (p.1 / 33554432, p.1 % 33554432))
def setOverlay (s : State) (stack n : Nat) (r : Overlay) : State :=
  { s with worlds := { s.worlds with overlays := mapSet s.worlds.overlays Overlay.init (overlayKey stack n) r } }
/-- A record leaves its chain and is free (R336). -/
def freeOverlay (s : State) (stack n : Nat) : State :=
  let r := overlayOf s stack n
  let s := if wovOf s r.leaf = n then setWov s r.leaf r.next
    else
      match s.worlds.overlays.find? (fun p => p.1 / 33554432 == stack && p.2.next == n && p.2.leaf == r.leaf) with
      | some p => setOverlay s stack (p.1 % 33554432) { p.2 with next := r.next }
      | none => s
  setOverlay s stack n Overlay.init
/-- Lines of a world leave every line cache (R339). -/
def dropWorldLines (s : State) (w : Nat) : State :=
  (s.cores.map (·.1)).foldl (fun s k =>
    let c := coreOf s k
    setCore s k { c with ms := { c.ms with lines := c.ms.lines.filter (fun l => l.1 % 64 != w) } }) s
def setEffects (s : State) (w : Nat) (es : List Effect) : State :=
  { s with worlds := { s.worlds with effects := mapSet s.worlds.effects [] w es } }

/-! ## Discard (R331, R343) -/

/-- A world is discarded: its records and effects are freed, the forks it issued go with their worlds, its waiting tasks end. -/
def discardWorld (s : State) (w fuel : Nat) : State :=
  match fuel with
  | 0 => s
  | fuel + 1 =>
    let e := worldOf s w
    if w = 0 || e.state == .free || e.state == .discarded then s
    else
      let s := setWorld s w { e with state := .discarded }
      let s := noteRival s w (fun r => { r with state := .discarded })
      let s := (recordsOf s w).foldl (fun s r => freeOverlay s r.1 r.2) s
      let s := setEffects s w []
      let s := (List.range 32).foldl (fun s f =>
        if forkLive s f && (forkOf s f).issuer = w then
          let s := (forkOf s f).rivals.foldl (fun s r => if r.state == .discarded then s else discardWorld s r.tag fuel) s
          setFork s f Fork.init
        else s) s
      (List.range 8).foldl endCancelled s
/-- Every rival of a fork is discarded and its entry freed (R334, R344). -/
def dropFork (s : State) (f : Nat) : State :=
  let s := (forkOf s f).rivals.foldl (fun s r => if r.state == .discarded then s else discardWorld s r.tag 6) s
  setFork s f Fork.init
/-- A discarded world whose tasks have ended is FREE once its lines are gone (R331). -/
def freeWorld (s : State) (w : Nat) : State :=
  let e := worldOf s w
  if e.state == .discarded && e.live = 0 then setWorld (dropWorldLines s w) w World.init else s

/-! ## WFORK (R332 to R335, 26 R449) -/

/-- Tags that are FREE, in order. -/
def freeWorlds (s : State) : List Nat := (List.range 63).filterMap (fun i => if (worldOf s (i + 1)).state == .free then some (i + 1) else none)
def freeFork (s : State) : Option Nat := (List.range 32).find? (fun f => !forkLive s f)
/-- The n lowest FREE records of a die. -/
def freeRecs (s : State) (d n : Nat) : List Nat :=
  (List.range n).foldl (fun (acc : List Nat × SMap TaskRec) _ =>
    let r := lowestFree (recTaken s.now) acc.2 0
    (acc.1 ++ [r], mapSet acc.2 TaskRec.init r { TaskRec.init with state := .held })) ([], (dieOf s d).tasks.recs) |>.1
/-- A handle (R333). -/
def handleOf (join fork riv n : Nat) : BitVec 64 := BitVec.ofNat 64 (join + 65536 * fork + 2097152 * riv + 16777216 * n)
/-- Writes to scalars, predicates, capabilities or lane masks that have not landed. -/
def writesOpen (c : Ctx) : Bool :=
  c.regs.shadow.any (fun p => match p.what with | .scalar _ _ => true | .pred _ _ => true | .cap _ _ => true | .mask _ _ => true | _ => false)
/-- The registers of rival k (R335). A late scalar is C-marked in the rival, which its data never reaches. -/
def rivalRegs (c : Ctx) (sd : Nat) (h : BitVec 64) : Regs :=
  let r : Regs := { Regs.init with s := c.regs.s, p := c.regs.p, c := c.regs.c, e := c.regs.e,
                                   sMark := c.regs.sMark.map (fun m => (m.1, match m.2 with | .late _ => .corrupt | w => w)) }
  (writeS { c with regs := r } sd h).regs
/-- The rivals' records, counted and made ready after the forker's stores (02 R34). -/
def makeRivals (s : State) (sd f join n : Nat) (tags recs : List Nat) : State :=
  let k := s.core
  let c := actCtx s
  let d := dieOfCore k
  let mine : TaskRec := match c.task with | some (e, r) => taskOf s e r | none => TaskRec.init
  (List.range n).foldl (fun s j =>
    let w := tags.getD j 0
    let r := recs.getD j 0
    let v : TaskRec := { TaskRec.init with
      state := .held, entry := 0, prio := Nat.min c.sp.prio 23, join := join, scope := 1, core := k, launch := mine.launch, graph := mine.graph,
      phase := mine.phase, job := mine.job, world := w, flush := c.sp.flush, rival := some (rivalRegs c sd (handleOf join f (j + 1) n)) }
    let s := setWorld s w ⟨.running, c.world, (worldOf s c.world).depth + 1, j + 1, f, 0, 0⟩
    awaitAct (countNew (setRec s d r v) v) d k s.cx (uptoNow s k) (.ready d r)) s
/-- The label becomes the rivals' ENTRY. -/
def setEntries (s : State) (d entry : Nat) (recs : List Nat) : State := recs.foldl (fun s r => setRec s d r { taskOf s d r with entry := entry }) s
def opWfork (f : YX) : Op := fun i =>
  let s := i.st
  let n := f.fn % 4 + 2
  let w := i.ctx.world
  let tags := freeWorlds s
  let d := i.die
  if writesOpen i.c0 then stallNow
  else if (worldOf s w).depth = 4 then trapNow 0x3D (worldInfo s w 0 false)
  else if tags.length < n then trapNow 0x39 (worldInfo s w tags.length false)
  else
    match freeFork s, freeJoin s d with
    | none, _ => trapNow 0x39 (worldInfo s w tags.length true)
    | some _, none => trapNow 0x22 (fullInfo true d)
    | some fk, some j =>
      if freeCount s d < n then trapNow 0x22 (fullInfo false d)
      else
        let join := 32768 + 4096 * d + j
        let label := wrap 48 ((i.g.sy : Int) + 8 * signed 18 (field f.fn 2 18))
        let recs := freeRecs s d n
        .ok ((i.writeS 8 f.xa (handleOf join fk 0 n)).afterMark (fun s =>
          let s := setJoin s d j (openedJoin s)
          let s := setFork s fk ⟨w, n, join, jobIdOf s s.core s.cx, (tags.take n).map (fun t => ⟨t, .running, 0⟩)⟩
          setEntries (makeRivals s f.xa fk join n tags recs) d label recs))

/-! ## WDONE, WDISCARD -/

/-- Forks issued by a world and not chosen are discarded (R342). -/
def dropForksOf (s : State) (w : Nat) : State := (List.range 32).foldl (fun s f => if forkLive s f && (forkOf s f).issuer = w then dropFork s f else s) s
def opWdone (f : YX) : Op := fun i =>
  let v := i.s f.xa
  let w := i.ctx.world
  if w = 0 then trapNow 0x3E (worldInfo i.st w 0 false)
  else
    let score := v.2.toNat % 4294967296
    let j := v.1.atEnd (fun s =>
      let e := worldOf s w
      let s := if e.state == .running then noteRival (setWorld s w { e with state := .done, score := score }) w (fun r => { r with state := .done, score := score }) else s
      dropForksOf s w)
    .ok { j with stop := .exit }
def opWdiscard (_ : YX) : Op := fun i =>
  let w := i.ctx.world
  if w = 0 then trapNow 0x3E (worldInfo i.st w 0 false)
  else .ok { i.atEnd (fun s => discardWorld s w 6) with stop := .exit }

/-! ## WCHOOSE (R344 to R346) -/

/-- The bytes of a record's MASK. -/
def maskedBytes (r : Overlay) : List Nat := (List.range 256).filter (fun i => r.mask.getLsbD i)
/-- A record of the chosen rival is written into committed memory (R345). -/
def mergeBase (s : State) (stack n : Nat) : State :=
  let r := overlayOf s stack n
  let phys := field (leVal (getBytes s.mem r.leaf 8)) 0 24 * 65536 + 256 * r.line
  let ms := maskedBytes r
  let s := preserve s phys
  let bytes := mergeWov s phys r.data
  let s := { s with
    mem := ms.foldl (fun m i => setByte m (phys + i) (bytes.getD i 0#8)) s.mem
    tags := (List.range 16).foldl (fun t g => if ms.any (fun i => i / 16 == g) then mapSet t false (phys / 16 + g) (field r.tags g 1 = 1) else t) s.tags
    poison := (List.range 4).foldl (fun p g =>
      if field r.bad g 1 = 1 && ms.any (fun i => i / 64 == g) then mapSet p false (phys / 64 + g) true
      else if (ms.filter (fun i => i / 64 == g)).length = 64 then mapSet p false (phys / 64 + g) false else p) s.poison }
  let s := if ms.isEmpty then s else putUnit s (r.leaf + 4) [getByte s.mem (r.leaf + 4) ||| 4#8]
  freeOverlay s stack n
/-- A record is copied into the issuer's record of the line, or becomes it (R345). -/
def mergeWorld (s : State) (p stack n : Nat) : State :=
  let r := overlayOf s stack n
  match findOverlay s stack (wovOf s r.leaf) p r.line (s.worlds.overlays.length + 1) with
  | none => setOverlay s stack n { r with tag := p }
  | some q =>
    let t := overlayOf s stack q
    let ms := maskedBytes r
    let gr := ms.foldl (fun m i => m ||| 2 ^ (i / 16)) 0
    let gb := (List.range 4).foldl (fun m g => if field r.bad g 1 = 1 && ms.any (fun i => i / 64 == g) then m + 2 ^ g else m) 0
    let whole := (List.range 4).foldl (fun m g => if field r.bad g 1 = 0 && (ms.filter (fun i => i / 64 == g)).length = 64 then m + 2 ^ g else m) 0
    let t' : Overlay := { t with
      data := (List.range 256).map (fun i => if r.mask.getLsbD i then r.data.getD i 0#8 else t.data.getD i 0#8)
      mask := t.mask ||| r.mask
      tags := without t.tags gr + maskTo r.tags gr
      bad := without (t.bad ||| gb) whole }
    freeOverlay (setOverlay s stack q t') stack n
def mergeRecords (s : State) (w p : Nat) : State :=
  (recordsOf s w).foldl (fun s r => if p = 0 then mergeBase s r.1 r.2 else mergeWorld s p r.1 r.2) s
/-- T_merge (R345). -/
def mergeTime (s : State) (w : Nat) : Nat :=
  let rs := recordsOf s w
  32 + 4 * (List.range 16).foldl (fun m st => Nat.max m ((rs.filter (fun r => r.1 == st)).length)) 0
/-- Another context is merging the fork; a merge that stands, its effects having found no room, holds nobody off (26 R451). -/
def forkTaken (s : State) (f : Nat) : Bool :=
  s.ctxs.any (fun p => p.1 != 8 * s.core + s.cx && (match p.2.merging with | some (g, _, stands) => g == f && !stands | none => false))
/-- The merged effects are issued in their order, as accesses of the WCHOOSE's issuer: each run takes its number among the core's requests. -/
def releaseEffects (s : State) (es : List Effect) : State :=
  es.foldl (fun s e =>
    let c := actCore s
    let e := { e with core := s.core, ctx := s.cx, seq := c.ms.seq }
    let s := setActCore s { c with ms := { c.ms with seq := c.ms.seq + Nat.max 1 e.runs.length } }
    { s with worlds := { s.worlds with releasing := s.worlds.releasing ++ [e] } }) s
/-- The choice of rival k. -/
def Iss.choose (i : Iss) (h k : Nat) : Except Halt Iss :=
  let s := i.st
  let f := field h 16 5
  let w := i.ctx.world
  let info := worldInfo s w 0 false
  let fk := forkOf s f
  let r := fk.rivals.getD (k - 1) ⟨0, .discarded, 0⟩
  if i.poisoned then .ok i
  else if !forkLive s f || fk.issuer ≠ w || fk.job ≠ jobIdOf s s.core s.cx || decide (fk.n < k) then trapNow 0x3E info
  else if k = 0 then .ok (i.atEnd (fun s => dropFork s f))
  else if r.state == .discarded then trapNow 0x3E info
  else if forkTaken s f then stallNow
  else
    match i.ctx.merging.filter (fun m => m.1 == f) with
    | some (_, _, true) =>
      let es := mapGet s.worlds.effects [] r.tag
      if w ≠ 0 && effectRoom s w < es.length then trapNow 0x3B (worldInfo s w (effectRoom s w) false)
      else .ok (i.atEnd (fun s =>
        let c := actCtx s
        let s := setAct s { c with merging := none }
        let s := setEffects s r.tag []
        let s := if w ≠ 0 then addEffects s w es
          else releaseEffects s es
        dropLines (setFork (setWorld (dropWorldLines s r.tag) r.tag World.init) f Fork.init) s.core s.cx))
    | some (_, fin, false) =>
      if i.clock + 1 < fin then stallNow
      else .error (.stall (fun s => let s := mergeRecords s r.tag w; let c := actCtx s; setAct s { c with merging := some (f, fin, true) }))
    | none =>
      if r.state == .done && (worldOf s r.tag).live = 0 then
        .error (.stall (fun s =>
          let s := fk.rivals.foldl (fun s q => if q.tag = r.tag || q.state == .discarded then s else discardWorld s q.tag 6) s
          let c := actCtx s
          setAct s { c with merging := some (f, c.clock + mergeTime s r.tag, false) }))
      else stallNow
def opWchooseImm (f : YX) : Op := fun i => let h := i.s f.xa; h.1.choose h.2.toNat (f.fn % 8)
def opWchooseReg (f : YX) : Op := fun i =>
  let h := i.s f.xa
  let k := h.1.s f.xb
  k.1.choose h.2.toNat k.2.toNat

/-! ## WTAG (R347) -/

def opWtagOwn (f : YX) : Op := fun i =>
  let w := worldOf i.st i.ctx.world
  .ok (i.writeS 1 f.xa (BitVec.ofNat 64 (i.ctx.world + 64 * w.depth + 512 * w.rival)))
def stateCode (w : WorldState) : Nat := match w with | .done => 1 | .discarded => 2 | _ => 0
def opWtagQuery (f : YX) : Op := fun i =>
  let h := i.s f.xb
  let fk := forkOf i.st (field h.2.toNat 16 5)
  let k := f.fn % 8
  let w := i.ctx.world
  if h.1.poisoned then .ok h.1
  else if fk.n = 0 || fk.issuer ≠ w || fk.job ≠ jobIdOf i.st i.st.core i.st.cx || decide (fk.n < k) then trapNow 0x3E (worldInfo i.st w 0 false)
  else
    let r := fk.rivals.getD (k - 1) ⟨0, .discarded, 0⟩
    .ok (h.1.writeS 8 f.xa (BitVec.ofNat 64 (r.score % 4294967296 + 4294967296 * stateCode r.state + 17179869184 * r.tag)))

/-! ## Released effects (R346) -/

/-- A capability that reaches a whole object, for an access already checked at its deferral. -/
def wholeCap (obj : Nat) : Cap :=
  ⟨BitVec.ofNat 128 (256 * (67108864 * Config.moduleNumber + obj % 67108864) + 2 ^ 80 * 1099511627775 + 2 ^ 120 * 255), true⟩
/-- The first entry of the effect queue goes on, as a request of the WCHOOSE's issuer; the unit waits for slots and tags. -/
def releaseWrite (s : State) (e : Effect) (off : Nat) (bs : List Byte) : Option State :=
  if e.mod = Config.moduleNumber then
    match engSpan s e.core e.ctx (wholeCap e.obj) off bs.length 0 0 true with
    | .ok ps => some (releaseAs (s, e.seq) e.core (Store.fresh e.ctx e.cls (.mem 0 ps) bs false false))
    | .error (.trap c n) => let s := logOutside s c n; some (setCtx s e.core e.ctx (raiseA (ctxOf s e.core e.ctx) c (memInfo off 0 0)))
    | .error _ => none
  else if peerDown s (dieOfCore e.core) e.mod then some (setCtx s e.core e.ctx (raiseA (ctxOf s e.core e.ctx) 0x2E (e.mod + 64 * 2)))
  else
    let body := addrWord e.obj off e.size ++ bs
    let n := flitCount s 0 body.length
    let s := drawUpTo s e.core e.ctx e.mod n 16
    match tagFor (fabOf s (dieOfCore e.core)) effectAsks with
    | none => none
    | some ix =>
      if fscOf (ctxOf s e.core e.ctx) e.mod < n then none
      else
        let t := takeTag (spendSlots s e.core e.ctx e.mod n) effectAsks e.core e.ctx ix e.mod 0 2 e.cls (spanOfBytes (67108864 * e.mod + e.obj) off bs.length) e.seq 0 none 0 body
        let c := ctxOf t.1 e.core e.ctx
        let r : FarReq := { tag := t.2, seq := e.seq, peer := e.mod, kind := 2, cls := e.cls, dst := .none Row.zero, push := false, acq := false, info := memInfo off 0 (e.size % 8) }
        some (setCtx t.1 e.core e.ctx { c with reqs := c.reqs ++ [r] })
/-- A deferred SEND leaves for its module, or for a core of this one. -/
def releaseSend (s : State) (e : Effect) : Option State :=
  let d := dieOfCore e.core
  let n := flitCount s 4 e.data.length
  if e.mod ≠ Config.moduleNumber && peerDown s d e.mod then some (setCtx s e.core e.ctx (raiseA (ctxOf s e.core e.ctx) 0x2E (e.mod + 64 * 9)))
  else
    let s := if e.mod = Config.moduleNumber then s else drawUpTo s e.core e.ctx e.mod n 16
    match tagFor (fabOf s d) effectAsks with
    | none => none
    | some ix =>
      if e.mod ≠ Config.moduleNumber && fscOf (ctxOf s e.core e.ctx) e.mod < n then none
      else
        let s := if e.mod = Config.moduleNumber then s else spendSlots s e.core e.ctx e.mod n
        let t := takeTag s effectAsks e.core e.ctx ix e.mod 4 9 e.cls 0 e.seq 0 none (msgAux e.obj e.off) e.data
        let c := ctxOf t.1 e.core e.ctx
        let r : FarReq := { tag := t.2, seq := e.seq, peer := e.mod, kind := 9, cls := e.cls, dst := .none Row.zero, push := false, acq := false, info := 0 }
        let s := setCtx t.1 e.core e.ctx { c with reqs := c.reqs ++ [r] }
        if e.mod = Config.moduleNumber then
          let f := fabOf s d
          let s := setFab s d { f with sendQ := f.sendQ.filter (fun g => !(g.tag == 512 * d + ix && g.vc == 4)) }
          some (ownMessage s d e.obj e.off t.2 e.data)
        else some s
/-- An effect that found no tag waits for one. -/
def effectWaits (s : State) (e : Effect) : State :=
  let d := dieOfCore e.core
  if (tagFor (fabOf s d) effectAsks).isNone then waitTag s d effectAsks else s
def releaseEffect (s : State) : State :=
  match s.worlds.releasing with
  | [] => s
  | e :: rest =>
    let put (s : State) (l : List Effect) : State := { s with worlds := { s.worlds with releasing := l } }
    match e.kind with
    | 2 => (match releaseWrite s e e.off e.data with | some t => put t rest | none => effectWaits s e)
    | 20 =>
      (match e.runs with
      | [] => put s rest
      | r :: rs =>
        match releaseWrite s e r.1 (e.data.take r.2) with
        | some t => put t ({ e with runs := rs, data := e.data.drop r.2, seq := e.seq + 1 } :: rest)
        | none => effectWaits s e)
    | 9 => (match releaseSend s e with | some t => put t rest | none => effectWaits s e)
    | _ =>
      let d := dieOfCore e.core
      if 1024 ≤ gateCount (dieOf s d).ex then s else put (pushGate s d 1 (gateRecord e.data e.off)) rest

/-- EFFECT_RELEASE (R346). -/
def execEffectRelease (s : State) : Host.Outcome State Fault Refusal := .next (releaseEffect s)
/-- WORLD_FREED (R331). -/
def execWorldFreed (tag : Nat) (s : State) : Host.Outcome State Fault Refusal := .next (freeWorld s tag)

/-! ## The instructions: each issues as a group of its own (05 R85) -/

/-- WFORK. -/
def execWfork (g : Guard) (f : YX) (s : State) : Host.Outcome State Fault Refusal :=
  .next (issueSyl (.wfork g f) (opWfork f) s)
/-- WDONE. -/
def execWdone (g : Guard) (f : YX) (s : State) : Host.Outcome State Fault Refusal :=
  .next (issueSyl (.wdone g f) (opWdone f) s)
/-- WDISCARD. -/
def execWdiscard (g : Guard) (f : YX) (s : State) : Host.Outcome State Fault Refusal :=
  .next (issueSyl (.wdiscard g f) (opWdiscard f) s)
/-- WCHOOSE_IMM. -/
def execWchooseImm (g : Guard) (f : YX) (s : State) : Host.Outcome State Fault Refusal :=
  .next (issueSyl (.wchooseImm g f) (opWchooseImm f) s)
/-- WCHOOSE_REG. -/
def execWchooseReg (g : Guard) (f : YX) (s : State) : Host.Outcome State Fault Refusal :=
  .next (issueSyl (.wchooseReg g f) (opWchooseReg f) s)
/-- WTAG_OWN. -/
def execWtagOwn (g : Guard) (f : YX) (s : State) : Host.Outcome State Fault Refusal :=
  .next (issueSyl (.wtagOwn g f) (opWtagOwn f) s)
/-- WTAG_QUERY. -/
def execWtagQuery (g : Guard) (f : YX) (s : State) : Host.Outcome State Fault Refusal :=
  .next (issueSyl (.wtagQuery g f) (opWtagQuery f) s)

end Sys2Proof.Machine
end

