-- ==== Sys2Proof/Machine/Experts.lean ====
section
/-! DEFINITION. Machine/Experts.lean: a die's routing structures (16 R313 to R329, 23 R413, 26 R446, R447): the expert residency table,
tiles, duplicate filter, proving drawer, the Shuttle's custom operations on them, and ERTQ. -/

namespace Sys2Proof.Machine

/-! ## Objects of the resident job -/

/-- The job running on a die's resident partition (14 R289). -/
def residentJob (s : State) (d : Nat) : Nat :=
  ((s.jobs.find? (fun j => j.2.running && j.2.part + (if j.2.standby then 8 else 0) == (coreOf s (80 * d)).part)).map (·.1)).getD 0
/-- The job whose record names the partition's object table and tier range: the one running on the resident partition, else the last
that ended there (10 R197, log 75). -/
def tableJob (s : State) (d : Nat) : Job :=
  match s.jobs.find? (fun j => j.2.running && j.2.part + (if j.2.standby then 8 else 0) == (coreOf s (80 * d)).part) with
  | some j => j.2
  | none => mapGet s.ga.tables Job.init (coreOf s (80 * d)).part
/-- The block of an object's byte, as address and leaf, where it is in HBM. -/
def objByte (s : State) (d obj off : Nat) : Option (Nat × Nat) :=
  match objEntry s (tableJob s d) d obj with
  | none => none
  | some (dir, n) =>
    if n ≤ off / 65536 then none
    else match walk s d dir off with | .hbm p l => some (p, l) | _ => none
/-- Bytes of an object; those of blocks not in HBM read 0. -/
def readObj (s : State) (d obj off n : Nat) : List Byte :=
  (pieces 65536 off n 20).flatMap (fun p => match objByte s d obj p.1 with | some q => getBytes s.mem q.1 p.2 | none => List.replicate p.2 0#8)
/-- Write bytes of an object as a unit of the die; blocks not in HBM take nothing. -/
def writeObj (s : State) (d obj off : Nat) (bs : List Byte) (tag : Bool) : State :=
  (pieces 256 off bs.length (bs.length + 1)).foldl (fun s p => match objByte s d obj p.1 with
    | some q => writeBase s q.1 q.2 ((bs.drop (p.1 - off)).take p.2) tag false
    | none => s) s
/-- A tagged capability of this module (10 R194). -/
def mkCap (obj lower upper rights : Nat) : Cap :=
  ⟨BitVec.ofNat 128 (256 * (67108864 * Config.moduleNumber + obj % 67108864) + 2 ^ 40 * lower + 2 ^ 80 * upper + 2 ^ 120 * rights), true⟩

/-! ## The expert residency table (R320 to R322) -/

def setRoute (s : State) (d csr v : Nat) : State := let die := dieOf s d; setDie s d { die with xr := mapSet die.xr 0 csr v }
def nexp (s : State) (d : Nat) : Nat := let n := field (routeReg s d 0x7C5) 26 16; if n = 0 then 65536 else n
def nlay (s : State) (d : Nat) : Nat := field (routeReg s d 0x7C5) 42 8
/-- A key within the table. -/
def keyGood (s : State) (d key : Nat) : Bool := decide (key % 65536 < nexp s d) && decide (key / 65536 % 256 ≤ nlay s d)
def ertOff (s : State) (d key : Nat) : Nat := 16 * (key / 65536 % 256 * nexp s d + key % 65536)
def ertObj (s : State) (d : Nat) : Nat := field (routeReg s d 0x7C5) 0 26
/-- The 16 bytes of an entry as a number; an entry that no resident block holds reads as STATE 7 (log 34). -/
def ertGet (s : State) (d key : Nat) : Nat :=
  match objByte s d (ertObj s d) (ertOff s d key) with
  | some q => leVal (getBytes s.mem q.1 16)
  | none => 7
def ertPut (s : State) (d key v : Nat) : State := writeObj s d (ertObj s d) (ertOff s d key) (leBytes 16 v) false
def ertState (e : Nat) : Nat := e % 8
/-- Replace a field of an entry. -/
def putField (e lo len v : Nat) : Nat := e - 2 ^ lo * field e lo len + 2 ^ lo * (v % 2 ^ len)
/-- A tile of the key is open or its task has not ended, on a die of the partition. -/
def tileHeld (s : State) (d key : Nat) : Bool := (groupDies s d).any (fun e => (dieOf s e).ex.tiles.any (fun t => t.2.key == key))
/-- The moves of ERTSET (R321). -/
def ertMove (s : State) (d key old new : Nat) : Bool :=
  old = new || (old = 0 && new = 3) || ((old = 0 || old = 2) && (new = 0 || new = 1 || new = 2 || new = 4)) || (old = 1 && new = 4) || (old = 4 && new = 1)
    || (old = 1 && (new = 0 || new = 2) && !tileHeld s d key)
/-- ERTSET of an image (R322): 1 where it is written; no fill starts while the tier is off (18 R352). -/
def ertSet (s : State) (d key img : Nat) : State × Nat :=
  let e := ertGet s d key
  let old := ertState e
  let new := ertState img
  let bad := field img 11 5 ≠ 0 || field img 58 6 ≠ 0 || field img 124 1 ≠ 0
  if bad || 5 ≤ new || 5 ≤ old || (old = 0 && new = 3 && field (tableJob s d).features 6 1 = 0) || old ≠ field img 125 3 || !ertMove s d key old new || !keyGood s d key then (s, 0)
  else
    let v := putField (putField (putField img 9 2 (field e 9 2)) 100 12 (field e 100 12)) 112 8 (field e 112 8)
    let s := ertPut s d key (putField v 125 3 0)
    if old = 0 && new = 3 then
      let nb := let n := field img 42 16; if n = 0 then 65536 else n
      ({ s with fills := s.fills ++ [⟨.expert key d (field img 64 24) nb (field img 16 26), field img 64 24, (tableJob s d).tier, 0, 0⟩] }, 1)
    else (s, 1)

/-! ## Headers and the duplicate filter (R314, R327) -/

/-- The remainder by x^8 + x^2 + x + 1 of n bits, highest first. -/
def crc8 (n w r : Nat) : Nat :=
  match n with
  | 0 => r
  | n + 1 =>
    let v := 2 * r + (w / 2 ^ n % 2)
    crc8 n w (if 256 ≤ v then (v - 256) ^^^ 7 else v)
/-- A header with its CRC formed, and whether one is intact. -/
def sealHeader (h : Nat) : Nat := h - h % 256 + crc8 64 (h - h % 256) 0
def headerGood (h : Nat) : Bool := crc8 64 h 0 == 0
def roundOf (h : Nat) : Nat := field h 21 8
/-- What the filter says of a header; a row of the older round is refused too while the newest round's set is full (26 R447, log 90). -/
inductive Seen where
  | fresh
  | duplicate
  | full
  deriving DecidableEq, Repr
/-- SDIE, TOKEN, SLOT and ROUND. -/
def rowKey (h : Nat) : Nat := h / 2097152
def filterAsk (x : Experts) (h : Nat) : Seen :=
  match x.newest with
  | none => .fresh
  | some r =>
    let age := (r + 256 - roundOf h) % 256
    if 128 < age then .fresh
    else if 2 ≤ age then .duplicate
    else
      let keys := if age = 0 then x.keysNew else x.keysOld
      if keys.contains (rowKey h) then .duplicate else if 8192 ≤ x.keysNew.length || 8192 ≤ keys.length then .full else .fresh
/-- A row passes the filter: its round may become the newest. -/
def filterPass (x : Experts) (h : Nat) : Experts :=
  match x.newest with
  | none => { x with newest := some (roundOf h), keysNew := [rowKey h], keysOld := [] }
  | some r =>
    let age := (r + 256 - roundOf h) % 256
    if 128 < age then { x with newest := some (roundOf h), keysOld := if age = 255 then x.keysNew else [], keysNew := [rowKey h] }
    else if age = 0 then { x with keysNew := x.keysNew ++ [rowKey h] }
    else { x with keysOld := x.keysOld ++ [rowKey h] }
def setEx (s : State) (d : Nat) (x : Experts) : State := setDie s d { dieOf s d with ex := x }
def exOf (s : State) (d : Nat) : Experts := (dieOf s d).ex
/-- DUPCNT counts a dropped row; past 2^32 - 1 it wraps (03 R59, log 87). -/
def dropDuplicate (s : State) (d : Nat) : State := let die := dieOf s d; setDie (noteHw s d dupKey die.dupcnt (fun n => n + 1)) d { die with dupcnt := (die.dupcnt + 1) % 4294967296 }

/-! ## Tiles (R325) -/

def Tile.init : Tile := ⟨0, [], false, none⟩
/-- A slot holds a tile: an open one, or one whose task has not ended. -/
def tileAt (s : State) (d j : Nat) : Tile := mapGet (exOf s d).tiles Tile.init j
def setTile (s : State) (d j : Nat) (t : Tile) : State := let x := exOf s d; setEx s d { x with tiles := mapSet x.tiles Tile.init j t }
def tileOpen (t : Tile) : Bool := !t.rows.isEmpty && !t.due && t.spawned.isNone && decide (t.rows.length < 128)
def openTile (s : State) (d key : Nat) : Option Nat := (List.range 64).find? (fun j => let t := tileAt s d j; tileOpen t && t.key == key)
def freeTileSlot (s : State) (d : Nat) : Option Nat := (List.range 64).find? (fun j => (tileAt s d j).rows.isEmpty)
def rowObj (s : State) (d : Nat) : Nat := field (routeReg s d 0x7C0) 0 26
def tileOff (s : State) (d j : Nat) : Nat := field (routeReg s d 0x7C3) 0 40 + 4096 * j
/-- A tile becomes a READY task, copied from ETASK.REC, once a FREE record is there; its list's head is written, and the entry's HEAT
rises. -/
def spawnTile (s : State) (d j : Nat) : State :=
  let t := tileAt s d j
  match freeRec s d with
  | none => s
  | some r =>
    let v := taskOf s d (routeReg s d 0x7C4 % 16384)
    let e := ertGet s d t.key
    let off := tileOff s d j
    let nb := let n := field e 42 16; if n = 0 then 65536 else n
    let wcap := mkCap (field e 16 26) 0 (65536 * nb) 0x41
    let rcap := mkCap (rowObj s d) 0 1099511627775 0x43
    let s := writeObj s d (rowObj s d) off (leBytes 16 wcap.bits.toNat) true
    let s := writeObj s d (rowObj s d) (off + 16) (leBytes 16 rcap.bits.toNat) true
    let s := writeObj s d (rowObj s d) (off + 32) (leBytes 16 v.arg.bits.toNat) v.arg.tag
    let s := writeObj s d (rowObj s d) (off + 48) (leBytes 8 (t.key + 16777216 * (t.rows.length - 1) + 4294967296 * j) ++ leBytes 8 0) false
    let s := ertPut s d t.key (putField e 9 2 (Nat.min 3 (field e 9 2 + 1)))
    let n : TaskRec := { v with state := .held, arg := mkCap (rowObj s d) off (off + 4096) 3, scope := 1, core := 80 * d, ctx := none, signalled := false,
                                world := 0, order := 0, msg := none, tile := some j, rival := none, suspended := false }
    makeReady (countNew (setRec (setTile s d j { t with due := false, spawned := some r }) d r n) n) d r
/-- A tile is to be spawned: without a FREE record its spawn waits with its slot full, which Garod reports once (26 R443, log 90). -/
def askTile (s : State) (d j : Nat) : State :=
  if (freeRec s d).isSome then spawnTile s d j else report (setTile s d j { tileAt s d j with due := true }) 0x22 (2 * d)
/-- Append a row to the open tile of its key, opening one where there is none; none where no slot is free. -/
def appendRow (s : State) (d key h row : Nat) : Option State :=
  match (openTile s d key).or (freeTileSlot s d) with
  | none => none
  | some j =>
    let t := tileAt s d j
    let n := t.rows.length
    let hdr := sealHeader h
    let s := writeObj s d (rowObj s d) (tileOff s d j + 64 + 16 * n) (leBytes 8 hdr ++ leBytes 8 (64 * row % 1099511627776)) false
    let s := setTile s d j { key := key, rows := t.rows ++ [(BitVec.ofNat 64 hdr, row)], due := false, spawned := none }
    some (if n + 1 = 128 then askTile s d j else s)
/-- The inbound slot a row lies in. -/
def inboundSlot (s : State) (d row : Nat) : Option Nat :=
  let r := routeReg s d 0x7C2
  let base := field r 0 40
  let rb := rowBytes s d
  if 64 * row < base || (64 * row - base) % rb ≠ 0 || field r 40 16 < (64 * row - base) / rb then none else some ((64 * row - base) / rb)
def freeInbound (s : State) (d row : Nat) : State :=
  match inboundSlot s d row with
  | some n => let x := exOf s d; setEx s d { x with inbound := mapSet x.inbound false n false }
  | none => s
/-- The task of a tile ends: its slot and its rows' inbound slots are free. -/
def freeTile (s : State) (d j : Nat) : State := setTile ((tileAt s d j).rows.foldl (fun s r => freeInbound s d r.2) s) d j Tile.init
/-- Tiles whose spawn waits for a FREE record. -/
def retryTiles (s : State) (d : Nat) : State :=
  (List.range 64).foldl (fun s j => if (tileAt s d j).due then spawnTile s d j else s) s

/-! ## Routing records (R319, R324, R328) -/

def rrExpert (w : Nat) : Nat := field w 0 16
def rrKey (w : Nat) : Nat := field w 0 24
def rrFwd (w : Nat) : Bool := field w 24 1 = 1
def rrRow (w : Nat) : Nat := field w 26 34
def malformed (s : State) (d w : Nat) : Bool := (rrExpert w ≠ 65535 && decide (nexp s d ≤ rrExpert w)) || decide (nlay s d < field w 16 8)
/-- An entry of the Shuttle cause log: held where the log is free, else only counted (26 R446). -/
def logCause (s : State) (d cause insn : Nat) (a b : BitVec 64) : State :=
  let x := exOf s d
  let s := noteHw s d causeCountKey x.logCount (fun n => n + 1)
  let s := if x.logValid then s else noteHw s d causeKey 0 (fun _ => 1)
  setEx s d { x with logCount := Nat.min 65535 (x.logCount + 1), logValid := true, logEntry := if x.logValid then x.logEntry else (cause, insn, a, b) }
/-- What a custom instruction does: it completes with a value for rd, fails with a cause (status 7), or waits. -/
inductive Custom where
  | done (s : State) (rd : BitVec 64)
  | failed (cause : Nat)
  | wait (s : State)
/-- A dropped record's inbound slot is free. -/
def dropRow (s : State) (d w : Nat) : State := if rrFwd w then freeInbound s d (rrRow w) else s
/-- Place a record that no capacity refuses: 0, or 4 for a duplicate; none where it must wait for a tile slot. -/
def placeRow (s : State) (d h w : Nat) : Option (State × Nat) :=
  if !rrFwd w && filterAsk (exOf s d) h == .duplicate then some (dropRow (dropDuplicate s d) d w, 4)
  else
    let key := rrKey w
    let e := ertGet s d key
    let used := if field e 112 8 = roundOf h then field e 100 12 else 0
    match appendRow s d key h (rrRow w) with
    | none => none
    | some t =>
      let e := ertGet t d key
      let t := ertPut t d key (putField (putField e 100 12 (Nat.min 4095 (used + 1))) 112 8 (roundOf h))
      some (if rrFwd w then t else setEx t d (filterPass (exOf t d) h), 0)
/-- RRPUT (R324). -/
def rrput (s : State) (d h w : Nat) : Custom :=
  let key := rrKey w
  let e := ertGet s d key
  if malformed s d w then .failed 0x37
  else if rrExpert w = 65535 then .done (setRoute s d 0x7C6 ((routeReg s d 0x7C6 + 1) % 4294967296)) 5
  else if 5 ≤ ertState e then .failed 0x34
  else if ertState e = 0 || ertState e = 3 then .done s 3
  else if ertState e = 2 then .done s 2
  else if !rrFwd w && filterAsk (exOf s d) h == .duplicate then .done (dropDuplicate s d) 4
  else if !rrFwd w && filterAsk (exOf s d) h == .full then .failed 0x38
  else if !rrFwd w && field e 88 12 ≠ 0 && field e 112 8 = roundOf h && decide (field e 88 12 ≤ field e 100 12) then .done s 1
  else match placeRow s d h w with
    | some t => .done t.1 (BitVec.ofNat 64 t.2)
    | none => .wait s
/-- PARK (R328). An unrouted record is counted as RRPUT counts it (log 35). -/
def parkRow (s : State) (d h w : Nat) : Custom :=
  let e := ertGet s d (rrKey w)
  let x := exOf s d
  if malformed s d w then .failed 0x37
  else if rrExpert w = 65535 then .done (setRoute s d 0x7C6 ((routeReg s d 0x7C6 + 1) % 4294967296)) 5
  else if 5 ≤ ertState e then .failed 0x34
  else if ertState e = 2 then .done s 2
  else if ertState e = 0 || ertState e = 3 then
    (if 8192 ≤ x.drawer.length then .failed 0x36 else .done (setEx s d { x with drawer := x.drawer ++ [(BitVec.ofNat 64 h, BitVec.ofNat 64 w)] }) 6)
  else if !rrFwd w && filterAsk x h == .full then .failed 0x38
  else match placeRow s d h w with
    | some t => .done t.1 (BitVec.ofNat 64 t.2)
    | none => .wait s
def isKey (key : Nat) (r : BitVec 64 × BitVec 64) : Bool := rrKey r.2.toNat == key
/-- Place the drawer records of a key in parking order; it stops where a tile slot is wanting. -/
def unparkRows (s : State) (d key fuel n : Nat) : State × Nat × Bool :=
  match fuel with
  | 0 => (s, n, true)
  | fuel + 1 =>
    let x := exOf s d
    match x.drawer.find? (isKey key) with
    | none => (s, n, true)
    | some r =>
      match placeRow s d r.1.toNat r.2.toNat with
      | none => (s, n, false)
      | some t =>
        let y := exOf t.1 d
        unparkRows (setEx t.1 d { y with drawer := y.drawer.erase r }) d key fuel (if t.2 = 0 then n + 1 else n)
/-- UNPARK (R328): the filter must have room for every record of the key. -/
def unpark (s : State) (d : Nat) (a : BitVec 64) : Custom :=
  let key := a.toNat % 16777216
  let e := ertGet s d key
  let x := exOf s d
  let mine := x.drawer.filter (isKey key)
  let fresh := (mine.filter (fun r => !rrFwd r.2.toNat && filterAsk x r.1.toNat != .duplicate)).length
  let sh := (dieOf s d).sh
  if !keyGood s d key then .done (logCause s d 0x37 5 a 0#64) 0
  else if 5 ≤ ertState e then .failed 0x34
  else if ertState e ≠ 1 && ertState e ≠ 4 then .done s 0
  else if fresh ≠ 0 && 8192 < x.keysNew.length + fresh then .failed 0x38
  else
    let r := unparkRows s d key (mine.length + 1) sh.placed
    let die := dieOf r.1 d
    if r.2.2 then .done (setDie r.1 d { die with sh := { die.sh with placed := 0 } }) (BitVec.ofNat 64 r.2.1)
    else .wait (setDie r.1 d { die with sh := { die.sh with placed := r.2.1 } })
/-- DTILE (R325): every open tile for −1, else that of a key; a tile whose spawn waits for a record counts as spawned (log 90). -/
def dtile (s : State) (d : Nat) (a : BitVec 64) : Custom :=
  let key := a.toNat % 16777216
  if a = BitVec.allOnes 64 then
    let js := (List.range 64).filter (fun j => tileOpen (tileAt s d j))
    .done (js.foldl (fun s j => askTile s d j) s) (BitVec.ofNat 64 js.length)
  else if !keyGood s d key then .done (logCause s d 0x37 7 a 0#64) 0
  else match openTile s d key with
    | none => .done s 0
    | some j => .done (askTile s d j) 1
/-- FWDROW (R326): the row leaves on VC2 for the entry's PEER, with the CRC formed and FWD = 1. -/
def fwdrow (s : State) (d h w : Nat) : Custom :=
  let e := ertGet s d (rrKey w)
  if malformed s d w then .failed 0x37
  else if rrFwd w || ertState e ≠ 2 then .done s 3
  else
    let row := readObj s d (rowObj s d) (64 * rrRow w) (rowBytes s d)
    let bs := leBytes 8 (sealHeader h) ++ leBytes 8 (field w 0 24 + 16777216) ++ row
    let peer := field e 3 6
    if peer = Config.moduleNumber then let x := exOf s d; .done (setEx s d { x with arriving := x.arriving ++ [(peer, [], bs)] }) 0
    else
      let f := fabOf s d
      .done (setFab s d { f with sendQ := f.sendQ ++ mkFlits s peer 2 7 0 0 0 0 bs }) 0

/-! ## Forwarded rows (R326, R447) -/

/-- A lost row counts in FABERR.ROWLOST (25 R441). -/
def rowLost (s : State) (d : Nat) : State :=
  let die := dieOf s d
  let v := regRaw die 0x0750
  setDie (noteHw s d 0x0750 v (fun n => putField n 48 16 (Nat.min 65535 (field n 48 16 + 1)))) d
    (setReg die 0x0750 (putField v 48 16 (Nat.min 65535 (field v 48 16 + 1))))
/-- The first row that has come: checked, filtered, stored in the lowest free inbound slot, and queued as kind 3; it waits for a slot and
for room in the gate queue. -/
def rowArrives (s : State) (d : Nat) : State :=
  let x := exOf s d
  match x.arriving with
  | [] => s
  | (src, ports, bs) :: rest =>
    let h := leVal (bs.take 8)
    let s0 := freeSlots (setEx s d { x with arriving := rest }) d src ports
    let drop := filterAsk x h
    if !headerGood h then report (rowLost s0 d) 0x2C d
    else if drop == .duplicate then dropDuplicate s0 d
    else if drop == .full then logCause (rowLost s0 d) d 0x38 6 (BitVec.ofNat 64 h) 0#64
    else
      let r := routeReg s d 0x7C2
      match (List.range (field r 40 16 + 1)).find? (fun n => !mapGet x.inbound false n) with
      | none => s
      | some n =>
        if 1024 ≤ gateCount x then s
        else
          let off := field r 0 40 + rowBytes s d * n
          let s := setEx s0 d { filterPass (exOf s0 d) h with inbound := mapSet x.inbound false n true }
          let s := writeObj s d (rowObj s d) off (bs.drop 16) false
          let w := leVal ((bs.drop 8).take 8)
          pushGate s d 3 (leBytes 8 h ++ leBytes 8 (field w 0 24 + 16777216 + 67108864 * (off / 64)) ++ List.replicate 48 0#8)
/-- FORWARDED_ROW_ARRIVAL (R326). -/
def execForwardedRowArrival (die : Nat) (s : State) : Host.Outcome State Fault Refusal := .next (rowArrives s die)

/-! ## Fills (R328, 24 R416) -/

/-- The cells of a block moved to another. -/
def blockCells (m : List Host.Cell) (from_ into : Nat) : List Host.Cell :=
  (m.filter (fun c => c.1 / 65536 == from_)).map (fun c => (into * 65536 + c.1 % 65536, c.2))
/-- Tier block `t` is copied into block `pbn` (spans of a checkpoint are preserved first, 18 R357). -/
def fillBlock (s : State) (base t pbn : Nat) : State :=
  let s := if s.ck.frozen.any (fun b => b.1 == pbn) then (List.range 256).foldl (fun s i => preserve s (pbn * 65536 + 256 * i)) s else s
  { s with
    mem := (blockCells s.tier (base + t) pbn).foldl (fun m c => setByte m c.1 c.2) (s.mem.filter (fun c => c.1 / 65536 != pbn))
    tags := s.tags.filter (fun g => g.1 / 4096 != pbn)
    poison := s.poison.filter (fun g => g.1 / 1024 != pbn) }
/-- A context that waited for a fill is a candidate again (22 R383). -/
def wakeFill (s : State) (k x : Nat) : State :=
  let c := ctxOf s k x
  if c.status == .filling then setCtx s k x { c with status := .bound, toRun := true } else s
/-- What a fill's end does to a context that waited for it; 128 above a context is the one of its number suspended in an area. -/
def atWaiter (s : State) (w : Nat × Nat) (f : State → Nat → State) : State :=
  if w.2 < 8 then f s w.2 else if 128 ≤ w.2 then onArea s w.1 (w.2 - 128) (fun s => f s (w.2 - 128)) else s
def isExtent (f : Fill) : Bool := match f.kind with | .extent _ _ _ _ _ => true | _ => false
/-- The first extent fill ends: block, leaf, waiting contexts. -/
def extentDone (s : State) : State :=
  match s.fills.find? isExtent with
  | none => s
  | some f =>
    match f.kind with
    | .extent leaf _ pbn _ ws =>
      let s := fillBlock { s with fills := s.fills.erase f } f.base f.tblk pbn
      let l := leVal (getBytes s.mem leaf 8)
      let s := putUnit s leaf (leBytes 8 (pbn + 17179869184 + 34359738368 * field l 35 25))
      ws.foldl (fun s w => atWaiter s w (fun s x => wakeFill s w.1 x)) s
    | _ => s
/-- A kind-2 entry in the gate queue of every die of the partition; bit 24 says FAIL (26 R448). -/
def fillEvent (s : State) (d key : Nat) (fail : Bool) : State :=
  (groupDies s d).foldl (fun s e => pushGate s e 2 (leBytes 8 (key + (if fail then 16777216 else 0)) ++ List.replicate 56 0#8)) s
/-- An expert fill that failed: ABSENT, the drawer's records of the key are unrouted, and the event (26 R448). -/
def expertFailed (s : State) (key d : Nat) : State :=
  let e := ertGet s d key
  let s := if ertState e = 3 then ertPut s d key (putField e 0 3 0) else s
  let s := (groupDies s d).foldl (fun s g =>
    let x := exOf s g
    let n := (x.drawer.filter (isKey key)).length
    setRoute (setEx s g { x with drawer := x.drawer.filter (fun r => !isKey key r) }) g 0x7C6 ((routeReg s g 0x7C6 + n) % 4294967296)) s
  fillEvent s d key true
/-- The first block of an expert fill's object that is not in HBM: the fill ends without reading the tier (R328, 26 R448). -/
def fillGap (s : State) (f : Fill) : Option Nat :=
  match f.kind with
  | .expert _ d _ nblk obj => (List.range nblk).find? (fun b => (objByte s d obj (65536 * b)).isNone)
  | .extent _ _ _ _ _ => none
/-- The first expert fill ends: its blocks are copied, LOCAL is written, and every die of the partition is told; a block of the object
that is not in HBM ends it as a failure. -/
def expertDone (s : State) : State :=
  match s.fills.find? (fun f => !isExtent f) with
  | none => s
  | some f =>
    match f.kind with
    | .expert key d tblk nblk obj =>
      let s := { s with fills := s.fills.erase f }
      (match fillGap s f with
      | some b => report (expertFailed s key d) 0x35 (b + 16777216 * key)
      | none =>
        let s := (List.range nblk).foldl (fun s b => match objByte s d obj (65536 * b) with
          | some q => fillBlock s f.base (tblk + b) (q.1 / 65536)
          | none => s) s
        let e := ertGet s d key
        fillEvent (ertPut s d key (putField e 0 3 1)) d key false)
    | _ => s
/-- EXTENT_FILL_COMPLETE (24 R416). -/
def execExtentFillComplete (s : State) : Host.Outcome State Fault Refusal := .next (extentDone s)
/-- EXPERT_FILL_COMPLETE (R328). -/
def execExpertFillComplete (s : State) : Host.Outcome State Fault Refusal := .next (expertDone s)

/-! ## The sweeper (10 R201) -/

/-- Lower the heat fields of a leaf entry. -/
def coolLeaf (s : State) (la : Nat) : State :=
  let l := leVal (getBytes s.mem la 8)
  let r := field l 30 2
  let w := field l 32 2
  if r = 0 && w = 0 then s else putUnit s la (leBytes 8 (putField (putField l 30 2 (r - 1)) 32 2 (w - 1)))
/-- A sweep lowers an entry that no store of the cycle has written (R201). -/
def coolEntry (s : State) (la : Nat) : State := if storedNow s la 8 then s else coolLeaf s la
/-- The leaf entries of an object that lie in a die's stacks. -/
def coolObject (s : State) (job : Job) (d g ix : Nat) : State :=
  match objEntry s job g ix with
  | none => s
  | some (dir, n) =>
    (List.range ((n + 8191) / 8192)).foldl (fun s p =>
      let e := leVal (getBytes s.mem (dir * 65536 + 8 * p) 8)
      if field e 24 1 = 1 && field e 0 24 / 2097152 = d then (List.range 8192).foldl (fun s i => coolEntry s (field e 0 24 * 65536 + 8 * i)) s else s) s
/-- A job is posted to a partition that holds the die. -/
def jobHolds (s : State) (j : Job) (d : Nat) : Bool := j.part == d / (8 / s.ga.parts)
/-- The HEAT of the residency entries in the die's stacks. -/
def coolErt (s : State) (d : Nat) : State :=
  (List.range (nexp s d * (nlay s d + 1))).foldl (fun s i =>
    match objByte s d (ertObj s d) (16 * i) with
    | some q =>
      if dieOfAddr q.1 ≠ d then s
      else
        let b := leVal (getBytes s.mem q.1 16)
        if field b 9 2 = 0 || storedNow s q.1 16 then s else putUnit s q.1 (leBytes 16 (putField b 9 2 (field b 9 2 - 1)))
    | none => s) s
/-- A sweep of a die. -/
def sweepHeat (s : State) (d : Nat) : State :=
  let s := s.jobs.foldl (fun s j =>
    if jobHolds s j.2 d then (List.range j.2.nobj).foldl (fun s ix => coolObject s j.2 d d ix) s else s) s
  if (objEntry s (tableJob s d) d (ertObj s d)).isNone then s else coolErt s d
/-- HEAT_SWEEP (10 R201). -/
def execHeatSweep (die : Nat) (s : State) : Host.Outcome State Fault Refusal := .next (sweepHeat s die)

end Sys2Proof.Machine
end

