-- ==== Sys2Proof/Machine/Rv.lean ====
section
/-! DEFINITION. Machine/Rv.lean: the integer arithmetic and the compressed forms of the Shuttle's base instruction set, RV64IMAC with Zba and
Zbb (16 R312). PRESUMED (log 13): the encodings and meanings are those of the RISC-V standards that R312 names; the spec does not
repeat them. -/

namespace Sys2Proof.Machine.Rv

/-- Sign-extend the low n bits to 64. -/
def sx (n v : Nat) : BitVec 64 := BitVec.ofInt 64 (signed n v)
def sx32 (v : BitVec 64) : BitVec 64 := sx 32 v.toNat
def lo32 (v : BitVec 64) : Nat := v.toNat % 4294967296

/-- Leading zeros, trailing zeros and ones of an n-bit number. -/
def clz (n v : Nat) : Nat := match n with | 0 => 0 | n + 1 => if v / 2 ^ n % 2 = 1 then 0 else 1 + clz n v
def ctz (n v : Nat) : Nat := match n with | 0 => 0 | n + 1 => if v % 2 = 1 then 0 else 1 + ctz n (v / 2)
def cpop (n v : Nat) : Nat := match n with | 0 => 0 | n + 1 => v % 2 + cpop n (v / 2)
/-- Rotation to the right in n bits. -/
def ror (n v k : Nat) : Nat := v % 2 ^ n / 2 ^ (k % n) + v % 2 ^ (k % n) * 2 ^ (n - k % n)
def rol (n v k : Nat) : Nat := ror n v (n - k % n)
def orcb (v : Nat) : Nat := leVal ((leBytes 8 v).map (fun b => if b = 0#8 then 0#8 else 255#8))
def rev8 (v : Nat) : Nat := leVal (leBytes 8 v).reverse

/-- Division and remainder of n-bit operands: by zero −1 and the dividend; the overflow wraps. -/
def divS (n : Nat) (a b : Int) : Int := if b = 0 then -1 else (signed n (wrap n (a.tdiv b)))
def remS (a b : Int) : Int := if b = 0 then a else a.tmod b
def divU (n a b : Nat) : Nat := if b = 0 then 2 ^ n - 1 else a / b
def remU (a b : Nat) : Nat := if b = 0 then a else a % b

/-- OP: register with register, by funct7 and funct3. -/
def op (f7 f3 : Nat) (a b : BitVec 64) : Option (BitVec 64) :=
  let sh := b.toNat % 64
  let ia := a.toInt
  let ib := b.toInt
  let nat : Nat → Option (BitVec 64) := fun v => some (BitVec.ofNat 64 v)
  let int : Int → Option (BitVec 64) := fun v => some (BitVec.ofInt 64 v)
  match f7, f3 with
  | 0x00, 0 => some (a + b)
  | 0x20, 0 => some (a - b)
  | 0x00, 1 => some (a <<< sh)
  | 0x00, 2 => nat (if ia < ib then 1 else 0)
  | 0x00, 3 => nat (if a.toNat < b.toNat then 1 else 0)
  | 0x00, 4 => some (a ^^^ b)
  | 0x00, 5 => some (a >>> sh)
  | 0x20, 5 => some (a.sshiftRight sh)
  | 0x00, 6 => some (a ||| b)
  | 0x00, 7 => some (a &&& b)
  | 0x20, 4 => some (~~~(a ^^^ b))
  | 0x20, 6 => some (a ||| ~~~b)
  | 0x20, 7 => some (a &&& ~~~b)
  | 0x01, 0 => some (a * b)
  | 0x01, 1 => int (ia * ib / 18446744073709551616)
  | 0x01, 2 => int (ia * (b.toNat : Int) / 18446744073709551616)
  | 0x01, 3 => nat (a.toNat * b.toNat / 18446744073709551616)
  | 0x01, 4 => int (divS 64 ia ib)
  | 0x01, 5 => nat (divU 64 a.toNat b.toNat)
  | 0x01, 6 => int (remS ia ib)
  | 0x01, 7 => nat (remU a.toNat b.toNat)
  | 0x10, 2 => some ((a <<< 1) + b)
  | 0x10, 4 => some ((a <<< 2) + b)
  | 0x10, 6 => some ((a <<< 3) + b)
  | 0x05, 4 => some (if ia < ib then a else b)
  | 0x05, 5 => some (if a.toNat < b.toNat then a else b)
  | 0x05, 6 => some (if ia < ib then b else a)
  | 0x05, 7 => some (if a.toNat < b.toNat then b else a)
  | 0x30, 1 => nat (rol 64 a.toNat sh)
  | 0x30, 5 => nat (ror 64 a.toNat sh)
  | _, _ => none

/-- OP-32: 32-bit results, sign-extended; the .uw forms; `rs2` distinguishes ZEXT.H. -/
def op32 (f7 f3 rs2 : Nat) (a b : BitVec 64) : Option (BitVec 64) :=
  let sh := b.toNat % 32
  let na := lo32 a
  let nb := lo32 b
  let ia := signed 32 na
  let ib := signed 32 nb
  let word : Nat → Option (BitVec 64) := fun v => some (sx 32 v)
  let int : Int → Option (BitVec 64) := fun v => some (sx 32 (wrap 32 v))
  match f7, f3 with
  | 0x00, 0 => word (na + nb)
  | 0x20, 0 => int (ia - ib)
  | 0x00, 1 => word (na * 2 ^ sh)
  | 0x00, 5 => word (na / 2 ^ sh)
  | 0x20, 5 => int (ia / 2 ^ sh)
  | 0x01, 0 => word (na * nb)
  | 0x01, 4 => int (divS 32 ia ib)
  | 0x01, 5 => word (divU 32 na nb)
  | 0x01, 6 => int (remS ia ib)
  | 0x01, 7 => word (remU na nb)
  | 0x04, 0 => some (BitVec.ofNat 64 na + b)
  | 0x04, 4 => if rs2 = 0 then some (BitVec.ofNat 64 (na % 65536)) else none
  | 0x10, 2 => some ((BitVec.ofNat 64 na <<< 1) + b)
  | 0x10, 4 => some ((BitVec.ofNat 64 na <<< 2) + b)
  | 0x10, 6 => some ((BitVec.ofNat 64 na <<< 3) + b)
  | 0x30, 1 => word (rol 32 na sh)
  | 0x30, 5 => word (ror 32 na sh)
  | _, _ => none

/-- OP-IMM, by the 12 immediate bits. -/
def opImm (f3 imm : Nat) (a : BitVec 64) : Option (BitVec 64) :=
  let i := sx 12 imm
  let sh := imm % 64
  let nat : Nat → Option (BitVec 64) := fun v => some (BitVec.ofNat 64 v)
  match f3 with
  | 0 => some (a + i)
  | 2 => nat (if a.toInt < i.toInt then 1 else 0)
  | 3 => nat (if a.toNat < i.toNat then 1 else 0)
  | 4 => some (a ^^^ i)
  | 6 => some (a ||| i)
  | 7 => some (a &&& i)
  | 1 =>
    if imm / 64 = 0 then some (a <<< sh)
    else match imm with
      | 0x600 => nat (clz 64 a.toNat)
      | 0x601 => nat (ctz 64 a.toNat)
      | 0x602 => nat (cpop 64 a.toNat)
      | 0x604 => some (sx 8 a.toNat)
      | 0x605 => some (sx 16 a.toNat)
      | _ => none
  | _ =>
    if imm / 64 = 0 then some (a >>> sh)
    else if imm / 64 = 0x10 then some (a.sshiftRight sh)
    else if imm / 64 = 0x18 then nat (ror 64 a.toNat sh)
    else match imm with
      | 0x287 => nat (orcb a.toNat)
      | 0x6B8 => nat (rev8 a.toNat)
      | _ => none

/-- OP-IMM-32. -/
def opImm32 (f3 imm : Nat) (a : BitVec 64) : Option (BitVec 64) :=
  let na := lo32 a
  let sh := imm % 32
  match f3 with
  | 0 => some (sx 32 ((a + sx 12 imm).toNat))
  | 1 =>
    if imm / 32 = 0 then some (sx 32 (na * 2 ^ sh))
    else if imm / 64 = 0x02 then some (BitVec.ofNat 64 na <<< (imm % 64))
    else match imm with
      | 0x600 => some (BitVec.ofNat 64 (clz 32 na))
      | 0x601 => some (BitVec.ofNat 64 (ctz 32 na))
      | 0x602 => some (BitVec.ofNat 64 (cpop 32 na))
      | _ => none
  | 5 =>
    if imm / 32 = 0 then some (sx 32 (na / 2 ^ sh))
    else if imm / 32 = 0x20 then some (sx 32 (wrap 32 (signed 32 na / 2 ^ sh)))
    else if imm / 32 = 0x30 then some (sx 32 (ror 32 na sh))
    else none
  | _ => none

/-- A branch's condition. -/
def branch (f3 : Nat) (a b : BitVec 64) : Option Bool :=
  match f3 with
  | 0 => some (a == b)
  | 1 => some (a != b)
  | 4 => some (decide (a.toInt < b.toInt))
  | 5 => some (decide (b.toInt ≤ a.toInt))
  | 6 => some (decide (a.toNat < b.toNat))
  | 7 => some (decide (b.toNat ≤ a.toNat))
  | _ => none

/-- The new value of an AMO of n bits; LR and SC apart. -/
def amo (f5 n old src : Nat) : Option Nat :=
  match f5 with
  | 0x01 => some src
  | 0x00 => some ((old + src) % 2 ^ n)
  | 0x04 => some (old ^^^ src)
  | 0x0C => some (old &&& src)
  | 0x08 => some (old ||| src)
  | 0x10 => some (if signed n src < signed n old then src else old)
  | 0x14 => some (if signed n old < signed n src then src else old)
  | 0x18 => some (Nat.min old src)
  | 0x1C => some (Nat.max old src)
  | _ => none

/-! ## Encodings that the compressed forms stand for -/

def rType (opc f3 f7 rd a b : Nat) : Nat := opc + 128 * rd + 4096 * f3 + 32768 * a + 1048576 * b + 33554432 * f7
def iType (opc f3 rd a imm : Nat) : Nat := opc + 128 * rd + 4096 * f3 + 32768 * a + 1048576 * (imm % 4096)
def sType (f3 a b imm : Nat) : Nat := 0x23 + 128 * (imm % 32) + 4096 * f3 + 32768 * a + 1048576 * b + 33554432 * (imm / 32 % 128)
def bType (f3 a imm : Nat) : Nat :=
  0x63 + 128 * (field imm 11 1) + 256 * (field imm 1 4) + 4096 * f3 + 32768 * a + 33554432 * (field imm 5 6) + 2147483648 * (field imm 12 1)
def jType (rd imm : Nat) : Nat :=
  0x6F + 128 * rd + 4096 * (field imm 12 8) + 1048576 * (field imm 11 1) + 2097152 * (field imm 1 10) + 2147483648 * (field imm 20 1)
/-- The low 12, 13 or 21 bits of a sign-extended field of n bits. -/
def ext (n bits v : Nat) : Nat := wrap bits (signed n v)

/-- The 32-bit instruction of a compressed one; none where it is reserved or of an extension the core has not. -/
def expand (h : Nat) : Option Nat :=
  let rdp := 8 + field h 2 3
  let r1p := 8 + field h 7 3
  let rd := field h 7 5
  let r2 := field h 2 5
  let imm6 := field h 2 5 + 32 * field h 12 1
  let i := ext 6 12 imm6
  match h % 4, field h 13 3 with
  | 0, 0 =>
    let n := 64 * field h 7 4 + 16 * field h 11 2 + 8 * field h 5 1 + 4 * field h 6 1
    if n = 0 then none else some (iType 0x13 0 rdp 2 n)
  | 0, 2 => some (iType 0x03 2 rdp r1p (8 * field h 10 3 + 64 * field h 5 1 + 4 * field h 6 1))
  | 0, 3 => some (iType 0x03 3 rdp r1p (8 * field h 10 3 + 64 * field h 5 2))
  | 0, 6 => some (sType 2 r1p rdp (8 * field h 10 3 + 64 * field h 5 1 + 4 * field h 6 1))
  | 0, 7 => some (sType 3 r1p rdp (8 * field h 10 3 + 64 * field h 5 2))
  | 1, 0 => some (iType 0x13 0 rd rd i)
  | 1, 1 => if rd = 0 then none else some (iType 0x1B 0 rd rd i)
  | 1, 2 => some (iType 0x13 0 rd 0 i)
  | 1, 3 =>
    if imm6 = 0 then none
    else if rd = 2 then
      some (iType 0x13 0 2 2 (ext 10 12 (512 * field h 12 1 + 16 * field h 6 1 + 64 * field h 5 1 + 128 * field h 3 2 + 32 * field h 2 1)))
    else some (0x37 + 128 * rd + 4096 * ext 6 20 imm6)
  | 1, 4 =>
    (match field h 10 2 with
    | 0 => some (iType 0x13 5 r1p r1p imm6)
    | 1 => some (iType 0x13 5 r1p r1p (1024 + imm6))
    | 2 => some (iType 0x13 7 r1p r1p i)
    | _ =>
      match field h 12 1, field h 5 2 with
      | 0, 0 => some (rType 0x33 0 0x20 r1p r1p rdp)
      | 0, 1 => some (rType 0x33 4 0 r1p r1p rdp)
      | 0, 2 => some (rType 0x33 6 0 r1p r1p rdp)
      | 0, _ => some (rType 0x33 7 0 r1p r1p rdp)
      | _, 0 => some (rType 0x3B 0 0x20 r1p r1p rdp)
      | _, 1 => some (rType 0x3B 0 0 r1p r1p rdp)
      | _, _ => none)
  | 1, 5 =>
    some (jType 0 (ext 12 21 (2048 * field h 12 1 + 16 * field h 11 1 + 256 * field h 9 2 + 1024 * field h 8 1 + 64 * field h 7 1 + 128 * field h 6 1
      + 2 * field h 3 3 + 32 * field h 2 1)))
  | 1, 6 => some (bType 0 r1p (ext 9 13 (256 * field h 12 1 + 8 * field h 10 2 + 64 * field h 5 2 + 2 * field h 3 2 + 32 * field h 2 1)))
  | 1, 7 => some (bType 1 r1p (ext 9 13 (256 * field h 12 1 + 8 * field h 10 2 + 64 * field h 5 2 + 2 * field h 3 2 + 32 * field h 2 1)))
  | 2, 0 => some (iType 0x13 1 rd rd imm6)
  | 2, 2 => if rd = 0 then none else some (iType 0x03 2 rd 2 (32 * field h 12 1 + 4 * field h 4 3 + 64 * field h 2 2))
  | 2, 3 => if rd = 0 then none else some (iType 0x03 3 rd 2 (32 * field h 12 1 + 8 * field h 5 2 + 64 * field h 2 3))
  | 2, 4 =>
    (match field h 12 1 with
    | 0 => if r2 = 0 then (if rd = 0 then none else some (iType 0x67 0 0 rd 0)) else some (rType 0x33 0 0 rd 0 r2)
    | _ => if r2 = 0 then (if rd = 0 then some 0x00100073 else some (iType 0x67 0 1 rd 0)) else some (rType 0x33 0 0 rd rd r2))
  | 2, 6 => some (sType 2 2 r2 (4 * field h 9 4 + 64 * field h 7 2))
  | 2, 7 => some (sType 3 2 r2 (8 * field h 10 3 + 64 * field h 7 3))
  | _, _ => none

end Sys2Proof.Machine.Rv
end

