-- ==== Sys2Proof/Machine/Shuttle.lean ====
section
/-! DEFINITION. Machine/Shuttle.lean: the Shuttle core of a die (16 R312, R313, R318, R322, 23 R413, 26 R446): its registers, scratch and CSRs,
exceptions, the base instructions, and the eight custom ones. -/

namespace Sys2Proof.Machine

def shOf (s : State) (d : Nat) : Shuttle := (dieOf s d).sh
def setSh (s : State) (d : Nat) (v : Shuttle) : State := setDie s d { dieOf s d with sh := v }
/-- x0 reads as zero and takes no write. -/
def xGet (h : Shuttle) (n : Nat) : BitVec 64 := if n = 0 then 0#64 else mapGet h.x 0#64 n
def xSet (h : Shuttle) (n : Nat) (v : BitVec 64) : Shuttle := if n = 0 then h else { h with x := mapSet h.x 0#64 n v }
def csrGet (h : Shuttle) (n : Nat) : BitVec 64 := mapGet h.csrs 0#64 n
def csrSet (h : Shuttle) (n : Nat) (v : BitVec 64) : Shuttle := { h with csrs := mapSet h.csrs 0#64 n v }
/-- Scratch is 64 KiB (R312). -/
def scratchBytes : Nat := 65536
def inScratch (a n : Nat) : Bool := decide (a + n ≤ scratchBytes)
/-- A write to scratch ends a reservation whose bytes it touches. -/
def putScratch (h : Shuttle) (a : Nat) (bs : List Byte) : Shuttle :=
  { h with scratch := setBytes h.scratch a bs
           resv := h.resv.filter (fun r => !(decide (a < r + 8) && decide (r < a + bs.length))) }

/-- An exception in machine mode (log 13): mepc, mcause and mtval are written, MPIE takes MIE, MIE is 0, and the pc is at BASE. -/
def shException (s : State) (d cause tval : Nat) : State :=
  let h := shOf s d
  let ms := (csrGet h 0x300).toNat
  let h := csrSet (csrSet (csrSet h 0x341 (BitVec.ofNat 64 h.pc)) 0x342 (BitVec.ofNat 64 cause)) 0x343 (BitVec.ofNat 64 tval)
  let h := csrSet h 0x300 (BitVec.ofNat 64 (putField (putField ms 7 1 (field ms 3 1)) 3 1 0))
  setSh s d { h with pc := (csrGet h 0x305).toNat / 4 * 4 }
/-- An instruction of 4 bytes completes with a value for rd. -/
def shDone (s : State) (d rd : Nat) (v : BitVec 64) : State :=
  let h := shOf s d
  setSh s d { xSet h rd v with pc := (h.pc + 4) % 18446744073709551616, asked := none, answer := none }

/-! ## CSRs (R313, R446; the machine-mode set of log 13) -/

/-- The writable bits of the die's routing registers. -/
def routeMask (n : Nat) : Nat :=
  match n with
  | 0x7C0 => 2 ^ 26 - 1
  | 0x7C1 => 2 ^ 10 - 1
  | 0x7C2 => 2 ^ 56 - 1
  | 0x7C3 => 2 ^ 40 - 1
  | 0x7C4 => 2 ^ 14 - 1
  | 0x7C5 => 2 ^ 50 - 1
  | _ => 2 ^ 32 - 1
def isRoute (n : Nat) : Bool := decide (0x7C0 ≤ n) && decide (n ≤ 0x7C6)
/-- Machine-mode CSRs that hold what is written. -/
def isPlainCsr (n : Nat) : Bool := n == 0x304 || n == 0x305 || n == 0x340 || n == 0x341 || n == 0x342 || n == 0x343 || n == 0xB00 || n == 0xB02
/-- SCLOG0 as a read sees it: VALID is not set by an entry of this cycle (00 R8). -/
def heldLog (s : State) (d : Nat) : Nat :=
  let x := exOf s d
  x.logEntry.1 + 64 * x.logEntry.2.1 + (if x.logValid && hwLeft s d causeKey ≠ 1 then 512 else 0)
/-- The value of a CSR; none where there is no such CSR. -/
def readCsr (s : State) (d n : Nat) : Option (BitVec 64) :=
  let x := (dieOf s d).ex
  if isRoute n then some (BitVec.ofNat 64 (routeReg s d n))
  else if isPlainCsr n then some (csrGet (shOf s d) n)
  else match n with
    | 0x300 => some (csrGet (shOf s d) 0x300 ||| 0x1800#64)
    | 0x301 => some 0x8000000000001105#64
    | 0x344 => some 0#64
    | 0xF11 => some 0#64
    | 0xF12 => some 0#64
    | 0xF13 => some 0#64
    | 0xF14 => some 0#64
    | 0xF15 => some 0#64
    | 0xFC0 => some (BitVec.ofNat 64 x.drawer.length)
    | 0xFC1 => some (BitVec.ofNat 64 (hwStart s d causeCountKey x.logCount))
    | 0xFC2 => some (BitVec.ofNat 64 (heldLog s d))
    | 0xFC3 => some x.logEntry.2.2.1
    | 0xFC4 => some x.logEntry.2.2.2
    | _ => none
/-- SCLOGC clears as it is read. -/
def clearLogCount (s : State) (d : Nat) : State := let x := exOf s d; setEx s d { x with logCount := Nat.min 65535 (hwLeft s d causeCountKey) }
/-- A read of SCLOG0 clears VALID and frees the log; the other fields stand until the next entry (26 R446). -/
def freeLog (s : State) (d : Nat) : State := let x := exOf s d; if hwLeft s d causeKey = 1 then s else setEx s d { x with logValid := false }
def afterCsrRead (s : State) (d n : Nat) : State := if n = 0xFC1 then clearLogCount s d else if n = 0xFC2 then freeLog s d else s
def writeCsr (s : State) (d n : Nat) (v : BitVec 64) : State :=
  if isRoute n then setRoute s d n (maskTo v.toNat (routeMask n))
  else if n = 0x300 then setSh s d (csrSet (shOf s d) n (v &&& 0x88#64))
  else if n = 0x341 then setSh s d (csrSet (shOf s d) n (v &&& ~~~1#64))
  else if n = 0x305 then setSh s d (csrSet (shOf s d) n (v &&& ~~~2#64))
  else if isPlainCsr n then setSh s d (csrSet (shOf s d) n v)
  else s

/-! ## The base instructions (log 13) -/

def illegalRv (s : State) (d w : Nat) : State := shException s d 2 w
/-- Write rd and go on `len` bytes further. -/
def rvNext (s : State) (d rd len : Nat) (v : BitVec 64) : State :=
  let h := shOf s d
  setSh s d { xSet h rd v with pc := (h.pc + len) % 18446744073709551616 }
def rvJump (s : State) (d rd : Nat) (link : BitVec 64) (target : Nat) : State := let h := shOf s d; setSh s d { xSet h rd link with pc := target }
/-- A load or an AMO's address: misaligned, then outside scratch. -/
def rvFault (a n mis acc : Nat) : Option Nat := if a % n ≠ 0 then some mis else if inScratch a n then none else some acc
def rvLoad (s : State) (d rd f3 len a w : Nat) : State :=
  let n := 2 ^ (f3 % 4)
  if f3 = 7 then illegalRv s d w
  else match rvFault a n 4 5 with
    | some c => shException s d c a
    | none =>
      let v := leVal (getBytes (shOf s d).scratch a n)
      rvNext s d rd len (if f3 < 4 then Rv.sx (8 * n) v else BitVec.ofNat 64 v)
def rvStore (s : State) (d f3 len a w : Nat) (v : BitVec 64) : State :=
  let n := 2 ^ (f3 % 4)
  if 3 < f3 then illegalRv s d w
  else match rvFault a n 6 7 with
    | some c => shException s d c a
    | none => let h := putScratch (shOf s d) a (leBytes n v.toNat); setSh s d { h with pc := (h.pc + len) % 18446744073709551616 }
def rvAmo (s : State) (d rd f3 f5 a w b : Nat) : State :=
  let n := if f3 = 2 then 4 else 8
  let h := shOf s d
  let old := leVal (getBytes h.scratch a n)
  let res : Nat → BitVec 64 := fun v => Rv.sx (8 * n) v
  if f3 ≠ 2 && f3 ≠ 3 then illegalRv s d w
  else match f5 with
    | 0x02 =>
      if field w 20 5 ≠ 0 then illegalRv s d w
      else match rvFault a n 4 5 with
      | some c => shException s d c a
      | none => rvNext (setSh s d { h with resv := some a }) d rd 4 (res old)
    | 0x03 =>
      (match rvFault a n 6 7 with
      | some c => shException s d c a
      | none =>
        if h.resv = some a then rvNext (setSh s d { putScratch h a (leBytes n b) with resv := none }) d rd 4 0#64
        else rvNext (setSh s d { h with resv := none }) d rd 4 1#64)
    | _ =>
      match Rv.amo f5 (8 * n) old (b % 2 ^ (8 * n)) with
      | none => illegalRv s d w
      | some v =>
        match rvFault a n 6 7 with
        | some c => shException s d c a
        | none => rvNext (setSh s d (putScratch h a (leBytes n v))) d rd 4 (res old)
/-- CSR instructions: an absent CSR, or a write of a read-only one, is illegal; rd = x0 of CSRRW reads nothing. -/
def rvCsr (s : State) (d rd a f3 n w : Nat) : State :=
  let src : BitVec 64 := if f3 < 4 then xGet (shOf s d) a else BitVec.ofNat 64 a
  let writes := f3 % 4 = 1 || a ≠ 0
  let reads := f3 % 4 ≠ 1 || rd ≠ 0
  match readCsr s d n with
  | none => illegalRv s d w
  | some old =>
    if writes && 0xC00 ≤ n then illegalRv s d w
    else
      let s := if reads then afterCsrRead s d n else s
      let v := match f3 % 4 with | 1 => src | 2 => old ||| src | _ => old &&& ~~~src
      let s := if writes then writeCsr s d n v else s
      rvNext s d rd 4 old
def rvSystem (s : State) (d w : Nat) : State :=
  let h := shOf s d
  if w = 0x73 then shException s d 11 0
  else if w = 0x00100073 then shException s d 3 h.pc
  else if w = 0x30200073 then
    let ms := (csrGet h 0x300).toNat
    setSh s d { csrSet h 0x300 (BitVec.ofNat 64 (putField (putField ms 3 1 (field ms 7 1)) 7 1 1)) with pc := (csrGet h 0x341).toNat }
  else if w = 0x10500073 then setSh s d { h with pc := h.pc + 4, wfi := true }
  else illegalRv s d w

/-- One base instruction of 32 bits, `len` bytes long in scratch. -/
def rvExec (s : State) (d w len : Nat) : State :=
  let h := shOf s d
  let rd := field w 7 5
  let f3 := field w 12 3
  let a := xGet h (field w 15 5)
  let b := xGet h (field w 20 5)
  let f7 := field w 25 7
  let pc := BitVec.ofNat 64 h.pc
  let iImm := Rv.sx 12 (field w 20 12)
  let sImm := Rv.sx 12 (field w 7 5 + 32 * f7)
  let bImm := Rv.sx 13 (2 * field w 8 4 + 32 * field w 25 6 + 2048 * field w 7 1 + 4096 * field w 31 1)
  let jImm := Rv.sx 21 (2 * field w 21 10 + 2048 * field w 20 1 + 4096 * field w 12 8 + 1048576 * field w 31 1)
  let link := pc + BitVec.ofNat 64 len
  let put : Option (BitVec 64) → State := fun v => match v with | some v => rvNext s d rd len v | none => illegalRv s d w
  match w % 128 with
  | 0x33 => put (Rv.op f7 f3 a b)
  | 0x3B => put (Rv.op32 f7 f3 (field w 20 5) a b)
  | 0x13 => put (Rv.opImm f3 (field w 20 12) a)
  | 0x1B => put (Rv.opImm32 f3 (field w 20 12) a)
  | 0x03 => rvLoad s d rd f3 len (a + iImm).toNat w
  | 0x23 => rvStore s d f3 len (a + sImm).toNat w b
  | 0x63 =>
    (match Rv.branch f3 a b with
    | some t => rvJump s d 0 0#64 (if t then (pc + bImm).toNat else link.toNat)
    | none => illegalRv s d w)
  | 0x6F => rvJump s d rd link (pc + jImm).toNat
  | 0x67 => if f3 = 0 then rvJump s d rd link ((a + iImm) &&& ~~~1#64).toNat else illegalRv s d w
  | 0x37 => put (some (Rv.sx 32 (w / 4096 * 4096)))
  | 0x17 => put (some (pc + Rv.sx 32 (w / 4096 * 4096)))
  | 0x0F => if f3 ≤ 1 then rvNext s d 0 len 0#64 else illegalRv s d w
  | 0x2F => rvAmo s d rd f3 (f7 / 4) a.toNat w b.toNat
  | 0x73 => if f3 = 0 then rvSystem s d w else if f3 = 4 then illegalRv s d w else rvCsr s d rd (field w 15 5) f3 (field w 20 12) w
  | _ => illegalRv s d w

/-! ## The custom instructions (R318 to R328) -/

/-- The value of a source register of die d. -/
def xOf (s : State) (n : Nat) : BitVec 64 := xGet (shOf s s.die) n
/-- A scratch operand: mcause 6 when not aligned, 7 outside scratch. -/
def scratchFault (a n align : Nat) : Option Nat := if a % align ≠ 0 then some 6 else if inScratch a n then none else some 7
/-- A custom instruction completes, fails with status 7 and a cause in the log, or waits where it is. -/
def settleCustom (s : State) (rd insn : Nat) (a b : BitVec 64) (r : Custom) : State :=
  match r with
  | .done t v => shDone t s.die rd v
  | .failed c => shDone (logCause s s.die c insn a b) s.die rd 7#64
  | .wait t => t
/-- The first entry of the gate queue goes to scratch (R317). -/
def popGate (s : State) (rd : Nat) (a : Nat) : State :=
  let d := s.die
  match scratchFault a 64 64 with
  | some c => shException s d c a
  | none =>
    let x := exOf s d
    match x.gate with
    | [] => shDone s d rd 0#64
    | g :: rest =>
      let s := setEx s d { x with gate := rest }
      shDone (setSh s d (putScratch (shOf s d) a g.2)) d rd (BitVec.ofNat 64 g.1)
/-- ERTGET has its entry: it goes to scratch, and rd takes STATE; one of 5 to 7 is logged. -/
def ertAnswer (s : State) (rd a : Nat) (k b : BitVec 64) (e : Nat) : State :=
  let d := s.die
  let s := setSh s d (putScratch (shOf s d) a (leBytes 16 e))
  shDone (if 5 ≤ ertState e then logCause s d 0x34 2 k b else s) d rd (BitVec.ofNat 64 (ertState e))
/-- The core that stands for a die's Shuttle as the sender of a request. -/
def shuttleCtx : Nat := 8
/-- ERTGET of another module: a request of 16 bytes on VC0 that the reply ends; without a tag or a receive slot it waits. -/
def askWith (s : State) (peer key ix : Nat) : State :=
  let d := s.die
  let f := fabOf s d
  if poolOf f peer = 0 then s
  else
    let s := setFab s d { f with pool := mapSet f.pool 384 peer (poolOf f peer - 1), spent := f.spent ++ [(peer, 9000)] }
    let off := ertOff s d key
    let t := takeTag s shuttleAsks (80 * d) shuttleCtx ix peer 0 0 0 (spanOfBytes (67108864 * peer + ertObj s d) off 16) 0 0 (some 8) 16 (addrWord (ertObj s d) off 15)
    setSh t.1 d { shOf t.1 d with asked := some t.2 }
def askEntry (s : State) (peer key : Nat) : State :=
  (tagFor (fabOf s s.die) shuttleAsks).elim (waitTag s s.die shuttleAsks) (askWith s peer key)
def ertGetOp (s : State) (rd : Nat) (k b : BitVec 64) : State :=
  let d := s.die
  let key := k.toNat % 16777216
  let peer := field k.toNat 24 6
  match scratchFault b.toNat 16 16 with
  | some c => shException s d c b.toNat
  | none =>
    if peer = Config.moduleNumber then ertAnswer s rd b.toNat k b (ertGet s d key)
    else
      let h := shOf s d
      match h.asked, h.answer with
      | none, _ => if peerDown s d peer then shDone (logCause s d 0x2E 2 k b) d rd 7#64 else askEntry s peer key
      | some _, none => s
      | some _, some bs => if bs.length = 16 then ertAnswer s rd b.toNat k b (leVal bs) else shDone (logCause s d 0x2E 2 k b) d rd 7#64
def ertSetOp (s : State) (rd : Nat) (k b : BitVec 64) : State :=
  let d := s.die
  match scratchFault b.toNat 16 16 with
  | some c => shException s d c b.toNat
  | none =>
    let r := ertSet s d (k.toNat % 16777216) (leVal (getBytes (shOf s d).scratch b.toNat 16))
    shDone r.1 d rd (BitVec.ofNat 64 r.2)

/-- GQPOP (R318). -/
def execGqpop (rd rs1 : Nat) (s : State) : Host.Outcome State Fault Refusal := .next (popGate s rd (xOf s rs1).toNat)
/-- RRPUT (R324). -/
def execRrput (rd rs1 rs2 : Nat) (s : State) : Host.Outcome State Fault Refusal :=
  .next (settleCustom s rd 1 (xOf s rs1) (xOf s rs2) (rrput s s.die (xOf s rs1).toNat (xOf s rs2).toNat))
/-- ERTGET (R322). -/
def execErtget (rd rs1 rs2 : Nat) (s : State) : Host.Outcome State Fault Refusal := .next (ertGetOp s rd (xOf s rs1) (xOf s rs2))
/-- ERTSET (R322). -/
def execErtset (rd rs1 rs2 : Nat) (s : State) : Host.Outcome State Fault Refusal := .next (ertSetOp s rd (xOf s rs1) (xOf s rs2))
/-- PARK (R328). -/
def execPark (rd rs1 rs2 : Nat) (s : State) : Host.Outcome State Fault Refusal :=
  .next (settleCustom s rd 4 (xOf s rs1) (xOf s rs2) (parkRow s s.die (xOf s rs1).toNat (xOf s rs2).toNat))
/-- UNPARK (R328). -/
def execUnpark (rd rs1 : Nat) (s : State) : Host.Outcome State Fault Refusal :=
  .next (settleCustom s rd 5 (xOf s rs1) 0#64 (unpark s s.die (xOf s rs1)))
/-- FWDROW (R326). -/
def execFwdrow (rd rs1 rs2 : Nat) (s : State) : Host.Outcome State Fault Refusal :=
  .next (settleCustom s rd 6 (xOf s rs1) (xOf s rs2) (fwdrow s s.die (xOf s rs1).toNat (xOf s rs2).toNat))
/-- DTILE (R325). -/
def execDtile (rd rs1 : Nat) (s : State) : Host.Outcome State Fault Refusal :=
  .next (settleCustom s rd 7 (xOf s rs1) 0#64 (dtile s s.die (xOf s rs1)))

/-! ## A turn of the Shuttle -/

/-- What the Shuttle fetches: nothing to run, an access fault, or an instruction of 2 or 4 bytes. -/
inductive ShFetch where
  | idle
  | fault (tval : Nat)
  | word (w len : Nat)
  deriving DecidableEq, Repr
/-- WFI waits until the gate queue holds an entry. -/
def waitsGate (s : State) (d : Nat) : Bool := (shOf s d).wfi && (exOf s d).gate.isEmpty
def shFetch (s : State) (d : Nat) : ShFetch :=
  let h := shOf s d
  if !h.running || h.wfi then .idle
  else if !inScratch h.pc 2 then .fault h.pc
  else
    let lo := leVal (getBytes h.scratch h.pc 2)
    if lo % 4 ≠ 3 then .word lo 2
    else if !inScratch (h.pc + 2) 2 then .fault (h.pc + 2)
    else .word (leVal (getBytes h.scratch h.pc 4)) 4
/-- A cycle and, but for a wait, an instruction are counted (mcycle, minstret). -/
def countSh (s : State) (d : Nat) (ran : Bool) : State :=
  let h := shOf s d
  let h := csrSet h 0xB00 (csrGet h 0xB00 + 1#64)
  setSh s d (if ran then csrSet h 0xB02 (csrGet h 0xB02 + 1#64) else h)
/-- The core leaves WFI. -/
def wakeShuttle (s : State) (d : Nat) : State := if (exOf s d).gate.isEmpty then s else setSh s d { shOf s d with wfi := false }

/-- SHUTTLE_EXCEPTION (R312). -/
def execShuttleException (die cause tval : Nat) (s : State) : Host.Outcome State Fault Refusal := .next (shException s die cause tval)
/-- WFI_WAKE (R312). -/
def execWfiWake (die : Nat) (s : State) : Host.Outcome State Fault Refusal := .next (wakeShuttle s die)
/-- SCLOGC_READ (26 R446). -/
def execSclogcRead (die : Nat) (s : State) : Host.Outcome State Fault Refusal := .next (clearLogCount s die)
/-- SCLOG0_READ (26 R446). -/
def execSclog0Read (die : Nat) (s : State) : Host.Outcome State Fault Refusal := .next (freeLog s die)
/-- The count of a die's log, whenever it is not 0, goes to the host. -/
def reportCauses (s : State) (d : Nat) : State := if (exOf s d).logCount = 0 then s else report s 0x34 (d + 16 * (exOf s d).logCount)
/-- SHUTTLE_CAUSE_LOG_REPORT (26 R446). -/
def execShuttleCauseLogReport (die : Nat) (s : State) : Host.Outcome State Fault Refusal := .next (reportCauses s die)

end Sys2Proof.Machine
end

