-- ==== Sys2Proof/Machine/FabricTx.lean ====
section
/-! DEFINITION. Machine/FabricTx.lean: positions, flits sent and flits received (15 R296 to R307, 25 R428 to R433, R436, R439). Idle
flits are not listed (log 32). -/

namespace Sys2Proof.Machine

/-! ## Registers and reports of the fabric (25 R441) -/

/-- Add to a saturating 16-bit count of FABERR: bit 0 FLITERR, 16 OVERRUN, 32 ABAND, 48 ROWLOST. -/
def countFab (s : State) (d lo : Nat) : State :=
  let die := dieOf s d
  let v := regRaw die 0x0750
  setDie (noteHw s d 0x0750 v (fun n => putField n lo 16 (Nat.min 65535 (field n lo 16 + 1)))) d
    (setReg die 0x0750 (putField v lo 16 (Nat.min 65535 (field v lo 16 + 1))))
/-- OPTEVT: a KIND bit, with the ring and line of the event. -/
def optEvent (s : State) (d bit ring line : Nat) : State :=
  let die := dieOf s d
  let s := noteHw s d 0x0748 (regRaw die 0x0748) (fun n => n ||| 2 ^ bit)
  setDie s d (setReg die 0x0748 ((regRaw die 0x0748 % 16 ||| 2 ^ bit) + 16 * ring + 1024 * line))
/-- FABCFG.RLEN in effect and RTHR. -/
def relayOn (s : State) (d : Nat) : Bool := field (regRead s d 0x0710) 0 1 = 1
def relayThreshold (s : State) (d : Nat) : Nat := field (regRaw (dieOf s d) 0x0710) 1 13
/-- FIBDLY of a port. -/
def fibreDelay (s : State) (d port : Nat) : Nat := field (regRaw (dieOf s d) (0x0720 + 8 * port)) 0 16
/-- The module is desynchronised (R439): every unit sends nothing from the next slot on, and each reports it. -/
def desynchronise (s : State) : State :=
  let at_ := s.now + 640 - slotCycle s
  let s := report s 0x32 0
  (List.range 8).foldl (fun s d =>
    let f := fabOf s d
    optEvent (setFab s d { f with desync := some (f.desync.getD at_) }) d 3 0 0) s

/-! ## Which flit leaves (15 R303, R306) -/

/-- The context of a flit that a context sent, as 8 × core + context; the others of a channel share one place. -/
def flitCtx (f : Fabric) (g : Flit) : Nat :=
  if g.vc = 0 || g.vc = 4 then let t := tagAt' f (g.tag % 512); 8 * t.core + t.ctx else 0
/-- A request forwarded by this module for another (R248). -/
def isForwarded (g : Flit) : Bool := g.aux / 131072 % 2 = 1
/-- The flit was paid for when its request was made. -/
def paidFlit (g : Flit) : Bool := (g.vc == 0 || g.vc == 4) && !isForwarded g
/-- A receive slot at the peer is at hand: VC1 has its own reserve, a slot return takes none, and the rest draw on the pool. -/
def slotAtHand (f : Fabric) (g : Flit) : Bool :=
  paidFlit g || g.kind == 12 || (if g.vc = 1 then decide (0 < mapGet f.pool1 64 g.dst) else decide (0 < poolOf f g.dst))
/-- Queued flits that come to wait for a receive slot count once each for event source 3 (02 R37). -/
def countShort (s : State) (d : Nat) : State :=
  let f := fabOf s d
  let waiting := f.sendQ.filter (fun g => !slotAtHand f g)
  if waiting = f.short then s
  else countEvent (setFab s d { f with short := waiting }) d 3 (f.short.foldl (fun l g => l.erase g) waiting).length
/-- Pay for a flit that leaves. -/
def payFlit (f : Fabric) (g : Flit) : Fabric :=
  if paidFlit g || g.kind = 12 then f
  else if g.vc = 1 then { f with pool1 := mapSet f.pool1 64 g.dst (mapGet f.pool1 64 g.dst - 1), spent := f.spent ++ [(g.dst, 8001)] }
  else { f with pool := mapSet f.pool 384 g.dst (poolOf f g.dst - 1), spent := f.spent ++ [(g.dst, 8000 + g.vc)] }
/-- A request that has not left and that its source holds back. -/
def flitHeld (s : State) (d : Nat) (g : Flit) : Bool :=
  paidFlit g && (let t := tagAt' (fabOf s d) (g.tag % 512); t.sent.isNone && tagHeld s d t)
/-- The modules a die reaches in a slot. -/
def reaches (s : State) (d slot : Nat) : List Nat :=
  (ringPlaces.filter (fun pm => ringServes s d slot pm.1 pm.2)).map (fun pm => (Config.moduleNumber + txChan (patEntry (dieOf s d) slot pm.1 pm.2)) % 64)
/-- Slots from now until the pattern takes module v to module j; 8 for never. -/
def patternWait (s : State) (d v j : Nat) : Nat :=
  let ch := (j + 64 - v) % 64
  ((List.range 8).find? (fun i => ringPlaces.any (fun pm =>
    let e := entryOf (dieOf s d) v ((slotNow s + i) % 8) pm.1 pm.2; txOn e && txChan e == ch))).getD 8
/-- The channels that relay. -/
def relayVc (vc : Nat) : Bool := vc == 0 || vc == 1 || vc == 2 || vc == 4 || vc == 6
/-- The intermediate of a flit that is to be relayed now: the module of this slot with the soonest slot to its destination, the lowest of
those that tie, with a VC7 slot in hand. -/
def relayVia (s : State) (d : Nat) (g : Flit) : Option Nat :=
  let far := match slotWait s d (chanTo g.dst) with | none => true | some w => decide (relayThreshold s d < w)
  if !relayOn s d || !relayVc g.vc || g.kind = 12 || !far then none
  else
    let vs := (reaches s d (slotNow s)).filter (fun v => v != g.dst && v != Config.moduleNumber && decide (0 < mapGet (fabOf s d).pool7 64 v) && decide (patternWait s d v g.dst < 8))
    match vs with
    | [] => none
    | a :: rest => some (rest.foldl (fun b v => let x := patternWait s d v g.dst; let y := patternWait s d b g.dst; if x < y || (x = y && v < b) then v else b) a)
/-- During the first rotation of a pattern repair only idle flits leave, in its second and after one that failed those of VC5 too (R440). -/
def repairAllows (s : State) (vc : Nat) : Bool :=
  match s.ga.repair with
  | some a => if s.rot = a then false else if s.rot = a + 1 || s.ga.repairFailed then vc == 5 else true
  | none => true
/-- The operation a flit belongs to. -/
def opKey (g : Flit) : List Nat := [g.dst, g.vc, g.kind, g.tag, g.inc]
/-- A request of the context ahead of this one, to the same module, on the same channel and in the same class, is held: it goes first (13 R274). -/
def passesHeld (s : State) (d : Nat) (g : Flit) : Bool :=
  let f := fabOf s d
  let cls : Flit → Nat := fun h => (tagAt' f (h.tag % 512)).cls
  paidFlit g && (f.sendQ.takeWhile (fun h => h != g)).any (fun h => paidFlit h && h.dst == g.dst && h.vc == g.vc && flitCtx f h == flitCtx f g
    && cls h == cls g && flitHeld s d h)
/-- A flit may leave for the peer now: directly, or as the first hop of a relay. The flits of one operation go one way, so that they join in
their order (R302, log 32). -/
def mayLeave (s : State) (d peer : Nat) (g : Flit) : Bool :=
  repairAllows s g.vc && slotAtHand (fabOf s d) g && !flitHeld s d g && !passesHeld s d g
    && (match (fabOf s d).ways.find? (fun w => w.1 == opKey g) with
      | some w => w.2 == peer && (peer == g.dst || decide (0 < mapGet (fabOf s d).pool7 64 peer))
      | none => g.dst == peer || relayVia s d g == some peer)
/-- A flit of an operation has left for the peer. -/
def noteWay (f : Fabric) (peer : Nat) (g : Flit) : Fabric :=
  let rest := f.ways.filter (fun w => w.1 != opKey g)
  { f with ways := if g.last then rest else rest ++ [(opKey g, peer)] }
/-- The next key after `last` in cyclic order. -/
def nextKey (last : Nat) (ks : List Nat) : Option Nat :=
  let lo : List Nat → Option Nat := fun l => match l with | [] => none | a :: r => some (r.foldl Nat.min a)
  match lo (ks.filter (fun k => last < k)) with
  | some k => some k
  | none => lo ks
/-- The flit a modulator takes from one channel, round-robin among contexts. -/
def pickFrom (s : State) (d peer vc : Nat) : Option Flit :=
  let f := fabOf s d
  let cand := f.sendQ.filter (fun g => g.vc == vc && mayLeave s d peer g)
  match nextKey (mapGet f.rr 0 vc) (cand.map (flitCtx f)) with
  | none => none
  | some k => cand.find? (fun g => flitCtx f g == k)
/-- The two-hop relay is on: while it is off no flit is relayed (18 R352). -/
def relayOffered (s : State) : Bool := field s.ga.modFeatures 2 1 = 1
/-- The channels in their strict order; VC7 is the relay queue. -/
def vcOrder : List Nat := [5, 1, 3, 0, 4, 2, 7, 6]
/-- What leaves: a queued flit, or a relayed one with the port whose receive slot it frees. -/
inductive Leaving where
  | own (g : Flit)
  | relayed (port : Nat) (g : Flit)
  deriving DecidableEq, Repr
def pickFlit (s : State) (d peer : Nat) : Option Leaving :=
  vcOrder.findSome? (fun vc =>
    if vc = 7 then
      (if repairAllows s 7 && relayOffered s then ((fabOf s d).relayQ.find? (fun p => p.2.dst == peer)).map (fun p => .relayed p.1 p.2) else none)
    else (pickFrom s d peer vc).map .own)

/-! ## Sending (15 R301 to R304, 25 R428, R429) -/

/-- The key of (VC, peer). -/
def fabKey (f : Fabric) (vc peer : Nat) : FabKey := mapGet f.keys FabKey.init (64 * vc + peer)
/-- The IV of R304: a flit that this module sends, its own or relayed, counts among those its die has sent to DST on VC. -/
def flitIv (d : Nat) (f : Fabric) (g : Flit) : Nat :=
  Config.moduleNumber + 64 * g.dst + 4096 * g.vc + 65536 * (mapGet f.txCount 0 (8 * g.dst + g.vc) % 18446744073709551616) + 2 ^ 80 * d
/-- The header as bytes. -/
def headerBytes (g : Flit) : List Byte :=
  leBytes 8 (g.dst + 64 * g.src + 4096 * g.vc + (if g.rly then 32768 else 0) + 65536 * g.kind + 1048576 * g.cl + 16777216 * g.seq
      + 2 ^ 36 * g.tag + 2 ^ 48 * g.inc + 2 ^ 50 * g.cret + 2 ^ 56 * g.len + (if g.last then 2 ^ 63 else 0))
    ++ leBytes 4 g.via ++ leBytes 4 g.fcrc
/-- One bit and one byte of CRC-32C: polynomial 0x1EDC6F41, bits reflected. -/
def crcBit (r : Nat) : Nat := if r % 2 = 1 then r / 2 ^^^ 0x82F63B78 else r / 2
def crcByte (r : Nat) (b : Byte) : Nat := crcBit (crcBit (crcBit (crcBit (crcBit (crcBit (crcBit (crcBit (r ^^^ b.toNat))))))))
/-- CRC-32C of bytes: it starts at all ones and ends inverted. -/
def crc32c (bs : List Byte) : Nat := bs.foldl crcByte 0xFFFFFFFF ^^^ 0xFFFFFFFF
/-- A flit as it stands on the light on its way to a module, this hop's other end: in CLEAR mode with its FCRC; in SEAL mode its payload is
encrypted, and AUTH and SEAL add the tag in its last 8 bytes (R301, R304, log 20). -/
def protect (s : State) (d peer : Nat) (f : Fabric) (g : Flit) : Flit :=
  let mode := vcMode s g.vc
  if mode = 0 then { g with fcrc := crc32c ((headerBytes g).take 12 ++ leBytes 112 g.payload.toNat) }
  else
    let key := (fabKey f g.vc peer).active
    let iv := flitIv d f g
    let clear := (leBytes 112 g.payload.toNat).take 104
    let body := if mode = 1 then clear else (List.range 104).map (fun i => clear.getD i 0#8 ^^^ Config.keyStream key iv i)
    { g with payload := BitVec.ofNat 896 (leVal (body ++ leBytes 8 (Config.flitTag key iv (headerBytes g ++ body)).toNat)) }
/-- Receive slots that a flit returns. -/
def takeReturns (f : Fabric) (now peer : Nat) : Fabric × Nat :=
  let n := Nat.min 63 (mapGet f.toReturn 0 peer)
  let left := mapGet f.toReturn 0 peer - n
  ({ f with toReturn := mapSet f.toReturn 0 peer left, returnAt := mapSet f.returnAt 0 peer (if left = 0 then 0 else now + 512) }, n)
/-- A flit leaves in a position: it is numbered, carries returned slots, is kept for resends and is listed. -/
def emit (s : State) (d peer : Nat) (pos : FlitPos) (g : Flit) : State :=
  let f := fabOf s d
  let key := 8 * g.dst + g.vc
  let relay := g.dst ≠ peer
  let r : Fabric × Nat := if relay || g.rly then (f, 0) else takeReturns f s.now peer
  let f := r.1
  let g := { g with cret := r.2, rly := g.rly || relay, via := if relay then peer else g.via,
                    seq := if g.rly || relay || g.kind = 12 then 0 else mapGet f.txSeq 0 key }
  let h := protect s d peer f g
  let f := if g.rly || g.kind = 12 then f else { f with txSeq := mapSet f.txSeq 0 key ((g.seq + 1) % 4096) }
  let f := { f with txCount := mapSet f.txCount 0 key (mapGet f.txCount 0 key + 1), lastTx := mapSet f.lastTx 0 (8 * pos.port + pos.pair) (s.now + 1) }
  let f := if relay then { f with pool7 := mapSet f.pool7 64 peer (mapGet f.pool7 64 peer - 1), spent := f.spent ++ [(peer, 8007)] } else f
  let s := setFab s d { f with sent := f.sent ++ [⟨pos, s.now, h⟩] }
  { s with out := { s.out with flits := s.out.flits ++ [(d, pos, h)] } }
/-- The first flit of a request has left: its tag's time runs (R434). -/
def markSent (s : State) (d : Nat) (g : Flit) : State :=
  if !paidFlit g then s
  else let t := tagAt' (fabOf s d) (g.tag % 512); if t.sent.isSome then s else setTag s d (g.tag % 512) { t with sent := some s.now }

/-- A KIND-12 flit with resend requests and, if asked for, the audit count (R429). -/
def controlFlit (peer : Nat) (reqs : List FlitPos) (audit : Option Nat) : Flit :=
  let word : FlitPos → Nat := fun p => p.rot % 4 + 4 * p.slot + 32 * p.port + 128 * p.pair + 1024 * p.k
  let bs := leBytes 2 (reqs.length + (if audit.isSome then 64 else 0)) ++ leBytes 2 (Nat.min 65535 (audit.getD 0)) ++ leBytes 4 0
    ++ reqs.flatMap (fun p => leBytes 2 (word p))
  { dst := peer, src := Config.moduleNumber, vc := 1, rly := false, kind := 12, cl := 0, seq := 0, tag := 0, inc := 0, cret := 0,
    len := bs.length, last := true, via := 0, aux := 0, fcrc := 0, payload := BitVec.ofNat 896 (leVal bs) }
/-- The failed positions of a module that have not been asked for. -/
def unasked (f : Fabric) (peer : Nat) : List Failed := (f.failed.filter (fun x => x.src == peer && x.asked.isNone && decide (x.tries < 3))).take 48
/-- Send the resend requests and the audit that wait for a peer, where a VC1 slot is at hand. -/
def sendControl (s : State) (d peer : Nat) (pos : FlitPos) : Option State :=
  let f := fabOf s d
  let reqs := unasked f peer
  let audit := f.audits.contains peer
  if (reqs.isEmpty && !audit) || mapGet f.pool1 64 peer = 0 then none
  else
    let g := controlFlit peer (reqs.map (·.pos)) (if audit then some (heldFor f peer) else none)
    let f := { f with
      failed := f.failed.map (fun x => if reqs.contains x then { x with asked := some s.now } else x)
      audits := f.audits.filter (fun j => j != peer)
      pool1 := mapSet f.pool1 64 peer (mapGet f.pool1 64 peer - 1)
      spent := f.spent ++ [(peer, 8001)] }
    some (emit (setFab s d f) d peer pos g)
/-- The flit number whose transmission starts in this cycle of a slot. -/
def flitNow (s : State) : Option Nat := (List.range 54).find? (fun k => slotCycle s = 20 + 80 * k / 7)
/-- The unit may use its transmitters. -/
def fabricSpeaks (s : State) (d : Nat) : Bool := !(fabOf s d).desync.any (fun c => c ≤ s.now)
/-- The module a flit went to: the first hop of one that is to be relayed, else its destination. -/
def hopOf (g : Flit) : Nat := if g.rly && g.via ≠ Config.moduleNumber then g.via else g.dst
/-- One modulator in one position, once: resend requests in flit number 0, then resends, then flits in channel order; else it is idle. -/
def transmit (s : State) (d port pair : Nat) : State :=
  match flitNow s with
  | none => s
  | some k =>
    let slot := slotNow s
    let ch := txChan (patEntry (dieOf s d) slot port pair)
    let peer := (Config.moduleNumber + ch) % 64
    if ch = 0 || !ringServes s d slot port pair || !fabricSpeaks s d || mapGet (fabOf s d).lastTx 0 (8 * port + pair) = s.now + 1 then s
    else
      let pos : FlitPos := ⟨s.rot % 4, slot, port, pair, k⟩
      match if k = 0 && repairAllows s 1 then sendControl s d peer pos else none with
      | some t => t
      | none =>
        let f := fabOf s d
        match f.resend.find? (fun r => hopOf r.flit == peer && repairAllows s r.flit.vc) with
        | some r =>
          let s := setFab s d { f with resend := f.resend.erase r, lastTx := mapSet f.lastTx 0 (8 * port + pair) (s.now + 1) }
          { s with out := { s.out with flits := s.out.flits ++ [(d, r.pos, r.flit)] } }
        | none =>
          match pickFlit s d peer with
          | none => s
          | some (.own g) =>
            let s := setFab s d (let f := payFlit (fabOf s d) g; { noteWay f peer g with sendQ := f.sendQ.erase g, rr := mapSet f.rr 0 g.vc (flitCtx f g) })
            emit (markSent s d g) d peer pos g
          | some (.relayed p g) =>
            let f := fabOf s d
            emit (setFab s d (freeSlot s.now { f with relayQ := f.relayQ.erase (p, g) } p g.src)) d peer pos g
/-- FLIT_TRANSMIT (R303). -/
def execFlitTransmit (die port pair : Nat) (s : State) : Host.Outcome State Fault Refusal := .next (transmit s die (port % 4) (pair % 8))
/-- Some flit could leave. -/
def fabricBusy (f : Fabric) : Bool := !f.sendQ.isEmpty || !f.resend.isEmpty || !f.relayQ.isEmpty || !f.failed.isEmpty || !f.audits.isEmpty
/-- Every modulator of a die whose flit starts in this cycle. -/
def transmitAll (s : State) (d : Nat) : State :=
  if fabricBusy (fabOf s d) && (flitNow s).isSome then ringPlaces.foldl (fun s pm => transmit s d pm.1 pm.2) s else s

/-! ## Receiving (25 R428 to R431, R433) -/

/-- Slots come back to who spent them first (R307). -/
def creditSlots (s : State) (d peer n : Nat) : State :=
  match n with
  | 0 => s
  | n + 1 =>
    let f := fabOf s d
    match f.spent.find? (fun e => e.1 == peer) with
    | none => s
    | some e =>
      let f := { f with spent := f.spent.erase e }
      let s := if e.2 < 8000 then
          let k := e.2 / 8
          let x := e.2 % 8
          let c := ctxOf s k x
          setCtx (setFab s d f) k x (setFsc c peer (fscOf c peer + 1))
        else if e.2 = 8001 then setFab s d { f with pool1 := mapSet f.pool1 64 peer (mapGet f.pool1 64 peer + 1) }
        else if e.2 = 8007 then setFab s d { f with pool7 := mapSet f.pool7 64 peer (mapGet f.pool7 64 peer + 1) }
        else setFab s d { f with pool := mapSet f.pool 384 peer (poolOf f peer + 1) }
      creditSlots s d peer n
/-- The pool that an audit states (R433). -/
def auditPool (s : State) (d peer held : Nat) : Nat :=
  let fsc := ((List.range 80).map (fun i => ((List.range 8).map (fun x => fscOf (ctxOf s (80 * d + i) x) peer)).foldl (· + ·) 0)).foldl (· + ·) 0
  384 - held - (fsc + ((fabOf s d).spent.filter (fun e => e.1 == peer)).length)
/-- The named position's flit, if it left within the last three rotations: the one kept, or an idle flit. -/
def keptFlit (s : State) (d peer w : Nat) : Option Sent :=
  let p : FlitPos := ⟨w % 4, w / 4 % 8, w / 32 % 4, w / 128 % 8, w / 1024 % 64⟩
  let age := (s.rot + 4 - p.rot) % 4
  let start := s.rotAt + 640 * p.slot + 20 + 80 * p.k / 7
  if (s.now : Int) < start - 5120 * age || (start : Int) - 5120 * age + 15360 ≤ s.now || s.rot < age then none
  else
    match (fabOf s d).sent.find? (fun x => x.pos == p && decide (s.now < x.left + 15360)) with
    | some x => some x
    | none => some ⟨p, s.now, { controlFlit peer [] none with len := 0, payload := 0#896 }⟩
/-- A KIND-12 flit is taken: its resend requests and its audit. -/
def takeControl (s : State) (d : Nat) (g : Flit) : State :=
  let bs := Flit.bytes g
  let w := leVal (bs.take 2)
  let n := Nat.min 48 (w % 64)
  let asked := (List.range n).filterMap (fun r => keptFlit s d g.src (leVal ((bs.drop (8 + 2 * r)).take 2)))
  let f := fabOf s d
  let s := setFab s d { f with resend := f.resend ++ asked.filter (fun x => !f.resend.any (fun y => y.pos == x.pos)) }
  if field w 6 1 = 1 then
    let f := fabOf s d
    setFab s d { f with corrections := mapSet f.corrections 0 g.src (auditPool s d g.src (leVal ((bs.drop 2).take 2)) + 1) }
  else s
/-- A whole operation reaches the unit that takes it. -/
def deliverOp (s : State) (d : Nat) (g : Flit) (ports : List Nat) (bs : List Byte) : State :=
  let f := fabOf s d
  match g.kind with
  | 7 => let x := exOf s d; setEx s d { x with arriving := x.arriving ++ [(g.src, ports, bs)] }
  | 9 =>
    let core := g.aux % 1024
    let h := if core < 640 then dieOfCore core else d
    let e := fabOf s h
    setFab s h { e with messages := e.messages ++ [⟨g.src, d, ports, g.tag, g.inc, core, g.aux / 1024 % 256, bs, none⟩] }
  | 1 => freeSlots (setFab s d { f with replies := f.replies ++ [(g, bs)] }) d g.src ports
  | 3 => freeSlots (setFab s d { f with replies := f.replies ++ [(g, bs)] }) d g.src ports
  | 5 => freeSlots (setFab s d { f with replies := f.replies ++ [(g, bs)] }) d g.src ports
  | 0 => setFab s d { f with served := f.served ++ [⟨g.src, g.vc, g.cl, 0, g.tag, g.inc, g.aux, ports, bs, s.now, none, false, none⟩] }
  | 2 => setFab s d { f with served := f.served ++ [⟨g.src, g.vc, g.cl, 2, g.tag, g.inc, g.aux, ports, bs, s.now, none, false, none⟩] }
  | 4 => setFab s d { f with served := f.served ++ [⟨g.src, g.vc, g.cl, 4, g.tag, g.inc, g.aux, ports, bs, s.now, none, false, none⟩] }
  | 6 => setFab s d { f with served := f.served ++ [⟨g.src, g.vc, g.cl, 6, g.tag, g.inc, g.aux, ports, bs, s.now, none, false, none⟩] }
  | 11 => setFab s d { f with served := f.served ++ [⟨g.src, g.vc, g.cl, 11, g.tag, g.inc, g.aux, ports, bs, s.now, none, false, none⟩] }
  | _ => freeSlots s d g.src ports
/-- The place of a flit that has been abandoned: no port. -/
def lostPort : Nat := 4
/-- The flits of an operation that have come to this die. -/
def ofOperation (p : Part) (g : Flit) : Bool := p.src == g.src && p.vc == g.vc && p.kind == g.kind && p.tag == g.tag && p.inc == g.inc
def joined (f : Fabric) (g : Flit) : List (Nat × Flit) := ((f.parts.find? (fun p => ofOperation p g)).map (·.flits)).getD []
def hasHole (fs : List (Nat × Flit)) : Bool := fs.any (fun p => p.1 == lostPort)
/-- A flit in its order joins the rest of its operation; replies free their slots at once. An operation that has lost a flit is not taken: its
tag recovers it (25 R430, R434), and the slots of its other flits are returned. -/
def deliverFlit (s : State) (d port : Nat) (g : Flit) : State :=
  if g.kind = 12 then s
  else
    let reply := g.kind = 1 || g.kind = 3 || g.kind = 5
    let s := if reply && port ≠ lostPort then freeSlots s d g.src [port] else s
    let f := fabOf s d
    let mine : Part → Bool := fun p => ofOperation p g
    let all := joined f g ++ [(port, g)]
    if g.last then
      let s := setFab s d { f with parts := f.parts.filter (fun p => !mine p) }
      if hasHole all then freeSlots s d g.src (if reply then [] else (all.map (·.1)).filter (fun p => p != lostPort))
      else deliverOp s d g (if reply then [] else all.map (·.1)) (all.flatMap (fun p => Flit.bytes p.2))
    else setFab s d { f with parts := f.parts.filter (fun p => !mine p) ++ [⟨g.src, g.vc, g.kind, g.tag, g.inc, all⟩] }
/-- Deliver the flits that no longer wait for a predecessor (R302). -/
def drainOrder (s : State) (d src vc fuel : Nat) : State :=
  match fuel with
  | 0 => s
  | fuel + 1 =>
    let f := fabOf s d
    let n := mapGet f.rxSeq 0 (8 * src + vc)
    match f.ooo.find? (fun p => p.2.src == src && p.2.vc == vc && p.2.seq == n) with
    | none => s
    | some p =>
      let s := setFab s d { f with ooo := f.ooo.erase p, rxSeq := mapSet f.rxSeq 0 (8 * src + vc) ((n + 1) % 4096) }
      drainOrder (deliverFlit s d p.1 p.2) d src vc fuel
/-- A flit to be relayed waits for its slot. It is dropped while the relay is off, and after an abandoned flit of its operation (log 32). -/
def passOn (s : State) (d port : Nat) (g : Flit) : State :=
  let f := holdSlot (fabOf s d) port g.src
  let holed := hasHole (joined f g)
  let f := if holed && g.last then { f with parts := f.parts.filter (fun p => !ofOperation p g) } else f
  setFab s d (if relayOffered s && !holed then { f with relayQ := f.relayQ ++ [(port, g)] } else freeSlot s.now f port g.src)
/-- A good flit of this module is taken. -/
def acceptFlit (s : State) (d port : Nat) (g : Flit) : State :=
  let s := if g.rly then s else creditSlots s d g.src g.cret
  if g.kind = 12 then
    (if g.len = 0 then s else takeControl (setFab s d (freeSlot s.now (holdSlot (fabOf s d) port g.src) port g.src)) d g)
  else
    let f := holdSlot (fabOf s d) port g.src
    if g.rly && g.dst ≠ Config.moduleNumber then passOn s d port g
    else if g.rly then deliverFlit (setFab s d f) d port g
    else drainOrder (setFab s d { f with ooo := f.ooo ++ [(port, g)] }) d g.src g.vc (f.ooo.length + 2)
/-- Failures of a ring since the last report, and whether a position of it was abandoned. -/
def countFault (s : State) (d port pair : Nat) (abandoned : Bool) : State :=
  let f := fabOf s d
  let key := 8 * port + pair
  let v := mapGet f.faults 0 key
  setFab s d { f with faults := mapSet f.faults 0 key ((if abandoned then v % 65536 else v + 1) + (if abandoned || 65536 ≤ v then 65536 - v / 65536 * 65536 else 0)) }
/-- The module a position is heard from: its receive ring's channel in the pattern of its rotation. -/
def heardFrom (s : State) (d : Nat) (p : FlitPos) : Option Nat :=
  let die := dieOf s d
  let e := bankEntry die (bankIn die p.rot) p.slot p.port p.pair
  let n := 16 * p.port + 8 + p.pair
  if rxOn e && rxChan e ≠ 0 && !mapGet (fabOf s d).retired false n && (!onSpare die n (rxChan e) || spareServes die d n (rxChan e)) then
    some ((Config.moduleNumber + 64 - rxChan e) % 64)
  else none
/-- The cycle that is heard now at a port, counted from the start of the rotation `heardBack` before this one (R295). -/
def heardBack (s : State) (d port : Nat) : Nat :=
  let t := s.now - s.rotAt
  let w := fibreDelay s d port
  if w ≤ t then 0 else (w - t + 5119) / 5120
def heardCycle (s : State) (d port : Nat) : Nat := 5120 * heardBack s d port + (s.now - s.rotAt) - fibreDelay s d port
/-- The rotation and slot of the receive window at a port (R295). -/
def windowNow (s : State) (d port : Nat) : Nat × Nat := (s.rot - heardBack s d port, heardCycle s d port / 640 % 8)
/-- The window is open: not in the slot's guard (R296). -/
def windowOpen (s : State) (d port : Nat) : Bool := decide (20 ≤ heardCycle s d port % 640)
/-- Some receive ring hears the module now. -/
def hearsNow (s : State) (d src : Nat) : Bool :=
  ringPlaces.any (fun pm => let w := windowNow s d pm.1; windowOpen s d pm.1 && heardFrom s d ⟨w.1, w.2, pm.1, pm.2, 0⟩ == some src)
/-- A flit that is not for this module, neither as its destination nor as its relay. -/
def astray (g : Flit) : Bool := g.dst ≠ Config.moduleNumber && !(g.rly && g.via == Config.moduleNumber)
/-- Positions that fail with good light, or carry another module's flit, count towards desynchronisation (R439). -/
def countBad (s : State) (d : Nat) : State :=
  let f := fabOf s d
  let s := setFab s d { f with badPos := f.badPos + 1 }
  if f.badPos + 1 = 16 then desynchronise s else s
def goodLight (s : State) (d port pair : Nat) : Bool :=
  decide (field (regRaw (dieOf s d) 0x0740) 12 12 ≤ field (regRaw (dieOf s d) (0x0200 + 8 * (16 * port + 8 + pair))) 0 12)
/-- The modules heard from. -/
def sourcesHeard (f : Fabric) : List Nat :=
  ((f.rxSeq.map (fun (p : Nat × Nat) => p.1 / 8)) ++ (f.held.map (fun (p : Nat × Nat) => p.1 % 64))).eraseDups
/-- The next KIND-12 flit to each source states the slots held for it (R433). -/
def auditAll (f : Fabric) : Fabric := { f with audits := f.audits ++ (sourcesHeard f).filter (fun j => !f.audits.contains j) }
/-- An overrun at a port: it is counted and reported, and every source is audited (R433). -/
def overrunAt (s : State) (d port : Nat) : State :=
  let s := report (countFab s d 16) 0x2D (d + 8 * port)
  setFab s d (auditAll (fabOf s d))
/-- A position fails: the flit is dropped, counted, and will be asked for. -/
def failPosition (s : State) (d src : Nat) (p : FlitPos) (g : Flit) (overrun : Bool) : State :=
  let s := countFault (if overrun then overrunAt s d p.port else countFab s d 0) d p.port p.pair false
  let f := fabOf s d
  let room := heldAt f p.port src < 128
  let f := if room && !overrun then holdSlot f p.port src else f
  let s := setFab s d { f with failed := f.failed ++ [⟨src, p, g, room && !overrun, 0, none⟩] }
  if !overrun && goodLight s d p.port p.pair then countBad s d else s
/-- A receiver checks a position (R428): `q` names it as the flit schedule does, `good` says that its check passed. A position is taken at most
once; a copy of a failed position is its resend, which comes in a later window of its module. Nothing is taken outside a window. -/
def receive (s : State) (d : Nat) (q : FlitPos) (g : Flit) (good : Bool) : State :=
  let w := windowNow s d q.port
  let f := fabOf s d
  let own := windowOpen s d q.port && w.1 % 4 = q.rot % 4 && w.2 = q.slot
  let p : FlitPos := { q with rot := w.1 - (w.1 + 4 - q.rot % 4) % 4 }
  let again := f.failed.find? (fun x => { x.pos with rot := x.pos.rot % 4 } == { q with rot := q.rot % 4 })
  match own, heardFrom s d p, again with
  | false, _, some x =>
      let src := x.src
      if !hearsNow s d src then s
      else if !good then setFab s d { f with failed := f.failed.map (fun y => if y == x then { y with tries := y.tries + 1, asked := none } else y) }
      else if !x.held && g.kind ≠ 12 && 128 ≤ heldAt f q.port src then
        overrunAt (setFab s d { f with failed := f.failed.map (fun y => if y == x then { y with tries := y.tries + 1, asked := none } else y) }) d q.port
      else
        let f := { f with failed := f.failed.filter (fun y => y != x), taken := f.taken ++ [(src, x.pos)] }
        let f := if x.held then { f with held := mapSet f.held 0 (64 * q.port + src) (heldAt f q.port src - 1) } else f
        if astray g then countBad (setFab s d f) d else acceptFlit (setFab s d f) d q.port g
  | true, some src, _ =>
      if f.taken.contains (src, p) || f.failed.any (fun x => x.src == src && x.pos == p) then s
      else if !good then failPosition s d src p g false
      else if g.kind ≠ 12 && 128 ≤ heldAt f q.port src then failPosition s d src p g true
      else
        let s := setFab s d { f with taken := f.taken ++ [(src, p)] }
        if astray g then countBad s d else acceptFlit s d q.port g
  | _, _, _ => s
/-- FLIT_RECEIVE (R428). -/
def execFlitReceive (die : Nat) (pos : FlitPos) (f : Flit) (good : Bool) (s : State) : Host.Outcome State Fault Refusal :=
  .next (receive s die pos f good)

/-! ## Positions that stay failed (25 R430), replay store (R429) -/

/-- A resend that has not come within two rotations of its request has failed. -/
def expireWaits (s : State) (d : Nat) : State :=
  let f := fabOf s d
  setFab s d { f with failed := f.failed.map (fun x => if x.asked.any (fun c => c + 10240 ≤ s.now) then { x with tries := x.tries + 1, asked := none } else x) }
/-- A position that can no longer be filled. -/
def isLost (s : State) (x : Failed) : Bool := decide (3 ≤ x.tries) || decide (x.pos.rot + 4 < s.rot)
/-- The receiver gives it up: the order goes on past it with a hole in its operation, its slot is returned, and it is counted. -/
def abandonOne (s : State) (d : Nat) (x : Failed) : State :=
  let f := fabOf s d
  let s := setFab s d { f with failed := f.failed.filter (fun y => y != x) }
  let s := if x.held then setFab s d (freeSlot s.now (fabOf s d) x.pos.port x.src) else s
  let s := countFault (countFab s d 32) d x.pos.port x.pos.pair true
  let s := if x.flit.kind = 7 then countFab s d 48 else s
  if x.flit.kind = 12 then s
  else if x.flit.rly then deliverFlit s d lostPort x.flit
  else
    let f := fabOf s d
    drainOrder (setFab s d { f with ooo := f.ooo ++ [(lostPort, x.flit)] }) d x.flit.src x.flit.vc (f.ooo.length + 2)
def abandonLost (s : State) (d : Nat) : State := ((fabOf s d).failed.filter (isLost s)).foldl (fun s x => abandonOne s d x) s
def expireReplay (s : State) (d : Nat) : State :=
  let f := fabOf s d
  setFab s d { f with sent := f.sent.filter (fun x => s.now < x.left + 15360), resend := f.resend.filter (fun x => s.now < x.left + 15360) }
/-- RESEND_WAIT_EXPIRY (R430). -/
def execResendWaitExpiry (die : Nat) (s : State) : Host.Outcome State Fault Refusal := .next (expireWaits s die)
/-- POSITION_ABANDON (R430). -/
def execPositionAbandon (die : Nat) (s : State) : Host.Outcome State Fault Refusal := .next (abandonLost s die)
/-- REPLAY_STORE_EXPIRY (R429). -/
def execReplayStoreExpiry (die : Nat) (s : State) : Host.Outcome State Fault Refusal := .next (expireReplay s die)

/-! ## Slot returns and audits (15 R307, 25 R433) -/

/-- Freed slots that no flit has returned for 512 cycles leave in a KIND-12 flit. -/
def returnTimer (s : State) (d peer : Nat) : State :=
  let f := fabOf s d
  let t := mapGet f.returnAt 0 peer
  if t = 0 || s.now < t || f.sendQ.any (fun g => g.dst == peer && g.kind == 12) then s
  else setFab s d { f with sendQ := f.sendQ ++ [{ controlFlit peer [] none with len := 0, payload := 0#896 }] }
/-- SLOT_RETURN_TIMER (R307). -/
def execSlotReturnTimer (die peer : Nat) (s : State) : Host.Outcome State Fault Refusal := .next (returnTimer s die (peer % 64))
/-- The next KIND-12 flit to the peer states the slots held. -/
def askAudit (s : State) (d peer : Nat) : State :=
  let f := fabOf s d
  if f.audits.contains peer then s else setFab s d { f with audits := f.audits ++ [peer] }
/-- SLOT_AUDIT (R433). -/
def execSlotAudit (die peer : Nat) (s : State) : Host.Outcome State Fault Refusal := .next (askAudit s die (peer % 64))

/-! ## Unreachable peers (25 R436) -/

/-- PEERDOWN of a die: peers without a direct entry for which no module that the die reaches, in any slot, could relay. -/
def peersDown (s : State) (d : Nat) : Nat :=
  let reach := (List.range 8).flatMap (fun i => reaches s d i)
  (List.range 64).foldl (fun m j =>
    if j = Config.moduleNumber || reach.contains j || (relayOn s d && reach.any (fun v => v != Config.moduleNumber && v != j && decide (patternWait s d v j < 8))) then m
    else m + 2 ^ j) 0
def refreshPeers (s : State) (d : Nat) : State := setDie s d (setReg (dieOf s d) 0x0760 (peersDown s d))

end Sys2Proof.Machine
end

