-- ==== Sys2Proof/Machine/Context.lean ====
section
/-! DEFINITION. Machine/Context.lean: context images (12 R258 to R261, 26 R445) and ERTQ (16 R323). -/

namespace Sys2Proof.Machine

/-! ## Images (R259) -/

/-- Rows of every bank a context owns or has an image of. -/
def imageBanks (v : Vrf) (x : Nat) : List Image :=
  (List.range 48).filterMap (fun b =>
    if bankOwner v b = x + 1 then some ⟨x, b, bankRows v b⟩
    else if hasImage v x b then some ⟨x, b, imageRows v x b⟩ else none)
def tilesOf (c : Core) (x : Nat) : List Nat := (List.range 16).filter (fun t => mapGet c.bufs.tileOwner 0 t % 64 = x + 1)
/-- LEN: 64 bytes, 32 KiB of state, the rows of the configured queues, the tiles (log 36). -/
def imageLen (s : State) (k x : Nat) : Nat :=
  let c := ctxOf s k x
  64 + 32768 + 128 * (c.qcfg.map (fun q => if q.2.cls = 0 then 0 else q.2.depth)).foldl (· + ·) 0 + 81920 * (tilesOf (coreOf s k) x).length
/-- A subscription has something to finish: a slot on its way, or, for a store one, a slot published (09 R189). -/
def subOpen (s : State) (k : Nat) (u : Sub) : Bool := u.busy || (u.store && slotReady u (hdrAt s k u.buf u.hdr))
def subQuiet (s : State) (k : Nat) (u : Sub) : Bool := !subOpen s k u
/-- The architected 64 bytes. -/
def imageHeader (s : State) (k x : Nat) (stop : Bool) : List Byte :=
  let c := ctxOf s k x
  let quiet := c.eng.subs.all (fun u => u.quiesced || (stop && subQuiet s k u))
  let task : Nat := match c.task with | some (d, r) => r + 16384 * d | none => 0
  leBytes 8 (imageLen s k x + 4294967296 * k + 4398046511104 * x + (if stop then 35184372088832 else 0) + (if quiet then 70368744177664 else 0)
      + (if c.sp.hmode then 140737488355328 else 0))
    ++ leBytes 8 c.pc ++ leBytes 8 task ++ leBytes 8 (coreOf s k).lines ++ List.replicate 32 0#8
/-- The byte of the typed buffers is in tile t. -/
def inTile (t a : Nat) : Bool := decide (bufKey 2 (81920 * t) ≤ a) && decide (a < bufKey 2 (81920 * t + 81920))
/-- Take the image of a context, with the poison of what it holds (22 R389): its body is kept apart. -/
def takeImage (s : State) (k x : Nat) : State × Nat :=
  let c := ctxOf s k x
  let co := coreOf s k
  let cells := (tilesOf co x).map (fun t => (t, (⟨co.bufs.bytes.filter (fun b => inTile t b.1),
    (co.bufs.bad.filter (fun b => inTile t (64 * b.1) && b.2)).map (·.1)⟩ : Spill)))
  ({ s with images := s.images ++ [⟨{ c with saves := [], heldOut := false }, imageBanks co.vrf x, cells, c.task, false⟩] }, s.images.length)
/-- The image is written: header, then a body that RESTORE reads by the number it begins with. -/
def writeImage (s : State) (k w : Nat) (place : List (Nat × Nat × Nat)) (hdr : List Byte) (n : Nat) : State :=
  writePieces s k w place (hdr ++ leBytes 8 (n + 1)) false false
/-- A parked context gives up its banks and tiles (R260). -/
def releaseBanks (s : State) (k x : Nat) : State :=
  let co := coreOf s k
  let v := co.vrf
  let mine := (List.range 48).filter (fun b => bankOwner v b = x + 1)
  let v := mine.foldl (fun v b => { setBankRows v b [] with owner := mapSet v.owner 0 b 0 }) v
  let v := { v with images := v.images.filter (fun i => i.ctx != x), backing := v.backing.filter (fun i => i.ctx != x) }
  let mine := (tilesOf co x).filter (fun t => mapGet co.bufs.tileOwner 0 t = x + 1)
  let b := { co.bufs with tileOwner := mine.foldl (fun m t => mapSet m 0 t 0) co.bufs.tileOwner }
  setCore s k { co with vrf := v, bufs := b }
/-- Operations of the context in the MX queue. -/
def mxOpen (s : State) (k x : Nat) : Bool := (coreOf s k).mx.q.any (fun m => m.ctx == x)
/-- A command at a boundary of its beats: no beat and no request of it is on its way, and a collective or a checkpoint mark that has begun has
ended. -/
def cmdStopped (s : State) (k : Nat) (m : Cmd) : Bool :=
  m.tag.isNone && !beatsOpen s k m.seq && (m.upc == 0 || (match m.kind with | .coll _ | .ckmark _ => false | _ => true))
/-- Nothing of the context is on its way: what a stop waits for. -/
def stoppable (s : State) (k x : Nat) : Bool :=
  let c := ctxOf s k x
  let e := c.eng
  !mxOpen s k x && e.subs.all (subQuiet s k) && (e.copy ++ e.sfe ++ e.send ++ e.coll ++ e.ck ++ e.gq).all (cmdStopped s k)
    && !(openReqs s k).any (fun v => v.ctx == x) && !(coreOf s k).ms.loads.any (fun l => l.ctx == x) && c.reqs.isEmpty

/-! ## CTXSAVE (R258, R260) -/

/-- The pieces of the first n bytes of a span. -/
def firstBytes (n : Nat) (ps : List (Nat × Nat × Nat)) : List (Nat × Nat × Nat) :=
  match ps with
  | [] => []
  | p :: rest => if n = 0 then [] else (p.1, p.2.1, Nat.min n p.2.2) :: firstBytes (n - Nat.min n p.2.2) rest
/-- A save with STOP holds the engines of context x (R260). -/
def stopHolds (s : State) (k x : Nat) : Bool := (List.range 8).any (fun y => (ctxOf s k y).saves.any (fun r => r.stop && r.target == x))
/-- FN: CTX [2:0], SELF [3], CB [7:4], SEM [11:8], STOP [12]. -/
def opCtxsave (f : YX) : Op := fun i => do
  let self := field f.fn 3 1 = 1
  let x := if self then i.st.cx else f.fn % 8
  let self := x = i.st.cx
  let stop := field f.fn 12 1 = 1
  let o := i.globalOff f.xa 0 1
  let k := i.st.core
  let n := imageLen i.st k x
  if self && mxOpen i.st k x then stallNow
  else
    let l ← o.1.locate (field f.fn 4 4) o.2 n 64 rSTORE 0 true 0x16 none
    match l.2 with
    | .reg _ _ => .ok l.1
    | .mem ps =>
      -- header and the first 8 bytes of the body
      let place := firstBytes 72 ps
      let sem := field f.fn 8 4
      let j := l.1.atLast (fun s =>
        let d := Config.unitDelay s.free
        let s := { s with free := s.free + 1 }
        let t : State × Option Nat := if self && !stop then let r := takeImage s k x; (writeImage r.1 k (actCtx s).world place (imageHeader s k x false) r.2, some r.2) else (s, none)
        let s := t.1
        let c := actCtx s
        let s := setAct s { c with saves := c.saves ++ [⟨x, sem, stop, place, t.2, s.now + 1 + d⟩] }
        if self && !stop then s else setCtx s k x { ctxOf s k x with heldOut := true })
      .ok (if self && stop then { j with stop := .park 0 } else j)
/-- The image of a save is performed: the semaphore counts; a stopped context is parked, another goes on. -/
def imagePerformed (s : State) (k x : Nat) : State :=
  match (ctxOf s k x).saves with
  | [] => s
  | r :: rest =>
    let y := r.target
    let ready := decide (r.due ≤ s.now) && (r.image.isSome || (if r.stop then stoppable s k y else !mxOpen s k y))
    if !ready then s
    else
      let s := setCtx s k x { ctxOf s k x with saves := rest }
      let s := if r.image.isSome then s
        else
          let h := imageHeader s k y r.stop
          let t := takeImage s k y
          let s := writeImage t.1 k (ctxOf s k x).world r.place h t.2
          let c := ctxOf s k y
          if r.stop then releaseBanks (setCtx s k y { c with status := .parked, toRun := false, heldOut := false }) k y
          else setCtx s k y { c with heldOut := false }
      creditSem s k x r.sem 4
/-- CTXSAVE_IMAGE_PERFORMED (R260). -/
def execCtxsaveImagePerformed (core ctx : Nat) (s : State) : Host.Outcome State Fault Refusal := .next (imagePerformed s core ctx)

/-! ## RESTORE (R261, 26 R445) -/

/-- The lowest dormant context of a core. -/
def lowestDormant (s : State) (k : Nat) : Option Nat := (List.range 8).find? (fun x => (ctxOf s k x).status == .dormant)
/-- A line's segment holds both cores. -/
def sameSegment (s : State) (line a b : Nat) : Bool :=
  segOf s a line == segOf s b line && (if segOf s a line = 11 then sameGroup s (dieOfCore a) (dieOfCore b) else dieOfCore a == dieOfCore b)
/-- The task's parked context. -/
def parkedAt (s : State) (d r : Nat) : Option (Nat × Nat) :=
  match (taskOf s d r).ctx with
  | some (k, x) => if (ctxOf s k x).status == .parked && (ctxOf s k x).task == some (d, r) then some (k, x) else none
  | none => none
/-- The commands of a restored context take their places in the order of the core's requests. -/
def renumber (s : State) (k x : Nat) : State :=
  let e := (ctxOf s k x).eng
  let n := (coreOf s k).ms.seq
  let all := e.copy ++ e.sfe ++ e.send ++ e.coll ++ e.ck ++ e.gq ++ e.subs.map (·.cmd)
  let place : Cmd → Cmd := fun m => { m with seq := n + (all.findIdx (fun o => o.seq == m.seq)) }
  let c := coreOf s k
  let s := setCore s k { c with ms := { c.ms with seq := n + all.length } }
  let c := ctxOf s k x
  setCtx s k x { c with eng := { e with
    copy := e.copy.map place, sfe := e.sfe.map place, send := e.send.map place, coll := e.coll.map place, ck := e.ck.map place, gq := e.gq.map place
    subs := e.subs.map (fun u => { u with cmd := place u.cmd }) } }
/-- Bind an image to context x of core k; the parked context becomes dormant. -/
def bindImage (s : State) (k x : Nat) (v : Saved) (old : Nat × Nat) (d r : Nat) : State :=
  let s := setCtx s old.1 old.2 Ctx.init
  let s := setCtx s k x { v.ctx with status := .bound, toRun := true, task := some (d, r) }
  let s := setRec s d r { taskOf s d r with ctx := some (k, x) }
  let co := coreOf s k
  let vrf := v.banks.foldl (fun w i => putImage w { i with ctx := x }) co.vrf
  let bufs := v.tiles.foldl (fun (b : Bufs) t => { b with
    tileOwner := mapSet b.tileOwner 0 t.1 (x + 1)
    bytes := t.2.bytes.foldl (fun m e => setByte m e.1 e.2) (b.bytes.filter (fun e => !inTile t.1 e.1))
    bad := t.2.bad.foldl (fun m g => mapSet m false g true) (b.bad.filter (fun e => !inTile t.1 (64 * e.1))) }) co.bufs
  reportDormant (reportDormant (renumber (setCore s k { co with vrf := vrf, bufs := bufs }) k x) old.1) k
/-- FN: CB [7:4], SEM [11:8], REL [12]. -/
def opRestore (f : YX) : Op := fun i => do
  let o := i.globalOff f.xa 0 1
  let k := i.st.core
  match lowestDormant i.st k with
  | none => stallNow
  | some x =>
    let l ← o.1.locate (field f.fn 4 4) o.2 72 64 rLOAD 0 false 0x16 none
    match l.2 with
    | .reg _ _ => .ok l.1
    | .mem ps =>
      if ps.isEmpty then .ok l.1
      else
      let bs := l.1.peekMem ps
      let a := leVal (bs.take 8)
      let w1 := leVal ((bs.drop 8).take 8)
      let w2 := leVal ((bs.drop 16).take 8)
      let w3 := leVal ((bs.drop 24).take 8)
      let len := field a 0 32
      let core := field a 32 10
      let d := field w2 14 3
      let r := field w2 0 14
      let n := leVal ((bs.drop 64).take 8)
      let saved := if n = 0 then none else i.st.images[n - 1]?
      let rel := field f.fn 12 1 = 1
      let bad := decide (2129984 < len) || field a 48 16 ≠ 0 || field w1 48 16 ≠ 0 || field w2 17 47 ≠ 0 || field w3 16 48 ≠ 0
        || ((bs.drop 32).take 32).any (fun b => b != 0#8)
      if bad then trapNow 0x02 0
      else
      let whole ← l.1.locate (field f.fn 4 4) o.2 (Nat.max len 72) 64 rLOAD 0 false 0x16 none
      let l := (whole.1, l.2)
      if saved.any (fun v => v.ended) then trapNow 0x23 1
      else
        match saved, parkedAt i.st d r with
        | some v, some old =>
          if field a 45 1 = 0 then trapNow 0x24 2
          else if core ≠ k && (!rel || field a 46 1 = 0) then trapNow 0x24 3
          else
            match (List.range 16).find? (fun t => field w3 t 1 = 1 && !sameSegment i.st t core k) with
            | some t => trapNow 0x24 (4 + 16 * t)
            | none => .ok (l.1.atEnd (fun s =>
                let s := bindImage s k x { v with ctx := { v.ctx with pc := field w1 0 48 } } old d r
                creditSem s k s.cx (field f.fn 8 4) 4))
        | _, _ => trapNow 0x24 2

/-! ## ERTQ (16 R323) -/

/-- What marks a core's read of a residency entry among its loads. -/
def ertMarker : Land := .spoil 64
/-- The value returns w + 192 cycles after issue; the group waits for it, and S[sd] receives it a cycle later. A key that no resident block
holds gives a free value (log 24). -/
def opErtq (f : YX) : Op := fun i =>
  let a := i.s f.xb
  let i := a.1
  let key := a.2.toNat % 16777216
  let s := i.st
  let k := s.core
  match i.core.ms.loads.find? (fun l => l.ctx == s.cx && l.dst == ertMarker) with
  | some l =>
    (match l.got with
    | some g =>
      if l.fin.any (fun t => t ≤ s.now) then
        let c := i.core
        .ok ((i.setCore { c with ms := { c.ms with loads := c.ms.loads.filter (fun u => u.seq != l.seq) } }).writeS 1 f.xa (BitVec.ofNat 64 (leVal g.1)))
      else stallNow
    | none => stallNow)
  | none =>
    match objByte s i.die (ertObj s i.die) (ertOff s i.die key) with
    | none => .ok ({ i with st := { s with free := s.free + 1 } }.writeS 1 f.xa (Config.freeWord s.free))
    | some p =>
      .error (.stall (fun s =>
        let q := takeSeq s k
        let l : LoadReq := { ctx := s.cx, key := 0, cls := 16, world := 0, seq := q.2, pieces := [(p.1, p.2, 8)], own := [], dst := ertMarker, wantTag := false,
                             fill := false, exact := false, reach := none, slot := none, fin := none, got := none }
        let r : State × LoadReq := if dieOfAddr p.1 = dieOfCore k then
            let b := bindSlot q.1 k
            (b.1, { l with slot := some b.2, fin := some (b.2 + 152) })
          else (q.1, { l with reach := some (s.now + 48 * hops (dieOfCore k) (dieOfAddr p.1)) })
        let c := coreOf r.1 k
        setCore r.1 k { c with ms := { c.ms with loads := c.ms.loads ++ [r.2] } }))

/-! ## The instructions: each issues as a group of its own (05 R85) -/

/-- CTXSAVE. -/
def execCtxsave (g : Guard) (f : YX) (s : State) : Host.Outcome State Fault Refusal :=
  .next (issueSyl (.ctxsave g f) (opCtxsave f) s)
/-- RESTORE. -/
def execRestore (g : Guard) (f : YX) (s : State) : Host.Outcome State Fault Refusal :=
  .next (issueSyl (.restore g f) (opRestore f) s)
/-- ERTQ. -/
def execErtq (g : Guard) (f : YX) (s : State) : Host.Outcome State Fault Refusal :=
  .next (issueSyl (.ertq g f) (opErtq f) s)

end Sys2Proof.Machine
end

