-- ==== Sys2Proof/Machine/Sched.lean ====
section
/-! DEFINITION. Machine/Sched.lean: who issues, and how tasks reach contexts and leave them (02 R28 to R41, 12 R243, 14 R278 to R288, 22
R376 to R382, 26 R444): the choice of a context, pre-emption, dispatch, binding, the end of a task, sync releases and occupancy. -/

namespace Sys2Proof.Machine

/-! ## Tags of banks and tiles (03 R49, 14 R287, R291) -/

/-- The banks and images marked with context code a are marked with code b. -/
def moveBanks (c : Core) (a b : Nat) : Core :=
  let v := c.vrf
  let im : Image → Image := fun i => if i.ctx = a then { i with ctx := b } else i
  { c with vrf := { v with
      owner := (v.owner.filter (fun p => p.2 == a + 1)).foldl (fun m p => mapSet m 0 p.1 (b + 1)) v.owner
      images := v.images.map im
      backing := v.backing.map im } }
/-- Tiles tagged a are tagged b. -/
def retagTiles (c : Core) (a b : Nat) : Core :=
  { c with bufs := { c.bufs with tileOwner := (c.bufs.tileOwner.filter (fun p => p.2 == a)).foldl (fun m p => mapSet m 0 p.1 b) c.bufs.tileOwner } }
/-- Banks, images and tiles of one context code go to another (14 R290). -/
def moveTags (c : Core) (a b : Nat) : Core := retagTiles (moveBanks c a b) (a + 1) (b + 1)
/-- The operations and weight loads of one context code go on as another's (14 R285). -/
def moveMx (c : Core) (a b : Nat) : Core :=
  { c with mx := { c.mx with
      q := c.mx.q.map (fun m => if m.ctx = a then { m with ctx := b } else m)
      wl := c.mx.wl.map (fun l => if l.ctx = a then { l with ctx := b } else l) } }
/-- A slot pre-emption marks the banks of context x suspended; its tiles keep their owner (14 R287). -/
def suspendTags (c : Core) (x : Nat) : Core := retagTiles (moveMx (moveBanks c x (x + 8)) x (x + 8)) (x + 1) (tileTag (x + 8))
/-- At restore the suspended tags revert. -/
def resumeTags (c : Core) (x : Nat) : Core := retagTiles (moveMx (moveBanks c (x + 8) x) (x + 8) x) (tileTag (x + 8)) (x + 1)
/-- The banks, images and tiles of a context code are no one's (R49). -/
def clearTags (c : Core) (a : Nat) : Core :=
  let v := c.vrf
  let mine := (v.owner.filter (fun p => p.2 == a + 1)).map (·.1)
  let v := mine.foldl (fun v b => { setBankRows v b [] with owner := mapSet v.owner 0 b 0 }) v
  { c with
    vrf := { v with images := v.images.filter (fun i => i.ctx != a), backing := v.backing.filter (fun i => i.ctx != a) }
    bufs := (retagTiles c (tileTag a) 0).bufs }

/-! ## The choice of a context (R30, R31, R285) -/

/-- A slot pre-emption has chosen the context (R285). -/
def isVictim (s : State) (k x : Nat) : Bool := s.dies.any (fun d => d.2.tasks.preempts.any (fun p => p.core == k && p.ctx == x && p.record != 16384))
/-- The cores of a die group are halted for a swap (14 R290). -/
def swapping (s : State) (k : Nat) : Bool :=
  match s.ga.swap with
  | some (g, _) => g == dieOfCore k / (8 / s.ga.parts)
  | none => false
/-- A bound context with a stretch to run. -/
def isCandidate (s : State) (k x : Nat) : Bool :=
  let c := ctxOf s k x
  c.status == .bound && c.toRun && !c.frozen && !c.heldOut && !isVictim s k x
def prioOf (s : State) (k x : Nat) : Nat := (ctxOf s k x).sp.prio
/-- The candidate of highest PRIO, searching upwards from the context after the last issuer. -/
def pickContext (s : State) (k : Nat) : Option Nat :=
  let order := (List.range 8).map (fun i => ((coreOf s k).lastIssued + 1 + i) % 8)
  let cand := order.filter (isCandidate s k)
  let best := cand.foldl (fun m x => Nat.max m (prioOf s k x)) 0
  cand.find? (fun x => prioOf s k x == best)
/-- Context x of core k acts. -/
def actAs (s : State) (k x : Nat) : State := { s with core := k, cx := x, die := dieOfCore k }
/-- A cycle in which no context holds issue (14 R288). -/
def countIdle (s : State) (k : Nat) : State :=
  let s := countMissed s k s.now
  let c := coreOf s k
  let o := mapGet c.occ Occ.init c.lastPhase
  setCore s k { c with occ := mapSet c.occ Occ.init c.lastPhase { o with idle := o.idle + 1 }, counted := s.now + 1 }
/-- The core chooses: issue passes with an exchange of 2 cycles to another context, and without one to the same context or on a core that
was idle. The choice lands what is due before the first group (R34). -/
def chooseContext (s : State) (k : Nat) : State :=
  let c := coreOf s k
  if c.holder.isSome || swapping s k then s
  else
    match pickContext s k with
    | none => countIdle (if c.exchLeft = 0 then s else setCore s k { c with exchLeft := 0 }) k
    | some x =>
      let away := c.exchLeft = 4 && x ≠ c.lastIssued
      let s := setCore s k { c with holder := some x, exchLeft := if away then 1 else 0, lastIssued := x, heldOff := 0, syncWait := none }
      countCycle (landDue (actAs s k x) k x) false

/-! ## Issue pre-emption (14 R284, 22 R378) -/

/-- The holder is to give up issue: it is a slot pre-emption's victim, or a candidate is at least PREEMPT_GAP above it. -/
def wantsPreempt (s : State) (k x : Nat) : Bool :=
  let c := ctxOf s k x
  let gap := pgap (dieOf s (dieOfCore k))
  isVictim s k x || (gap ≠ 0 && !c.sp.hmode && (List.range 8).any (fun y => y != x && isCandidate s k y && decide (c.sp.prio + gap ≤ prioOf s k y)))
/-- At a group boundary issue passes; while the group stalls pre-emption is held off, and not at all at a sync group. -/
def preemptIssue (s : State) (k : Nat) : State :=
  let co := coreOf s k
  match co.holder with
  | none => s
  | some x =>
    if co.exchLeft = 1 || co.syncWait.isSome || !wantsPreempt s k x then s
    else if (ctxOf s k x).stalled = 0 then leaveIssue s k x
    else if isVictim s k x then s
    else setCore s k { co with heldOff := co.heldOff + 1 }
/-- Held off for 65,536 cycles: the stalled group is abandoned, 0x27 is taken at it, and the stretch ends there. -/
def holdTimeout (s : State) (k : Nat) : State :=
  match (coreOf s k).holder with
  | none => s
  | some x =>
    if (coreOf s k).heldOff < 65536 then s
    else
      let c := ctxOf s k x
      leaveIssue (takeTrap (actAs s k x) k x 0x27 c.pc none 0) k x

/-! ## Asynchronous causes and the sync watchdog (22 R376, R378, R382) -/

/-- The pending cause of lowest code, the earliest of its kind. -/
def lowestCause (l : List (Nat × Nat)) : Option (Nat × Nat) :=
  l.foldl (fun b p => match b with | some q => if p.1 < q.1 then some p else b | none => some p) none
/-- At a group boundary outside handler mode the lowest pending cause is taken; not while the context stalls at a sync group. -/
def asyncReady (s : State) (k x : Nat) : Bool :=
  let c := ctxOf s k x
  !c.pendA.isEmpty && !c.sp.hmode && (coreOf s k).syncWait.isNone
def takeAsync (s : State) (k x : Nat) : State :=
  let c := ctxOf s k x
  if !asyncReady s k x then s
  else
    match lowestCause c.pendA with
    | none => s
    | some p => takeTrap (setCtx (actAs s k x) k x { c with pendA := c.pendA.erase p }) k x p.1 c.pc none p.2
/-- A sync group stalled for 2^20 cycles withdraws its arrivals and takes 0x25 in slot 7. -/
def watchdogDue (s : State) (k : Nat) : Bool := match (coreOf s k).syncWait with | some (_, t) => decide (t + 1048576 ≤ s.now) | none => false
def syncTimeout (s : State) (k : Nat) : State :=
  match (coreOf s k).holder, (coreOf s k).syncWait with
  | some x, some (ls, t) =>
    if t + 1048576 ≤ s.now then
      let s := withdraw (actAs s k x) k ls
      takeTrap s k x 0x25 (ctxOf s k x).pc (some 7) 0
    else s
  | _, _ => s

/-! ## Demand exchanges (03 R49, R50) -/

/-- An exchange that needs an image slot while all 48 are used first writes the least recently demanded image to the backing area,
through 64 of the core's owned slots. -/
def backImage (s : State) (k : Nat) : State :=
  let c := coreOf s k
  match c.vrf.exch, c.vrf.images with
  | some e, i :: rest =>
    if bankOwner c.vrf e.bank ≠ 0 && 48 ≤ c.vrf.images.length then
      let s := setCore s k { c with vrf := { c.vrf with images := rest, backing := i :: c.vrf.backing } }
      let b := (List.range 64).foldl (fun (a : State × Nat) _ => bindSlot a.1 k) (s, s.now)
      let c := coreOf b.1 k
      setCore b.1 k { c with vrf := { c.vrf with exch := some { e with fin := Nat.max e.fin (b.2 + 152) } } }
    else s
  | _, _ => s
/-- An exchange whose time has come is made. -/
def exchangeDone (s : State) (k : Nat) : State :=
  let c := coreOf s k
  match c.vrf.exch with
  | some e => if e.fin ≤ s.now then setCore s k { c with vrf := exchangeBank { c.vrf with exch := none } e.ctx e.bank } else s
  | none => s

/-! ## Sync releases (02 R39, R40) -/

/-- A line's segment is released: arrivals go, PHASE toggles in every core of the segment, a staged span takes effect. -/
def releaseLine (s : State) (d line seg : Nat) : State :=
  let t := (dieOf s d).tasks
  let key := releaseKey line seg
  let due := mapGet t.releases 0 key
  if due = 0 || s.now < due then s
  else
    let cores := segCores s d line seg
    let s := setTasks s d { t with releases := mapSet t.releases 0 key 0 }
    let s := cores.foldl (fun s k =>
      let c := coreOf s k
      setCore s k { c with phase := c.phase ^^^ 2 ^ line, arrived := without c.arrived (2 ^ line), phaseSet := s.now + 1,
                           phaseWas := if c.phaseSet = s.now + 1 then c.phaseWas else c.phase }) s
    (if seg = 11 then groupDies s d else [d]).foldl (fun s e =>
      if lineBusy s e line then s
      else
        let die := dieOf s e
        let m := spanBits [line]
        setDie s e (setEff die 0x3808 (without (effRaw die 0x3808) m + maskTo (regRaw die 0x3808) m))) s

/-! ## Binding (02 R28, R29, 14 R280) -/

/-- The context of a task at its start. -/
def startCtx (d r : Nat) (v : TaskRec) : Ctx :=
  let base : Ctx := { Ctx.init with
    status := .bound, toRun := true, pc := v.entry, task := some (d, r), world := v.world, sp := { Special.init with prio := v.prio } }
  let acquire : Pend := ⟨0, 0, .none Row.zero, none, none, none, none, true, none, false⟩
  let c : Ctx := match v.rival with
    | some g => { base with regs := g, sp := { base.sp with flush := v.flush } }
    | none =>
      let c := writeC (writeS (writeS base 1 (BitVec.ofNat 64 r)) 2 (BitVec.ofNat 64 d)) 1 v.arg
      match v.msg with
      | some (a, n, m) => writeS (writeS (writeS c 3 (BitVec.ofNat 64 a)) 4 (BitVec.ofNat 64 n)) 5 (BitVec.ofNat 64 m)
      | none => c
  placeMark { c with regs := { c.regs with shadow := [acquire] } }
/-- Bind record r of die d to context x of core k; the job's root task is then dispatched (01 R17). -/
def bindTask (s : State) (d r k x : Nat) : State :=
  let v := taskOf s d r
  let s := if (jobOf s v.job).root = .ready d r then { s with jobs := mapSet s.jobs Job.init v.job { jobOf s v.job with root := .dispatched } } else s
  let s := setCtx s k x (startCtx d r v)
  let s := setRec s d r { v with state := .bound, ctx := some (k, x) }
  let c := coreOf s k
  let o := mapGet c.occ Occ.init v.phase
  reportDormant (setCore s k { c with occ := mapSet c.occ Occ.init v.phase { o with disp := o.disp + 1 } }) k

/-! ## Dispatch (14 R279 to R282) -/

/-- Every core whose count of dormant contexts has changed reports it (R279). -/
def reportIfChanged (s : State) (k : Nat) : State := if viewOf s (dieOfCore k) k = dormant s k then s else reportDormant s k
/-- The job of a record is that of the partition resident on its die (R289). -/
def recResident (s : State) (d r : Nat) : Bool := (jobOf s (taskOf s d r).job).standby == decide (8 ≤ (coreOf s (80 * d)).part)
/-- No task of a job is dispatched before its root task (01 R17). -/
def afterRoot (s : State) (d r : Nat) : Bool :=
  match (jobOf s (taskOf s d r).job).root with
  | .dispatched => true
  | .ready e q => e == d && q == r
  | .waiting => false
def eligibleRec (s : State) (d r : Nat) : Bool :=
  afterRoot s d r && recResident s d r && !swapping s (80 * d) && (scopeCores s d (taskOf s d r)).any (fun k => decide (0 < viewOf s d k))
/-- The eligible records of a level: subqueue, order, record. -/
def eligible (s : State) (d lvl : Nat) : List (Nat × Nat × Nat) := (queued (dieOf s d).tasks lvl).filter (fun q => eligibleRec s d q.2.2)
/-- place(t) of R282. -/
def placeTask (s : State) (d : Nat) (v : TaskRec) : Nat :=
  let c := coreIn s d v.core
  let cores := scopeCores s d v
  if cores.contains c && decide (0 < viewOf s d c) then c
  else
    let better : Nat → Nat → Bool := fun a b =>
      let ha := hops (dieOfCore a) (dieOfCore c)
      let hb := hops (dieOfCore b) (dieOfCore c)
      decide (viewOf s d b < viewOf s d a) || (viewOf s d a == viewOf s d b && (decide (ha < hb) || (ha == hb && decide (a < b))))
    cores.foldl (fun b k => if better k b then k else b) (cores.headD c)
/-- At most one dispatch of a die in a cycle; cancelled READY records end first (R26). The window of R281 counts while FLOOR is 1. -/
def dispatchOne (s : State) (d : Nat) : State :=
  let s := endCancelled s d
  let t := (dieOf s d).tasks
  if t.recs.isEmpty then s
  else
    let levels := (List.range 24).filter (fun l => !(eligible s d l).isEmpty)
    match levels.getLast? with
    | none => s
    | some top =>
      let owedNow := levels.filter (fun l => !t.got.contains l && (t.window == 0 || t.owed.contains l))
      let floor := floorOn (dieOf s d)
      let lvl := if floor && !owedNow.isEmpty && 64 - t.window ≤ owedNow.length then owedNow.getLastD top else top
      let qs := eligible s d lvl
      let ring := mapGet t.rings Ring.init lvl
      match ring.order.find? (fun key => qs.any (fun q => q.1 == key)) with
      | none => s
      | some key =>
        let n := firstOrder qs key
        match qs.find? (fun q => q.1 == key && q.2.1 == n) with
        | none => s
        | some q =>
          let before := ring.order.takeWhile (fun k => k != key)
          let behind := ring.order.drop (before.length + 1)
          let f : Flight := ⟨q.2.2, placeTask s d (taskOf s d q.2.2), s.now + Config.unitDelay s.free % 24⟩
          let t := { t with
            rings := mapSet t.rings Ring.init lvl { ring with order := behind ++ before ++ [key], ptr := true }
            flights := t.flights ++ [f]
            window := if floor then (t.window + 1) % 64 else 0
            got := if !floor || t.window = 63 then [] else t.got ++ [lvl]
            owed := if !floor || t.window = 63 then [] else owedNow }
          trimRing (setTasks { s with free := s.free + 1 } d t) d lvl
/-- A task goes back to its subqueue with its original position. -/
def backToQueue (s : State) (d r : Nat) : State :=
  let v := taskOf s d r
  if v.state ≠ .ready then s else if recCancelled s v then endRecord s d r else joinRing s d v
/-- The dispatches of a die that arrive bind to the lowest dormant context of their core, or return. -/
def bindArrivals (s : State) (d : Nat) : State :=
  ((dieOf s d).tasks.flights.filter (fun f => f.arrive ≤ s.now)).foldl (fun s f =>
    let t := (dieOf s d).tasks
    let s := setTasks s d { t with flights := t.flights.erase f }
    match recCancelled s (taskOf s d f.record), lowestDormant s f.core with
    | false, some x => if (taskOf s d f.record).state = .ready then bindTask s d f.record f.core x else s
    | _, _ => backToQueue s d f.record) s

/-! ## Slot pre-emption (14 R285 to R287) -/

/-- The die group carries a standby partition. -/
def hasStandby (s : State) (d : Nat) : Bool := field s.ga.standby (d / (8 / s.ga.parts)) 1 = 1
/-- The READY task of highest level without a dormant context in its scope, the oldest of its level. -/
def starvedTask (s : State) (d : Nat) : Option Nat :=
  (List.range 24).reverse.findSome? (fun l =>
    let qs := (queued (dieOf s d).tasks l).filter (fun q => !eligibleRec s d q.2.2)
    let n := qs.foldl (fun m q => Nat.min m q.2.1) (2 ^ 80)
    (qs.find? (fun q => q.2.1 == n)).map (fun q => q.2.2))
/-- A context that a task of priority p can pre-empt. -/
def victimOk (s : State) (k x p : Nat) : Bool :=
  let c := ctxOf s k x
  let e := c.eng
  (c.status == .bound || c.status == .filling) && decide (c.sp.prio + pgap (dieOf s (dieOfCore k)) ≤ p) && !c.sp.hmode && !c.guestOf
    && !((coreOf s k).holder == some x && (coreOf s k).syncWait.isSome)
    && e.copy.isEmpty && e.sfe.isEmpty && e.send.isEmpty && e.coll.isEmpty && e.ck.isEmpty && e.gq.isEmpty && e.subs.isEmpty
    && !(coreOf s k).ms.loads.any (fun l => l.ctx == x && !l.exact) && !c.reqs.any (fun r => r.kind == 0 || r.kind == 4)
    && !s.dies.any (fun d => d.2.tasks.preempts.any (fun q => q.core == k && q.ctx == x && q.chosen != s.now + 1))
/-- A die has named the context in this cycle. -/
def chosenNow (s : State) (k x : Nat) : Bool := s.dies.any (fun d => d.2.tasks.preempts.any (fun q => q.core == k && q.ctx == x))
/-- Choose a victim for the starved task; where a lower die has named the same one in this cycle, the task stays in its subqueue. -/
def chooseVictim (s : State) (d : Nat) : State :=
  match starvedTask s d with
  | none => s
  | some r =>
    let v := taskOf s d r
    let cands := ((scopeCores s d v).filter (fun k => pgap (dieOf s (dieOfCore k)) ≠ 0 && !hasStandby s (dieOfCore k))).flatMap (fun k =>
      ((List.range 8).filter (fun x => victimOk s k x v.prio)).map (fun x => (prioOf s k x, k, x)))
    match cands with
    | [] => s
    | a :: rest =>
      let least := rest.foldl (fun (b : Nat × Nat × Nat) c =>
        if c.1 < b.1 || (c.1 == b.1 && (c.2.1 < b.2.1 || (c.2.1 == b.2.1 && c.2.2 < b.2.2))) then c else b) a
      let t := (dieOf s d).tasks
      if chosenNow s least.2.1 least.2.2 then s
      else trimRing (setTasks s d { t with preempts := t.preempts ++ [⟨r, least.2.1, least.2.2, none, s.now + 1⟩] }) d v.prio
def dropPreempt (s : State) (d : Nat) (p : Preempt) : State :=
  let t := (dieOf s d).tasks
  setTasks s d { t with preempts := t.preempts.erase p }
def setPreempt (s : State) (d : Nat) (p q : Preempt) : State :=
  let t := (dieOf s d).tasks
  setTasks s d { t with preempts := t.preempts.map (fun e => if e == p then q else e) }
/-- A context that waits for a fill is known to it by another number while it is suspended. -/
def renameWaiter (s : State) (k a b : Nat) : State :=
  { s with fills := s.fills.map (fun f => match f.kind with
      | .extent l d p i ws => { f with kind := .extent l d p i (ws.map (fun w => if w == (k, a) then (k, b) else w)) }
      | _ => f) }
/-- The victim's state moves to context area x; its banks and tiles are marked suspended. -/
def suspendCtx (s : State) (k x : Nat) : State :=
  let c := ctxOf s k x
  let co := suspendTags (coreOf s k) x
  let p := phaseOf s k x
  let o := mapGet co.occ Occ.init p
  let s := setCore s k { co with vrf := { co.vrf with area := mapSet co.vrf.area Ctx.init x c }, occ := mapSet co.occ Occ.init p { o with preempt := o.preempt + 1 } }
  let s := renameWaiter s k x (x + 128)
  match c.task with
  | some (d, r) => setRec s d r { taskOf s d r with suspended := true }
  | none => s
/-- One turn of a slot pre-emption of context x: it waits for the boundary and for every value in the shadow record, then for the 128
cycles of the write; then the guest is bound. A victim that is no longer bound sends the task back. -/
def savePreempt (s : State) (d k x : Nat) (p : Preempt) : State :=
  let c := ctxOf s k x
  if c.status ≠ .bound && c.status ≠ .filling then backToQueue (dropPreempt s d p) d p.record
  else
    match p.fin with
    | none => if (coreOf s k).holder = some x || c.regs.shadow.any (fun e => e.waits.isSome) then s else setPreempt s d p { p with fin := some (s.now + 129) }
    | some f =>
      if s.now < f then s
      else
        let s := suspendCtx (dropPreempt s d p) k x
        if recCancelled s (taskOf s d p.record) then
          let s := setCtx (endRecord s d p.record) k x { Ctx.init with status := .ending, guestOf := true }
          let e := dieOfCore k
          let t := (dieOf s e).tasks
          setTasks s e { t with preempts := t.preempts ++ [⟨16384, k, x, some (s.now + 128), 0⟩] }
        else
          let s := bindTask s d p.record k x
          setCtx s k x { ctxOf s k x with guestOf := true }
def slotSave (s : State) (k x : Nat) : State :=
  (List.range 8).foldl (fun s d =>
    match (dieOf s d).tasks.preempts.find? (fun p => p.core == k && p.ctx == x && p.record != 16384) with
    | some p => savePreempt s d k x p
    | none => s) s
/-- The guest has ended and the image is back: the victim is a candidate again (R286). -/
def guestRestore (s : State) (k x : Nat) : State :=
  let d := dieOfCore k
  match (dieOf s d).tasks.preempts.find? (fun p => p.core == k && p.ctx == x && p.record == 16384) with
  | none => s
  | some p =>
    if p.fin.any (fun f => s.now < f) then s
    else
      let s := dropPreempt s d p
      let co := coreOf s k
      let c := mapGet co.vrf.area Ctx.init x
      let co := resumeTags { co with vrf := { co.vrf with area := mapSet co.vrf.area Ctx.init x Ctx.init } } x
      let s := renameWaiter (setCtx (setCore s k co) k x c) k (x + 128) x
      match c.task with
      | some (e, r) => setRec s e r { taskOf s e r with suspended := false }
      | none => s

/-! ## The end of a task (12 R243, 26 R444) -/

/-- The free-slot counts a context holds go back to the pools (15 R307), and slots it still has out will too. -/
def returnSlots (s : State) (k x : Nat) : State :=
  let d := dieOfCore k
  let c := ctxOf s k x
  let s := c.fsc.foldl (fun s p => let f := fabOf s d; setFab s d { f with pool := mapSet f.pool 384 p.1 (poolOf f p.1 + p.2) }) s
  let f := fabOf s d
  let f := { f with
    spent := f.spent.map (fun e => if e.2 = 8 * k + x then (e.1, 9000) else e)
    tags := f.tags.map (fun t =>
      let mine := t.2.busy && t.2.core = k && t.2.ctx = x
      (t.1, { t.2 with core := if mine then 640 else t.2.core
                       skips := t.2.skips.map (fun e => if e.2.1 = 8 * k + x then (e.1, 5120, e.2.2) else e) })) }
  setCtx (setFab s d f) k x { ctxOf s k x with fsc := [] }
/-- Causes pending for a task that ends are dropped and logged (22 R382). -/
def dropCauses (s : State) (k x : Nat) : State := (ctxOf s k x).pendA.foldl (fun s p => report s p.1 p.2) s
/-- The last steps: slots, replies, signal, counts, record; the context is dormant, or its suspended victim is restored (14 R286). -/
def finishTask (s : State) (k x : Nat) : State :=
  let c := ctxOf s k x
  let s := dropCauses (returnSlots s k x) k x
  let co := coreOf s k
  let s := setCore s k (clearTags { co with ms := { co.ms with loads := co.ms.loads.filter (fun l => l.ctx != x) } } x)
  let s := match c.task with
    | some (d, r) =>
      let v := taskOf s d r
      let s := match v.tile with | some j => freeTile s d j | none => s
      endRecord s d r
    | none => s
  if c.guestOf then
    let d := dieOfCore k
    let t := (dieOf s d).tasks
    let s := setCtx s k x { Ctx.init with status := if (mapGet co.vrf.area Ctx.init x).task.isSome then .ending else .dormant, guestOf := true }
    if (mapGet co.vrf.area Ctx.init x).task.isSome then setTasks s d { t with preempts := t.preempts ++ [⟨16384, k, x, some (s.now + 128), 0⟩] }
    else setCtx s k x Ctx.init
  else setCtx s k x Ctx.init
/-- Steps 1 to 3 of R243 hold back the end: with the stores, what else the context writes is performed first, here and at other modules, so that the
signal and the counts follow it (02 R24, R34, 13 R269, log 80). Live subscriptions are ended as by UNSUB, without a count. -/
def endTask (s : State) (k x : Nat) : State :=
  let c := ctxOf s k x
  let m := (coreOf s k).ms
  let e := c.eng
  if c.status ≠ .ending || c.task.isNone then s
  else if (m.released ++ m.gated).any (fun t => t.ctx == x) || m.atoms.any (fun a => a.ctx == x) || c.reqs.any (fun r => r.kind != 0) then s
  else if s.worlds.releasing.any (fun f => f.core == k && f.ctx == x) then s
  else if e.subs.any (fun u => u.stopping.isNone || !u.silent) then
    setSubs s k x (e.subs.map (fun u => { u with stopping := some (u.stopping.getD (0, (hdrAt s k u.buf u.hdr).head)), silent := true }))
  else if !(e.copy.isEmpty && e.sfe.isEmpty && e.send.isEmpty && e.coll.isEmpty && e.ck.isEmpty && e.gq.isEmpty && e.subs.isEmpty && e.ring.isEmpty)
      || !c.saves.isEmpty then s
  else if mxOpen s k x then s
  else finishTask s k x

/-- Cancel reaches a context that does not issue (R444): halted, frozen or parked, or at its yield in the same cycle (02 R26); a suspended one ends
where it lies (14 R286). -/
def cancelCtx (s : State) (k x : Nat) : State :=
  let c := ctxOf s k x
  let s := if c.task.isSome && taskCancelled s c then
      match c.status with
      | .halted => beginEnd s k x
      | .bound =>
        if (c.frozen || decide (c.yielded = s.now + 1)) && !c.sp.hmode then setCtx (beginEnd s k x) k x { ctxOf (beginEnd s k x) k x with frozen := false } else s
      | .parked =>
        (match c.task with
        | some (d, r) =>
          let s := { s with images := s.images.map (fun v => if v.task = some (d, r) then { v with ended := true } else v) }
          setCtx (endRecord s d r) k x Ctx.init
        | none => s)
      | _ => s
    else s
  let co := coreOf s k
  let a := mapGet co.vrf.area Ctx.init x
  if a.task.isSome && taskCancelled s a && isSuspended s a then
    match a.task with
    | some (d, r) =>
      let s := setCore s k (clearTags { co with vrf := { co.vrf with area := mapSet co.vrf.area Ctx.init x Ctx.init } } (x + 8))
      endRecord s d r
    | none => s
  else s
where
  /-- The task of an area's context is suspended by slot pre-emption. -/
  isSuspended (s : State) (a : Ctx) : Bool := match a.task with | some (d, r) => (taskOf s d r).suspended | none => false

/-- A stalled group of a cancelled task is abandoned when it waits in a data stall or at a sync group; a structural stall goes on. -/
def cancelStalled (s : State) (k x : Nat) (structural : Bool) : State :=
  let c := ctxOf s k x
  if structural || c.stalled = 0 || c.sp.hmode || !taskCancelled s c then s
  else
    let s := match (coreOf s k).syncWait with | some (ls, _) => withdraw s k ls | none => s
    beginEnd s k x

/-! ## Occupancy (14 R288) -/

/-- A number of n bytes in memory is added to. -/
def addTo (s : State) (a n v : Nat) : State := putUnit s a (leBytes n (leVal (getBytes s.mem a n) + v))
/-- The counts of a phase are added to the job's occupancy table; a core of a die without a running job keeps them. -/
def flushPhase (s : State) (k p : Nat) : State :=
  let c := coreOf s k
  let o := mapGet c.occ Occ.init p
  let j := s.jobs.find? (fun j => j.2.running && j.2.part + (if j.2.standby then 8 else 0) == c.part)
  match j with
  | none => s
  | some j =>
    let a := j.2.occbase + 32 * (256 * k + p)
    let s := setCore s k { c with occ := mapSet c.occ Occ.init p Occ.init }
    if o = Occ.init then s
    else addTo (addTo (addTo (addTo (addTo s a 8 o.busy) (a + 8) 8 o.stall) (a + 16) 8 o.idle) (a + 24) 4 o.disp) (a + 28) 4 o.preempt
def flushOcc (s : State) (k : Nat) : State := ((coreOf s k).occ.map (·.1)).foldl (fun s p => flushPhase s k p) (countMissed s k (s.now + 1))
/-- The cores of a die that have done nothing: every cycle so far is an IDLE one of phase 0. -/
def flushIdle (s : State) (d : Nat) : State :=
  let n := s.now + 1 - (dieOf s d).idleFrom
  match s.jobs.find? (fun j => j.2.running && !j.2.standby && j.2.part == (Core.init (80 * d)).part) with
  | none => s
  | some j =>
    let ks := ((List.range 80).map (fun i => 80 * d + i)).filter (fun k => !s.cores.any (fun p => p.1 == k))
    let s := ks.foldl (fun s k => addTo s (j.2.occbase + 32 * 256 * k + 16) 8 n) s
    -- what the cores at work have not counted yet is kept before the die's count moves on
    let s := (s.cores.map (·.1)).foldl (fun s k => if dieOfCore k = d then countMissed s k (s.now + 1) else s) s
    setDie s d { dieOf s d with idleFrom := s.now + 1 }

/-! ## Completions (02 R24, R41) -/

/-- A completed level's waiting action: its die, and the action. -/
def completion (s : State) (key : Nat) : Option (Nat × Waiting) :=
  (List.range 8).findSome? (fun d => ((dieOf s d).tasks.waiting.find? (fun w => (match w.act with | .complete k _ _ => k == key | _ => false) && actDue s w)).map (fun w => (d, w)))
/-- A phase's counts of every core are flushed (14 R288). -/
def flushPhases (s : State) (p : Nat) : State :=
  let s := (s.cores.map (·.1)).foldl (fun s k => flushPhase (countMissed s k (s.now + 1)) k p) s
  if p = 0 then (List.range 8).foldl flushIdle s else s
/-- A completed level makes its record READY: counted by rule 1 now; for a phase the cores' counts are flushed first (14 R288). -/
def levelReady (s : State) (key : Nat) : State :=
  match completion s key with
  | none => s
  | some (d, w) =>
    match w.act with
    | .complete _ e r =>
      let phase := decide (key / 65536 % 4 = 2)
      if 16384 ≤ r && !phase then s
      else
        let t := (dieOf s d).tasks
        let s := setTasks s d { t with waiting := t.waiting.erase w }
        let s := if phase then flushPhases s (key % 65536) else s
        if 16384 ≤ r then s else makeReady (countNew s (taskOf s e r)) e r
    | _ => s

/-! ## The events -/

/-- STRETCH_END_CHOICE (02 R31). -/
def execStretchEndChoice (core : Nat) (s : State) : Host.Outcome State Fault Refusal := .next (chooseContext s core)
/-- ISSUE_PREEMPTION (14 R284). -/
def execIssuePreemption (core : Nat) (s : State) : Host.Outcome State Fault Refusal := .next (preemptIssue s core)
/-- PREEMPT_HOLD_TIMEOUT (22 R378). -/
def execPreemptHoldTimeout (core : Nat) (s : State) : Host.Outcome State Fault Refusal := .next (holdTimeout s core)
/-- DEMAND_EXCHANGE_DONE (03 R49). -/
def execDemandExchangeDone (core : Nat) (s : State) : Host.Outcome State Fault Refusal := .next (exchangeDone s core)
/-- SYNC_RELEASE (02 R40). -/
def execSyncRelease (die line seg : Nat) (s : State) : Host.Outcome State Fault Refusal := .next (releaseLine s die line seg)
/-- SYNC_WATCHDOG (22 R378). -/
def execSyncWatchdog (core : Nat) (s : State) : Host.Outcome State Fault Refusal := .next (syncTimeout s core)
/-- DISPATCH (14 R280). -/
def execDispatch (die : Nat) (s : State) : Host.Outcome State Fault Refusal := .next (dispatchOne s die)
/-- TASK_BIND (14 R280). -/
def execTaskBind (die : Nat) (s : State) : Host.Outcome State Fault Refusal := .next (bindArrivals s die)
/-- SLOT_PREEMPT_CHOOSE (14 R285). -/
def execSlotPreemptChoose (die : Nat) (s : State) : Host.Outcome State Fault Refusal := .next (chooseVictim s die)
/-- SLOT_PREEMPT_SAVE_DONE (14 R285). -/
def execSlotPreemptSaveDone (core ctx : Nat) (s : State) : Host.Outcome State Fault Refusal := .next (slotSave s core ctx)
/-- GUEST_END_RESTORE (14 R286). -/
def execGuestEndRestore (core ctx : Nat) (s : State) : Host.Outcome State Fault Refusal := .next (guestRestore s core ctx)
/-- TASK_END_COMPLETE (12 R243). -/
def execTaskEndComplete (core ctx : Nat) (s : State) : Host.Outcome State Fault Refusal := .next (endTask s core ctx)
/-- CONTINUATION_READY (02 R41). -/
def execContinuationReady (die rec : Nat) (s : State) : Host.Outcome State Fault Refusal := .next (contReady s die rec)
/-- COMPLETION_RECORD_READY (02 R24). -/
def execCompletionRecordReady (level : Nat) (s : State) : Host.Outcome State Fault Refusal := .next (levelReady s level)
/-- MX_OP_END (09 R166). -/
def execMxOpEnd (core : Nat) (s : State) : Host.Outcome State Fault Refusal := .next (mxEnd s core)
/-- WEIGHT_LOAD_COMPLETE (09 R172). -/
def execWeightLoadComplete (core : Nat) (s : State) : Host.Outcome State Fault Refusal := .next (loadEnd s core)
/-- OCCUPANCY_FLUSH (14 R288). -/
def execOccupancyFlush (core : Nat) (s : State) : Host.Outcome State Fault Refusal := .next (flushOcc s core)
/-- ASYNC_TRAP_TAKEN (22 R376): the context that holds issue takes its lowest pending cause. -/
def execAsyncTrapTaken (core : Nat) (s : State) : Host.Outcome State Fault Refusal :=
  .next (match (coreOf s core).holder with | some x => takeAsync s core x | none => s)
/-- BOBBIN_BACKING_WRITE (03 R50). -/
def execBobbinBackingWrite (core : Nat) (s : State) : Host.Outcome State Fault Refusal := .next (backImage s core)
/-- DORMANT_COUNT_REPORT (14 R279). -/
def execDormantCountReport (core : Nat) (s : State) : Host.Outcome State Fault Refusal := .next (reportDormant s core)
/-- SIGNAL_ARRIVAL (02 R32). -/
def execSignalArrival (die counter : Nat) (s : State) : Host.Outcome State Fault Refusal := .next (signalJoin s die counter)
/-- EVENT_COUNTER_SOURCE (02 R37): sources 1, 3 and 5 add, 2 and 4 set. -/
def execEventCounterSource (die src amount : Nat) (s : State) : Host.Outcome State Fault Refusal :=
  .next (if src = 2 || src = 4 then setEventSource s die src amount else if src = 1 || src = 3 || src = 5 then countEvent s die src amount else s)
/-- OBJECT_ENTRY_FETCHED (24 R414): the read of an object entry for the core ends now. -/
def execObjectEntryFetched (core obj : Nat) (s : State) : Host.Outcome State Fault Refusal :=
  let c := coreOf s core
  .next (if c.ms.objWait.any (fun p => p.1 == obj) then
      setCore s core { c with ms := { c.ms with objCache := c.ms.objCache ++ [obj], objWait := c.ms.objWait.filter (fun p => p.1 != obj) } }
    else s)
/-- A region that another partition wrote and that nothing holds. -/
def regionForeign (s : State) (k region : Nat) : Bool :=
  let r := mapGet (coreOf s k).bufs.region 0 region
  r != 0 && r != (coreOf s k).part + 1 && !regionHeld s k region
/-- REGION_DEMAND_SWAP (14 R291). -/
def execRegionDemandSwap (core region : Nat) (s : State) : Host.Outcome State Fault Refusal :=
  .next (if regionForeign s core region then swapRegion core region s else s)
/-- The first region that the outgoing partition's bytes still fill. -/
def spillTarget (s : State) (k : Nat) : Option Nat :=
  ((coreOf s k).bufs.region.find? (fun p => p.2 != 0 && p.2 != (coreOf s k).part + 1 && !regionHeld s k p.1)).map (·.1)
/-- A turn of a core's background spiller: the lowest such region goes in 256 beats, each through an owned slot unbound as its cycle comes, in 1,216
cycles at least; a region that a demand has exchanged meanwhile is let go. -/
def spillTurn (s : State) (k : Nat) : State :=
  let c := coreOf s k
  match c.spiller with
  | none =>
    match spillTarget s k with
    | some r => setCore s k { c with spiller := some ⟨r, s.now, 0, 0⟩ }
    | none => s
  | some p =>
    if !regionForeign s k p.region then setCore s k { c with spiller := none }
    else if p.beats < 256 then
      let b := bindSlot s k
      if b.2 = s.now then let c := coreOf b.1 k; setCore b.1 k { c with spiller := some { p with beats := p.beats + 1, fin := s.now + 152 } } else s
    else if s.now < p.since + 1216 || s.now < p.fin then s
    else swapRegion k p.region (setCore s k { c with spiller := none })
/-- The partition whose state is resident on a die. -/
def diePart (s : State) (d : Nat) : Nat := (coreOf s (80 * d)).part
/-- The first region of a die's staging slices that the outgoing partition's bytes still fill. -/
def sliceTarget (s : State) (d : Nat) : Option Nat :=
  ((dieOf s d).sliceRegion.find? (fun p => p.2 != 0 && p.2 != diePart s d + 1 && !sliceHeld s d p.1)).map (·.1)
/-- The spiller of a die's slices: a region takes 1,024 cycles of the SHT slots at least, and what else it waits for them is free (log 23). -/
def sliceSpillTurn (s : State) (d : Nat) : State :=
  let die := dieOf s d
  match die.spiller with
  | none =>
    match sliceTarget s d with
    | some r => { setDie s d { die with spiller := some ⟨r, s.now, 0, s.now + 1024 + Config.unitDelay s.free⟩ } with free := s.free + 1 }
    | none => s
  | some p =>
    if sliceTarget s d ≠ some p.region then setDie s d { die with spiller := none }
    else if s.now < p.fin then s
    else swapSlice d p.region (diePart s d) (setDie s d { die with spiller := none })
/-- BACKGROUND_SPILL (14 R291): the lowest such region is exchanged. -/
def execBackgroundSpill (core : Nat) (s : State) : Host.Outcome State Fault Refusal :=
  .next (match spillTarget s core with | some r => swapRegion core r s | none => s)
/-- ILLEGAL_OPCODE (05 R101, R107): a group that does not decode: the cause found by the decoder, the slot it is attributed to (8 for none)
and EINFO. -/
def execIllegalOpcode (cause slot info : Nat) (s : State) : Host.Outcome State Fault Refusal :=
  .next (takeTrap s s.core s.cx cause (actCtx s).pc (if slot < 8 then some slot else none) info)

end Sys2Proof.Machine
end

