-- ==== Sys2Proof/Machine/FabricEv.lean ====
section
/-! DEFINITION. Machine/FabricEv.lean: requests of other modules performed here (12 R248, 15 R302, 24 R417), replies and timeouts at the
source (12 R249 to R254, 25 R434, R435), messages (02 R35, 15 R308, 25 R432, 26 R443), and failed tier reads (26 R448). -/

namespace Sys2Proof.Machine

/-! ## The reply of a request reaches its source (R434, 24 R417) -/

/-- A request has failed, with the cause and the reason the reply names, or has had no answer. -/
inductive Answer where
  | data (bs : List Byte)
  | failed (cause reason : Nat)
  | lost
/-- EINFO of 0x2B (R434). -/
def timeoutInfo (name peer kind : Nat) (may : Bool) : Nat := name + 16384 * peer + 1048576 * kind + (if may then 16777216 else 0)
/-- EINFO of 0x26 (R432). -/
def refusalInfo (sem mod core reason : Nat) : Nat := sem + 16 * 4 + 65536 * mod + 4194304 * core + 4294967296 * reason
/-- The destination of a read without data is C-poisoned: at its landing point, or where its L mark stands. -/
def spoilDest (s : State) (k x name : Nat) (dst : Land) : State :=
  let c := ctxOf s k x
  if waitsFor c name then setCtx s k x (settlePends c name (spoiled dst)) else writeLate s k x name dst [] true
/-- The answer of a slot's request: a read's data goes to its destination, a row is pushed, a write counts as performed. -/
def answerSlot (s : State) (k x : Nat) (r : FarReq) (a : Answer) : State :=
  let c := ctxOf s k x
  let s := setCtx s k x { c with reqs := c.reqs.filter (fun q => !(q.tag == r.tag && q.peer == r.peer && q.seq == r.seq)) }
  let raise : State → Nat → Nat → State := fun s cause info => setCtx s k x (raiseA (ctxOf s k x) cause info)
  let spoil : State → State := fun s => if r.push then pushReply s k x r [] true else if r.kind = 0 then spoilDest s k x r.tag r.dst else s
  match a with
  | .data bs => if r.push then pushReply s k x r bs false else if r.kind = 0 then deliver s k x r.tag false r.dst bs false false else s
  | .failed cause reason =>
    if cause = 0x19 then (if r.kind = 0 && !r.push then deliver s k x r.tag false r.dst [] true false else spoil s)
    else raise (spoil s) cause (if cause = 0x14 then reason else if cause = 0x26 then refusalInfo 0 r.peer 0 reason else r.info)
  | .lost => raise (spoil s) 0x2B (timeoutInfo r.tag r.peer r.kind (r.kind ≠ 0))
/-- The command of an engine that waits under a request's name. -/
def answerEngine (s : State) (k x e name peer : Nat) (a : Answer) : State :=
  match (ctxOf s k x).eng.queue e with
  | [] => s
  | m :: _ =>
    if m.tag ≠ some name then s
    else
      match a with
      | .data bs => setHead s k x e { m with tag := none, buffer := if m.kind == .cpyrGet then m.buffer ++ bs.map (fun b => (b, false)) else m.buffer }
      | .failed cause reason =>
        stopWith s k x e cause (if cause = 0x26 then refusalInfo m.sem peer (match m.kind with | .send _ c _ _ => c | _ => 0) reason else engInfo m.sem e)
      | .lost => stopWith s k x e 0x2B (engInfo m.sem e)
def Served.obj (r : Served) : Nat := field (leVal (r.data.take 16)) 0 26
def Served.off (r : Served) : Nat := field (leVal (r.data.take 16)) 26 40
/-- Bytes at the home: by the size code, of the run, or what came. -/
def Served.len (r : Served) : Nat :=
  let sz := field (leVal (r.data.take 16)) 66 4
  if r.kind = 2 || r.kind = 11 then r.data.length - 16 else if r.kind = 6 then 8 else if sz = 15 then r.aux % 131072 else sizeBytes (sz % 8)
/-- Queue a reply over VC1 to the module that asked; none for a request held longer than 2^21 cycles (25 R434). -/
def sendReply (s : State) (d : Nat) (r : Served) (kind : Nat) (bs : List Byte) : State :=
  if 2097152 < s.now - r.since then s
  else let f := fabOf s d; setFab s d { f with sendQ := f.sendQ ++ mkFlits s r.src 1 kind r.cl r.tag r.inc 0 bs }
/-- A refusal: the cause and, for 0x14, its EINFO as a number; an entry outside the partition is logged (24 R415); a checkpoint's record has no
reply (log 32). -/
def refuseServed (s : State) (d : Nat) (r : Served) (cause reason : Nat) : State :=
  let s := logOutside s cause reason
  if r.kind = 11 then s else sendReply s d r 3 (leBytes 1 cause ++ leBytes 8 (if cause = 0x13 then 0 else reason))
def dropServed (s : State) (d : Nat) (r : Served) : State :=
  let f := fabOf s d
  setFab s d { f with served := f.served.erase r }
def putServed (s : State) (d : Nat) (r q : Served) : State :=
  let f := fabOf s d
  setFab s d { f with served := f.served.map (fun e => if e == r then q else e) }
/-- The request goes once to the module that holds the block, under a tag of this die; it keeps its place in its stream until its reply comes
back, which this module passes on (12 R248, R302, log 32). None while the die has no tag. -/
def forwardServed (s : State) (d : Nat) (r : Served) (mod : Nat) : State :=
  let w := forwardAsks r.src r.tag r.inc
  match tagFor (fabOf s d) w with
  | none => waitTag s d w
  | some ix =>
    let t := takeTag s w (80 * d) 9 ix mod 0 r.kind r.cl 0 0 0 (some 9) (r.aux % 131072 + 131072) r.data
    freeSlots (putServed t.1 d r { r with ports := [], away := some t.2 }) d r.src r.ports
/-- The reply of a forwarded request goes on to the module that asked. -/
def passReply (s : State) (d name : Nat) (a : Answer) : State :=
  match (fabOf s d).served.find? (fun r => r.away == some name) with
  | none => s
  | some r =>
    let s := dropServed s d r
    match a with
    | .data bs => sendReply s d r (if r.kind = 0 then 1 else if r.kind = 4 then 5 else 3) bs
    | .failed cause reason => refuseServed s d r cause reason
    | .lost => s
/-- Who sent a tagged request takes the answer, suspended or not (14 R285); nothing does for a task that has ended (12 R243). -/
def answerTag (s : State) (name : Nat) (t : ReqTag) (a : Answer) : State :=
  if t.core = 640 then s
  else
    match t.eng with
    | some 8 =>
      let d := dieOfCore t.core
      if (shOf s d).asked = some name then setSh s d { shOf s d with answer := some (match a with | .data bs => bs | _ => []) } else s
    | some 9 => passReply s (dieOfCore t.core) name a
    | some e => answerEngine s t.core t.ctx e name t.peer a
    | none =>
      let mine : FarReq → Bool := fun r => r.tag == name && r.peer == t.peer
      match (ctxOf s t.core t.ctx).reqs.find? mine, (areaOf s t.core t.ctx).reqs.find? mine with
      | some r, _ => answerSlot s t.core t.ctx r a
      | none, some r => onArea s t.core t.ctx (fun s => answerSlot s t.core t.ctx r a)
      | none, none => s
/-- What a reply says: data, a report, or a failure with its cause and reason (log 32). -/
def answerOf (kind : Nat) (bs : List Byte) : Answer :=
  if kind = 3 && 2 ≤ bs.length then .failed (leVal (bs.take 1)) (leVal (bs.drop 1)) else .data bs
/-- A stale reply: counted at the core that issued the request, but for a task that has ended; its incarnation can be taken again
(R435). TAGSTALE stays at its greatest value (log 87). -/
def staleReply (s : State) (d ix inc : Nat) : State :=
  let t := tagAt' (fabOf s d) ix
  match t.skips.find? (fun k => k.1 == inc) with
  | none => s
  | some k =>
    let s := setTag s d ix { t with skips := t.skips.filter (fun e => e != k) }
    if k.2.1 < 5120 then let c := coreOf s (k.2.1 / 8); setCore (noteHw s (16 + k.2.1 / 8) 0x014 c.tagstale (fun n => n + 1)) (k.2.1 / 8) { c with tagstale := Nat.min 4294967295 (c.tagstale + 1) } else s
/-- A reply under a tag: the outstanding request's frees it. -/
def takeReply (s : State) (d tag inc kind : Nat) (bs : List Byte) : State :=
  let ix := tag % 512
  let t := tagAt' (fabOf s d) ix
  if t.busy && t.inc = inc then answerTag (setTag s d ix { t with busy := false }) (tagName d ix inc) t (answerOf kind bs)
  else staleReply s d ix inc
/-- Every reply that has come to a die. -/
def replyPhase (s : State) (d : Nat) : State :=
  let f := fabOf s d
  let rs := f.replies
  if rs.isEmpty then s else rs.foldl (fun s r => takeReply s d r.1.tag r.1.inc r.1.kind r.2) (setFab s d { f with replies := [] })
/-- REMOTE_REPLY_ARRIVAL (R249). -/
def execRemoteReplyArrival (die : Nat) (s : State) : Host.Outcome State Fault Refusal := .next (replyPhase s die)

/-- TAGCFG.TMO in cycles. -/
def tagLimit (s : State) (d : Nat) : Nat := 1024 * field (regRaw (dieOf s d) 0x0758) 0 8
/-- A request without a reply for TMO times out; a reply of this cycle is taken first (R435). -/
def timeoutTag (s : State) (d ix : Nat) : State :=
  let s := replyPhase s d
  let t := tagAt' (fabOf s d) ix
  if t.busy && t.sent.any (fun c => c + tagLimit s d ≤ s.now) then
    answerTag (setTag s d ix { t with busy := false, skips := t.skips ++ [(t.inc, 8 * t.core + t.ctx % 8, s.now + 4194304)] }) (tagName d ix t.inc) t .lost
  else s
/-- TAG_TIMEOUT (R434). -/
def execTagTimeout (die tag : Nat) (s : State) : Host.Outcome State Fault Refusal := .next (timeoutTag s die (tag % 512))
/-- Incarnations left unanswered 2^22 cycles ago can be taken again. -/
def releaseIncs (s : State) (d ix : Nat) : State :=
  let t := tagAt' (fabOf s d) ix
  if t.skips.any (fun k => k.2.2 ≤ s.now) then setTag s d ix { t with skips := t.skips.filter (fun k => s.now < k.2.2) } else s
/-- INCARNATION_RELEASE (R434). -/
def execIncarnationRelease (die tag : Nat) (s : State) : Host.Outcome State Fault Refusal := .next (releaseIncs s die (tag % 512))

/-! ## Requests of other modules (15 R302, 12 R248, 24 R417) -/

/-- A request is performed at its stacks, indivisibly. -/
def performServed (s : State) (d : Nat) (r : Served) (ps : List (Nat × Nat × Nat)) : State :=
  let bad := ps.any (fun p => badSpan s p.1 p.2.2)
  let s := ps.foldl (fun s p => raiseHeat s p.2.1 (r.kind ≠ 0)) s
  let write : State → List Byte → State := fun s bs => (cutPieces ps bs).foldl (fun s p => writeBase s p.1 p.2.1 p.2.2 false false) s
  match r.kind with
  | 0 => if bad then refuseServed s d r 0x19 0 else sendReply s d r 1 (ps.flatMap (fun p => getBytes s.mem p.1 p.2.2))
  | 2 => sendReply (write s (r.data.drop 16)) d r 3 []
  | 6 => sendReply (write s ((r.data.drop 16).take 8)) d r 3 []
  | 11 => write s (r.data.drop 16)
  | _ =>
    let n := r.len
    let old := (ps.flatMap (fun p => getBytes s.mem p.1 p.2.2))
    let b := r.data.drop 16
    let m : AtomReq := { ctx := 0, cls := r.cl, op := leVal ((b.drop 16).take 2) % 16, bytes := n, world := 0, pieces := ps, x := BitVec.ofNat 64 (leVal (b.take 8)),
                         y := BitVec.ofNat 64 (leVal ((b.drop 8).take 8)), key := none, flush := leVal ((b.drop 18).take 2), ord := 0, scope := 0, seq := 0,
                         reach := none, slot := none, fin := none }
    if bad then refuseServed s d r 0x19 0 else sendReply (write s (atomBytes m old)) d r 5 old
/-- What the home finds. -/
inductive Home where
  | here (ps : List (Nat × Nat × Nat))
  | peer (mod : Nat)
  | tier (block leaf : Nat)
  | refused (cause reason : Nat)
  deriving DecidableEq, Repr
def resolveServed (s : State) (d : Nat) (r : Served) : Home :=
  let n := Nat.max 1 r.len
  match objEntry s (tableJob s d) d r.obj with
  | none => .refused 0x13 (if dirOutside s (tableJob s d) d r.obj then extentInfo r.obj 0 true else 0)
  | some (dir, nblk) =>
    if nblk ≤ (r.off + n - 1) / 65536 then .refused 0x13 0
    else
      let ws := walks s d dir r.off n
      match ws.find? (fun w => match w.2.2 with | .hbm _ _ => false | _ => true) with
      | none => .here (ws.filterMap (fun w => match w.2.2 with | .hbm p l => some (p, l, w.2.1) | _ => none))
      | some (o, _, w) =>
        let info := extentInfo r.obj (o / 65536) false
        let fwd := r.aux / 131072 % 2 = 1
        match w with
        | .peer m _ => if fwd || m = Config.moduleNumber then .refused 0x14 info else .peer m
        | .tier b l => if fwd then .refused 0x14 info else .tier b l
        | .absent o => .refused 0x14 (extentInfo r.obj (r.off / 65536) o)
        | _ => .refused 0x14 info
/-- The cycle in which a released request is performed: 96 cycles on, and over the bridges for a block of another die (15 R309). -/
def servedAt (s : State) (d : Nat) (ps : List (Nat × Nat × Nat)) : State × Nat :=
  match ps.find? (fun p => dieOfAddr p.1 != d) with
  | none => (s, s.now + 96)
  | some p =>
    let e := dieOfAddr p.1
    let at_ := s.now + 96 + 48 * hops d e
    bindBrgSpan s e at_ [p]
/-- An earlier request of the stream and class is not yet performed (R302). -/
def servedBlocked (f : Fabric) (r : Served) : Bool :=
  (f.served.takeWhile (fun q => q != r)).any (fun q => q.src == r.src && q.vc == r.vc && q.cl == r.cl)
/-- One request of a die: released in its order, then performed, forwarded, filled or refused. -/
def serveOne (s : State) (d : Nat) (r : Served) : State :=
  match r.at_ with
  | none =>
    if r.away.isSome || servedBlocked (fabOf s d) r then s
    else
      match resolveServed s d r with
      | .here ps =>
        let t := servedAt s d ps
        freeSlots (putServed t.1 d r { r with ports := [], at_ := some t.2, filling := false }) d r.src r.ports
      | .peer m => forwardServed s d r m
      | .tier b l =>
        let j := residentJob s d
        if r.filling && s.fills.any (fun f => match f.kind with | .extent leaf _ _ _ _ => leaf == l | _ => false) then s
        else if !canFill s j d then refuseServed (freeSlots (dropServed s d r) d r.src r.ports) d r 0x14 (extentInfo r.obj (r.off / 65536) false)
        else startFill (putServed s d r { r with filling := true }) l d b (tableJob s d).tier (extentInfo r.obj (r.off / 65536) false) []
      | .refused c i => refuseServed (freeSlots (dropServed s d r) d r.src r.ports) d r c i
  | some c =>
    if s.now < c then s
    else
      match resolveServed s d r with
      | .here ps => if ps.any (fun p => stackHeld s (stackOf p.1)) then s else performServed (dropServed s d r) d r ps
      | .refused c i => refuseServed (dropServed s d r) d r c i
      | _ => putServed s d r { r with at_ := none }
/-- Every request of a die, oldest first. -/
def servePhase (s : State) (d : Nat) : State := (fabOf s d).served.foldl (fun s r => serveOne s d r) s
/-- REMOTE_REQUEST_RELEASE (R302). -/
def execRemoteRequestRelease (die : Nat) (s : State) : Host.Outcome State Fault Refusal := .next (servePhase s die)

/-! ## Messages (02 R35, 15 R308, 25 R432, 26 R443) -/

/-- The message receive ring of a core: MRQBASE of its die. -/
def mrqBase (s : State) (k : Nat) : Nat := regRaw (dieOf s (dieOfCore k)) (0x3900 + 8 * (k % 80))
/-- The handler entry: its two words. -/
def handlerEntry (s : State) (d hnd : Nat) : Nat × Nat :=
  let a := regRaw (dieOf s d) 0x3800 % 1099511627776 + 16 * hnd
  (leVal (getBytes s.mem a 8), leVal (getBytes s.mem (a + 8) 8))
/-- Why a message is refused: no handler, ring disabled, longer than a slot. -/
def refusal (s : State) (m : Msg) : Option Nat :=
  let d := dieOfCore m.core
  if field (regRaw (dieOf s d) 0x3800) 40 1 = 0 || field (handlerEntry s d m.hnd).1 0 48 = 0 then some 0
  else if 640 ≤ m.core || field (mrqBase s m.core) 20 1 = 0 then some 1
  else if (hdrAt s m.core 3 (mrqBase s m.core % 1048576)).slotBytes < m.data.length then some 2
  else none
/-- A core above 639 is none: its message has no ring. -/
def refusalOf (s : State) (m : Msg) : Option Nat := if 640 ≤ m.core then some 1 else refusal s m
/-- The sender learns that its message has been written, or why it was refused. -/
def reportMessage (s : State) (m : Msg) (bs : List Byte) : State :=
  if m.src = Config.moduleNumber then takeReply s (m.tag / 512 % 8) m.tag m.inc 3 bs
  else
    let f := fabOf s m.die
    setFab s m.die { f with sendQ := f.sendQ ++ mkFlits s m.src 1 3 0 m.tag m.inc 0 bs }
/-- The handler task's record (R35): HPRIO above 23 is taken as 23, and its job is the one of the die's resident partition, 0 if none runs (log 87). -/
def handlerRecord (s : State) (m : Msg) (addr : Nat) : TaskRec :=
  let d := dieOfCore m.core
  let e := handlerEntry s d m.hnd
  { TaskRec.init with
    state := .held, entry := field e.1 0 48, prio := Nat.min 23 (field e.1 48 5), scope := 3, core := m.core, launch := field e.2 0 16,
    graph := field e.2 16 12, phase := field e.2 28 8, job := residentJob s d, msg := some (addr, m.data.length, m.src) }
def setMessages (s : State) (d : Nat) (ms : List Msg) : State := setFab s d { fabOf s d with messages := ms }
/-- The task of a message whose payload is in its slot: bound at once to a dormant context, else READY; without a FREE record the die tries
again 64 cycles later, and reports it once. -/
def createHandler (s : State) (d : Nat) (m : Msg) (addr : Nat) (first : Bool) : State :=
  match freeRec s d with
  | none =>
    let ms := (fabOf s d).messages.map (fun q => if q == m then { m with ports := [], placed := some (addr, s.now + 64) } else q)
    let s := setMessages s d ms
    if first then report s 0x22 (2 * d) else s
  | some r =>
    let v := handlerRecord s m addr
    let s := setMessages s d ((fabOf s d).messages.erase m)
    let s := countNew (setRec s d r v) v
    match recCancelled s v || swapping s m.core || !afterRoot s d r, lowestDormant s m.core with
    | false, some x => bindTask s d r m.core x
    | _, _ => makeReady s d r
/-- One message of a die: refused, written into the ring of its core, or waiting in its receive slots. -/
def messageOne (s : State) (d : Nat) (m : Msg) : State :=
  if m.placed.isSome then s
  else
    match refusalOf s m with
    | some why =>
      let s := setMessages s d ((fabOf s d).messages.erase m)
      reportMessage (freeSlots s m.die m.src m.ports) m (leBytes 1 0x26 ++ leBytes 1 why)
    | none =>
      let k := m.core
      let a := mrqBase s k % 1048576
      let h := hdrAt s k 3 a
      if h.free = 0 || ((fabOf s d).messages.takeWhile (fun q => q != m)).any (fun q => q.core == k && q.placed.isNone) then s
      else
        let addr := h.slotAt h.head
        let s := match foreignRegion s k 3 addr m.data.length with | some r => swapRegion k r s | none => s
        let s := moveRing (writeBuf s k .other 3 addr m.data false) k .other 3 a 1 0 (-1)
        let s := freeSlots s m.die m.src m.ports
        createHandler (reportMessage s m []) d m addr true
/-- The messages of a die, in the order they came. -/
def messagePhase (s : State) (d : Nat) : State := (fabOf s d).messages.foldl (fun s m => messageOne s d m) s
/-- MESSAGE_ARRIVAL (R35). -/
def execMessageArrival (die : Nat) (s : State) : Host.Outcome State Fault Refusal := .next (messagePhase s die)
/-- Messages whose task waits for a FREE record try again. -/
def retryMessages (s : State) (d : Nat) : State :=
  (fabOf s d).messages.foldl (fun s m => match m.placed with
    | some (addr, t) => if t ≤ s.now then createHandler s d m addr false else s
    | none => s) s
/-- MESSAGE_CREATE_RETRY (R443). -/
def execMessageCreateRetry (die : Nat) (s : State) : Host.Outcome State Fault Refusal := .next (retryMessages s die)

/-! ## A tier read that fails (26 R448) -/

/-- A context that waited for a failed fill traps at its restart point. -/
def trapFill (s : State) (k x info : Nat) : State :=
  let c := ctxOf s k x
  if c.status ≠ .filling then s
  else trapEntry (setCtx s k x { c with status := .bound, toRun := true }) k x 0x14 c.pc none info
/-- EINFO of 0x14 after a failed read: bit 63. -/
def failInfo (info : Nat) : Nat := info % 9223372036854775808 + 9223372036854775808
/-- The beat that a subscription has to make lies in the extent of a leaf. -/
def subWaits (s : State) (k x leaf : Nat) (u : Sub) : Bool :=
  match (slotSpans u (hdrAt s k u.buf u.hdr).slotBytes)[u.cmd.word]?, objEntry s (ctxJob s k x) (dieOfCore k) u.cmd.cap.index with
  | some p, some (dir, _) => (walks s (dieOfCore k) dir p.1.toNat p.2).any (fun w => match w.2.2 with | .tier _ l => l == leaf | _ => false)
  | _, _ => false
/-- An extent fill ends: the block is back in the pool, waiting contexts trap, waiting engines stop, remote requests are refused. -/
def extentFailed (s : State) (f : Fill) (leaf d info : Nat) (ws : List (Nat × Nat)) : State :=
  let die := dieOf s d
  let s := setDie { s with fills := s.fills.erase f } d (setReg die 0x3008 (regRaw die 0x3008 + 1))
  let s := ws.foldl (fun s w =>
    if w.2 < 8 || 128 ≤ w.2 then atWaiter s w (fun s x => trapFill s w.1 x (failInfo info))
    else
      let e := w.2 / 8 - 1
      let x := w.2 % 8
      if e = 2 || e = 3 then
        let us := (ctxOf s w.1 x).eng.subs
        (match (List.range us.length).find? (fun n => us[n]?.any (fun u => u.store == (e == 3) && subWaits s w.1 x leaf u)) with
        | some n =>
          (match us[n]? with
          | some u =>
            let s := setSubs s w.1 x (us.take n ++ (us.drop n).filter (fun v => v.store != u.store))
            setCtx s w.1 x (raiseA (ctxOf s w.1 x) 0x14 (failInfo (engInfo u.cmd.sem e)))
          | none => s)
        | none => s)
      else
        match (ctxOf s w.1 x).eng.queue e with
        | m :: _ => stopWith s w.1 x e 0x14 (failInfo (engInfo m.sem e))
        | [] => s) s
  let s := (List.range 8).foldl (fun s e =>
    (fabOf s e).served.foldl (fun s r =>
      match r.filling, resolveServed s e r with
      | true, .tier _ l => if l = leaf then refuseServed (freeSlots (dropServed s e r) e r.src r.ports) e r 0x14 (extentInfo r.obj (r.off / 65536) false) else s
      | _, _ => s) s) s
  report s 0x35 f.tblk
/-- The read of the first fill fails; the third failure ends it. -/
def tierFailure (s : State) : State :=
  match s.fills with
  | [] => s
  | f :: rest =>
    if f.tries < 2 then { s with fills := { f with tries := f.tries + 1 } :: rest }
    else
      match f.kind with
      | .extent leaf d _ info ws => extentFailed s f leaf d info ws
      | .expert key d _ _ _ => report (expertFailed { s with fills := rest } key d) 0x35 (f.tblk + 16777216 * key)
/-- TIER_READ_FAILURE (R448). -/
def execTierReadFailure (s : State) : Host.Outcome State Fault Refusal := .next (tierFailure s)

end Sys2Proof.Machine
end

