-- ==== Sys2Proof/Machine/Optics.lean ====
section
/-! DEFINITION. Machine/Optics.lean: rotations, slots and the slot pattern (15 R295 to R299, R304, R305), the writes of Garod to fabric
registers, optical faults and their recovery (25 R437 to R440). -/

namespace Sys2Proof.Machine

/-! ## Rotations and slots -/

/-- The torus mode that a bank holds for this module: 1 to 3, else 0 (R300). -/
def torusOf (die : Die) (bank : Nat) : Nat :=
  let holds : Nat → Bool := fun m => (List.range 8).all (fun sl => ringPlaces.all (fun pm =>
    bankEntry die bank sl pm.1 pm.2 == torusEntry m Config.moduleNumber sl pm.1 pm.2))
  (([1, 2, 3] : List Nat).find? holds).getD 0
/-- The pattern bank switches where it is armed for a rotation that has come (R299). -/
def switchBank (s : State) (d : Nat) : State :=
  let die := dieOf s d
  let v := regRaw die 0x0708
  if field v 1 1 = 1 && decide (field v 32 32 ≤ s.rot) then
    let late := decide (field v 32 32 < s.rot)
    let die := { die with switched := s.rot, torus := torusOf die (1 - v % 2) }
    setDie (if late then noteHw s d 0x0708 v (fun n => n ||| 4) else s) d (setReg die 0x0708 ((v ^^^ 1) - 2 + (if late && field v 2 1 = 0 then 4 else 0)))
  else s
/-- Keys whose rotation has come (R305). -/
def activateKeys (f : Fabric) (rot : Nat) : Fabric :=
  { f with keys := f.keys.map (fun p => if p.2.nextAt.any (fun a => a ≤ rot) then (p.1, ⟨p.2.next, 0#256, none⟩) else p) }
/-- Pool corrections take effect (R433). -/
def applyAudits (f : Fabric) : Fabric :=
  { f.corrections.foldl (fun (g : Fabric) p => { g with pool := mapSet g.pool 384 p.1 (p.2 - 1) }) f with corrections := [] }
/-- Positions of four rotations ago can be taken anew, the count of bad positions starts again, and every 64 rotations the sources heard
from are audited. -/
def turnPositions (f : Fabric) (rot : Nat) : Fabric :=
  let f := { f with taken := f.taken.filter (fun p => rot < p.2.rot + 4), badPos := 0 }
  if rot % 64 = 0 then auditAll f else f
/-- The failures of each ring since the last report (R430). -/
def reportFaults (s : State) (d : Nat) : State :=
  let f := fabOf s d
  let s := f.faults.foldl (fun s p => report s 0x2C (d + 8 * p.1 + 256 * p.2)) s
  setFab s d { f with faults := [] }
/-- Data resumes two rotations after the repair's, when every position was heard well; else every flit waits for the next repair (R440). -/
def endRepair (s : State) : State :=
  match s.ga.repair with
  | none => s
  | some a =>
    if s.rot ≠ a + 2 then s
    else if (List.range 8).all (fun d => (fabOf s d).failed.all (fun x => x.pos.rot < a)) then
      (List.range 8).foldl (fun s d => let f := fabOf s d; if f.desync.isNone then s else setFab s d { f with desync := none })
        { s with ga := { s.ga with repair := none, repairFailed := false } }
    else { s with ga := { s.ga with repairFailed := true } }
/-- A queued flit that a channel's new mode has no room for goes out as two: the second takes a receive slot of the pool (R304, log 20). -/
def recutFlit (s : State) (g : Flit) : List Flit :=
  if g.kind = 12 || g.len ≤ flitRoom s g.vc then [g]
  else
    let n := flitRoom s g.vc
    [{ g with len := n, last := false, payload := BitVec.ofNat 896 (leVal ((Flit.bytes g).take n)) },
     { g with len := g.len - n, payload := BitVec.ofNat 896 (leVal ((Flit.bytes g).drop n)) }]
def recutQueue (s : State) (d : Nat) : State :=
  let f := fabOf s d
  if f.sendQ.all (fun g => g.kind == 12 || decide (g.len ≤ flitRoom s g.vc)) then s
  else
    setFab s d (f.sendQ.foldl (fun (f : Fabric) g =>
      let gs := recutFlit s g
      let f := if gs.length = 2 && paidFlit g && 0 < poolOf f g.dst then
          { f with pool := mapSet f.pool 384 g.dst (poolOf f g.dst - 1), spent := f.spent ++ [(g.dst, 8000 + g.vc)] }
        else f
      { f with sendQ := f.sendQ ++ gs }) { f with sendQ := [] })
/-- What a die's unit does as a rotation starts. -/
def dieRotation (s : State) (d : Nat) : State :=
  let s := reportFaults (switchBank s d) d
  let f := fabOf s d
  refreshPeers (recutQueue (setFab s d (turnPositions (applyAudits (activateKeys f s.rot)) s.rot)) d) d
/-- Armed patterns, keys, channel modes and corrections take effect. -/
def enterRotation (s : State) : State :=
  let s := { s with ga := { s.ga with vcsec := s.ga.vcsecNext } }
  endRepair ((List.range 8).foldl dieRotation s)
/-- Bring-up has ended (18 R361). -/
def isUp (s : State) : Bool := s.ga.boot = 3 || s.ga.boot = 5
/-- The strobe of a rotation, `away` cycles from the module's own rotation start; the first after bring-up counts rotation 0 (R296). One that
comes after the module's own start, when that has passed already, counts no rotation of its own. -/
def rotationStart (s : State) (away : Nat) : State :=
  if !isUp s then s else
  let first := !s.ga.strobed
  let new := !first && decide (2560 ≤ s.now - s.rotAt)
  let s := { s with rot := if new then (s.rot + 1) % 4294967296 else s.rot, rotAt := s.now, ga := { s.ga with strobed := true } }
  let s := if first || new then enterRotation s else s
  if !first && 4 < away && (fabOf s 0).desync.isNone then desynchronise s else s
/-- ROTATION_START (R296). -/
def execRotationStart (away : Nat) (s : State) : Host.Outcome State Fault Refusal := .next (rotationStart s away)
/-- The module's own rotation start has passed without a strobe (R439). -/
def strobeMissing (s : State) : State :=
  let s := if s.rotAt + 5120 ≤ s.now then enterRotation { s with rot := (s.rot + 1) % 4294967296, rotAt := s.rotAt + 5120 } else s
  desynchronise s
/-- STROBE_MISSING (R439). -/
def execStrobeMissing (die : Nat) (s : State) : Host.Outcome State Fault Refusal :=
  .next (if (fabOf s die).desync.isSome then s else strobeMissing s)

/-- RINGMAP values written before a slot boundary are used from it, those of a guard from the next (R294). -/
def stageRings (s : State) (d : Nat) : State :=
  let die := dieOf s d
  let due := die.eff.filter (fun p => decide (0x10000 ≤ p.1) && decide (p.1 < 0x20000))
  let late := die.eff.filter (fun p => decide (0x20000 ≤ p.1))
  if due.isEmpty && late.isEmpty then s
  else
    let die := due.foldl (fun (e : Die) p => setEff (setEff e p.1 0) (p.1 - 0x10000) (p.2 - 1)) die
    let die := late.foldl (fun (e : Die) p => setEff (setEff e p.1 0) (p.1 - 0x10000) p.2) die
    setDie s d die
/-- A slot begins. -/
def slotBoundary (s : State) : State :=
  if slotCycle s ≠ 0 then s else (s.dies.map (·.1)).foldl (fun s d => refreshPeers (stageRings s d) d) s
/-- SLOT_BOUNDARY (R296). -/
def execSlotBoundary (s : State) : Host.Outcome State Fault Refusal := .next (slotBoundary s)

/-! ## Garod's registers -/

/-- The enabled rings of one port in one slot name distinct channels, the transmit rings and the receive rings each among themselves (R298). -/
def portDistinct (es : List Nat) : Bool := ((es.filter txOn).map txChan).Nodup && ((es.filter rxOn).map rxChan).Nodup
/-- A pattern that every module of the pod holds is conflict-free: a transmit entry on a channel is enabled exactly where the same entry receives
that channel (R298). -/
def conflictFree (entry : Nat → Nat → Nat → Nat) : Bool :=
  (List.range 8).all (fun sl => (List.range 4).all (fun k =>
    let es := (List.range 8).map (entry sl k)
    portDistinct es && es.all (fun e => txOn e == rxOn e && (!txOn e || txChan e == rxChan e))))
/-- A torus pattern of this module, which the torus feature admits (R298, R300, 18 R352). -/
def torusLegal (s : State) (entry : Nat → Nat → Nat → Nat) : Bool :=
  field s.ga.modFeatures 1 1 = 1 && ([1, 2, 3] : List Nat).any (fun m => (List.range 8).all (fun sl => ringPlaces.all (fun pm =>
    entry sl pm.1 pm.2 == torusEntry m Config.moduleNumber sl pm.1 pm.2)))
/-- Garod installs only conflict-free patterns and those of the torus modes (R298). -/
def patternLegal (s : State) (entry : Nat → Nat → Nat → Nat) : Bool := conflictFree entry || torusLegal s entry
/-- PATCTL is written: AT and ARM, where the inactive bank holds a pattern that Garod installs; LATE clears where 1 is written. -/
def writePatctl (s : State) (die val : Nat) : State :=
  let old := dieOf s die
  let val := if field val 1 1 = 1 && !patternLegal s (bankEntry old (1 - bankNow old)) then val - 2 else val
  let d := regPut old 0x0708 val
  setDie s die (if field val 2 1 = 1 && field (hwLeft s die 0x0708) 2 1 = 0 then setReg d 0x0708 (without (regRaw d 0x0708) 4) else d)
/-- PATCTL_WRITE (R299). -/
def execPatctlWrite (die val : Nat) (s : State) : Host.Outcome State Fault Refusal := .next (writePatctl s die val)
/-- VCSEC is written: from the next rotation; ignored while the feature is off (18 R352). -/
def writeVcsec (s : State) (val : Nat) : State :=
  if field s.ga.modFeatures 0 1 = 1 then { s with ga := { s.ga with vcsecNext := val % 65536 } } else s
/-- VCSEC_WRITE (R304). -/
def execVcsecWrite (val : Nat) (s : State) : Host.Outcome State Fault Refusal := .next (writeVcsec s val)
/-- SPLOCK of a die takes CHAN and EN; a new request is not locked yet. -/
def askLock (s : State) (d n val : Nat) : State :=
  let die := dieOf s d
  let off := 0x0600 + 8 * (n % 16)
  let old := regRaw die off
  setDie s d (setReg die off (if old % 128 = val % 128 && field val 6 1 = 1 then old else val % 128))
/-- SPLOCK_WRITE (R438). -/
def execSplockWrite (die n val : Nat) (s : State) : Host.Outcome State Fault Refusal := .next (askLock s die n val)
/-- Garod writes a register that only it writes (R283, R297, R299, R310, 25 R441, log 81); an entry of the active pattern bank stays (R297). -/
def garodWrite (s : State) (d off v : Nat) : State :=
  if off = 0x0708 then writePatctl s d v
  else if off = 0x0718 then writeVcsec s v
  else if 0x0600 ≤ off && off < 0x0680 then askLock s d ((off - 0x0600) / 8) v
  else if 0x1000 ≤ off && off < 0x3000 && decide ((off - 0x1000) / 0x1000 = bankNow (dieOf s d)) then s
  else setDie s d (regPut (dieOf s d) off v)
/-- REGISTER_WRITE (27 R453): a store to a register of the object; of one that only Garod writes, Garod's write (log 81). -/
def execRegisterWrite (die off val : Nat) (s : State) : Host.Outcome State Fault Refusal :=
  let off := off / 8 * 8 % 16384
  .next (if garodOnly off then garodWrite s die off val else regWrite s die off val)
/-- HEATER_EFFECT (R310): the heater of a ring takes the code written. -/
def execHeaterEffect (die ring : Nat) (s : State) : Host.Outcome State Fault Refusal :=
  let d := dieOf s die
  .next (setDie s die (setEff d (8 * (ring % 64)) (regRaw d (8 * (ring % 64)))))

/-! ## Recovery of lines and rings (R438) -/

def sourceDies (src : Nat) : List Nat := (List.range 4).map (fun i => 4 * src + i)
/-- Lock the lowest free spare of a source to a channel; one already asked for it serves. -/
def lockSpare (s : State) (src ch : Nat) : Option State :=
  let lock : Nat → Nat := fun k => regRaw (dieOf s (4 * src)) (0x0600 + 8 * (8 * src + k))
  if (List.range 8).any (fun k => field (lock k) 6 1 = 1 && field (lock k) 0 6 = ch) then some s
  else ((List.range 8).find? (fun k => field (lock k) 6 1 = 0)).map (fun k =>
    (sourceDies src).foldl (fun s d => askLock s d (8 * src + k) (ch + 64)) s)
/-- The channels of a transmit ring's enabled entries. -/
def ringChannels (s : State) (d n : Nat) : List Nat :=
  ((List.range 8).filterMap (fun i => let e := patEntry (dieOf s d) i (n / 16) (n % 16); if txOn e then some (txChan e) else none)).eraseDups
def isTx (n : Nat) : Bool := decide (n % 16 < 8)
/-- A ring is retired. -/
def retire (s : State) (d n : Nat) : State :=
  let f := fabOf s d
  setFab s d { f with retired := mapSet f.retired false n true, recover := mapSet f.recover 0 n 0 }
/-- The recovery of a ring begins. -/
def beginRecovery (s : State) (d n : Nat) : State :=
  let f := fabOf s d
  setFab s d { f with recover := mapSet f.recover 0 n (s.now + 1) }
/-- Garod writes a ring's override. -/
def overrideRing (s : State) (d n ch line : Nat) : State :=
  let m := regRaw (dieOf s d) (0x0400 + 8 * n)
  if field m 13 1 = 1 && field m 6 7 ≠ line then retire s d n
  else
    let s := regWrite s d (0x0400 + 8 * n) (ch + 64 * line + 8192)
    let f := fabOf s d
    setFab s d { f with recover := mapSet f.recover 0 n 0 }
/-- A spare is locked: where a die of the source has lost its channel's line, every transmit ring of the source's ports that names the channel
is mapped to it, else the rings that recover onto it. -/
def spareLocked (s : State) (src k : Nat) : State :=
  let off := 0x0600 + 8 * (8 * src + k)
  let v := regRaw (dieOf s (4 * src)) off
  let ch := field v 0 6
  if field v 6 1 = 0 || field v 7 1 = 1 then s
  else
    let s := (sourceDies src).foldl (fun s d => setDie s d (setReg (dieOf s d) off (regRaw (dieOf s d) off ||| 128))) s
    (sourceDies src).foldl (fun s d =>
      let lost := (sourceDies src).any (fun e => field (regRaw (dieOf s e) (0x0768 + 8 * src)) ch 1 = 1)
      ((List.range 64).filter (fun n => isTx n && (ringChannels s d n).contains ch && !mapGet (fabOf s d).retired false n
          && (lost || mapGet (fabOf s d).recover 0 n ≠ 0))).foldl (fun s n => overrideRing s d n ch (64 + k)) s) s
/-- Rings wait for the spare of their channel to be locked; one that is locked already serves them at once. -/
def recoverRings (s : State) (d src ch : Nat) (rings : List Nat) : State :=
  let lock : Nat → Nat := fun k => regRaw (dieOf s (4 * src)) (0x0600 + 8 * (8 * src + k))
  match (List.range 8).find? (fun k => field (lock k) 7 1 = 1 && field (lock k) 0 6 = ch) with
  | some k => rings.foldl (fun s n => overrideRing s d n ch (64 + k)) s
  | none => rings.foldl (fun s n => beginRecovery s d n) s
/-- SPARE_LINE_LOCKED (R438). -/
def execSpareLineLocked (source spare : Nat) (s : State) : Host.Outcome State Fault Refusal := .next (spareLocked s (source % 2) (spare % 8))
/-- A recovery not done within 2^16 cycles is reported and leaves the ring retired. -/
def recoveryTimeout (s : State) (d n : Nat) : State :=
  let t := mapGet (fabOf s d).recover 0 n
  if t = 0 || s.now < t - 1 + 65536 then s else report (retire s d n) 0x31 (d + 8 * n)
/-- OPTICS_RECOVERY_TIMEOUT (R438). -/
def execOpticsRecoveryTimeout (die ring : Nat) (s : State) : Host.Outcome State Fault Refusal := .next (recoveryTimeout s die (ring % 64))

/-! ## Photodiode readings (R437) -/

/-- A spare line that carries a channel is lost: it is reported once, and the rings mapped to it, whose override is in use, are retired (R438). -/
def spareLost (s : State) (d c : Nat) : State :=
  let f := fabOf s d
  let lock := regRaw (dieOf s d) (0x0600 + 8 * (8 * sourceOf d + (c - 64)))
  if field lock 7 1 = 0 || mapGet f.below 0 (300 + c) = 1 then s
  else
    let s := setFab s d { f with below := mapSet f.below 0 (300 + c) 1 }
    let s := optEvent (report s 0x2F (d + 8 * c)) d 0 0 c
    let mapped : Nat → Bool := fun n => let m := regRaw (dieOf s d) (0x0400 + 8 * n); isTx n && field m 13 1 == 1 && field m 6 7 == c
    ((List.range 64).filter mapped).foldl (fun s n => retire s d n) s
/-- A line that reads below LOSS twice in a row is lost. -/
def readLine (s : State) (d c level : Nat) : State :=
  let f := fabOf s d
  let src := sourceOf d
  let low := decide (level < field (regRaw (dieOf s d) 0x0740) 0 12)
  let n := if low then Nat.min 2 (mapGet f.below 0 c + 1) else 0
  let s := setFab s d { f with below := mapSet f.below 0 c n }
  let off := 0x0768 + 8 * src
  if n < 2 then s
  else if 64 ≤ c then spareLost s d c
  else if field (regRaw (dieOf s d) off) c 1 = 1 then s
  else
    let s := setDie s d (setReg (dieOf s d) off (regRaw (dieOf s d) off + 2 ^ c))
    let s := optEvent (report s 0x2F (d + 8 * c)) d 0 0 c
    let rings := (List.range 64).filter (fun n => isTx n && (ringChannels s d n).contains c)
    match lockSpare s src c with
    | some t => recoverRings t d src c rings
    | none => rings.foldl (fun s n => retire s d n) s
/-- The physical line of a ring in the current slot: the spare of its override in effect, else its channel's own. -/
def lineOf (s : State) (d n : Nat) : Nat :=
  let e := patEntry (dieOf s d) (slotNow s) (n / 16) (n % 8)
  let ch := if isTx n then txChan e else rxChan e
  let m := effRaw (dieOf s d) (0x0400 + 8 * n)
  if field m 13 1 = 1 && field m 0 6 = ch then field m 6 7 else ch
/-- The line of a ring in the current slot is lost. -/
def lineLost (s : State) (d n : Nat) : Bool :=
  let e := patEntry (dieOf s d) (slotNow s) (n / 16) (n % 8)
  let m := effRaw (dieOf s d) (0x0400 + 8 * n)
  isTx n && !(field m 13 1 = 1 && field m 0 6 = txChan e) && field (regRaw (dieOf s d) (0x0768 + 8 * sourceOf d)) (txChan e) 1 = 1
/-- A saturated ring: a transmit ring of one channel goes to a spare, any other is retired. -/
def saturated (s : State) (d n : Nat) : State :=
  match isTx n, ringChannels s d n with
  | true, [ch] =>
    if field (regRaw (dieOf s d) (0x0400 + 8 * n)) 13 1 = 1 then retire s d n
    else (match lockSpare s (sourceOf d) ch with | some t => recoverRings t d (sourceOf d) ch [n] | none => retire s d n)
  | _, _ => retire s d n
/-- One reading of a ring: in lock, or low; drift after DWELL low readings, saturation at an end of the heater's range; each once until it
is back in lock. -/
def readRing (s : State) (d n level : Nat) : State :=
  let s := setDie s d (setReg (dieOf s d) (0x0200 + 8 * n) (level % 4096))
  let f := fabOf s d
  let cfg := regRaw (dieOf s d) 0x0740
  if field cfg 12 12 ≤ level % 4096 then setFab s d { f with below := mapSet (mapSet f.below 0 (100 + n) 0) 0 (200 + n) 0 }
  else
    let c := Nat.min 256 (mapGet f.below 0 (100 + n) + 1)
    let code := regRaw (dieOf s d) (8 * n)
    let sat := code = 0 || code = 4095
    let told := mapGet f.below 0 (200 + n) = 1
    let line := lineOf s d n
    let s := setFab s d { f with below := mapSet f.below 0 (100 + n) c }
    if lineLost s d n || mapGet f.retired false n then s
    else if sat then
      (if told then s
       else
         let g := fabOf s d
         saturated (optEvent (report (setFab s d { g with below := mapSet g.below 0 (200 + n) 1 }) 0x31 (d + 8 * n)) d 2 n line) d n)
    else if c = field cfg 24 8 then optEvent (report s 0x30 (d + 8 * n)) d 1 n line
    else s
/-- MPD_REFRESH (R437): the readings of a die's 64 photodiodes and of its source's 72 line monitors. -/
def execMpdRefresh (die : Nat) (levels lines : List Nat) (s : State) : Host.Outcome State Fault Refusal :=
  let s := (List.range (Nat.min 72 lines.length)).foldl (fun s c => readLine s die c (lines.getD c 0)) s
  .next (refreshPeers ((List.range (Nat.min 64 levels.length)).foldl (fun s n => readRing s die n (levels.getD n 0)) s) die)

/-! ## Pattern repair (R440) -/

/-- The inactive bank of a die takes a pattern of 2,048 entries, armed for a rotation. -/
def armPattern (s : State) (d rotation : Nat) (pattern : List Nat) : State :=
  let die := dieOf s d
  let v := regRaw die 0x0708
  let base := 0x1000 + 0x1000 * (1 - v % 2)
  let word : Nat → Nat := fun i => (List.range 4).foldl (fun n j => n + maskTo (pattern.getD (4 * i + j) 0) 0x7F7F * 65536 ^ j) 0
  let die := (List.range 512).foldl (fun (e : Die) i => setReg e (base + 8 * i) (word i)) die
  setDie s d (setReg die 0x0708 (v % 2 + 2 + 4 * field v 2 1 + 4294967296 * (rotation % 4294967296)))
/-- PATTERN_REPAIR_START (R440): the rotation is at least 16 ahead, and the pattern one that Garod installs (R298). -/
def execPatternRepairStart (rotation : Nat) (pattern : List Nat) (s : State) : Host.Outcome State Fault Refusal :=
  .next (if rotation < s.rot + 16 || !patternLegal s (fun sl k m => maskTo (pattern.getD (256 * sl + 8 * k + m) 0) 0x7F7F) then s
    else (List.range 8).foldl (fun s d => armPattern s d rotation pattern) { s with ga := { s.ga with repair := some rotation } })

end Sys2Proof.Machine
end

