-- ==== Sys2Proof/Machine/Checkpoint.lean ====
section
/-! DEFINITION. Machine/Checkpoint.lean: the checkpoint engine (18 R357 to R360): freeze, streaming of records, completion, what abandons a
checkpoint, and the restore of a partition. Records are kept at the addresses they are written to (log 37). -/

namespace Sys2Proof.Machine

/-! ## Partitions by number (14 R289) -/

/-- The number of a die's partition among those of one kind. -/
def groupOf (s : State) (d : Nat) : Nat := d / (8 / s.ga.parts)
/-- The first die of a die group, and its dies. -/
def groupFirst (s : State) (g : Nat) : Nat := g * (8 / s.ga.parts)
def diesOfGroup (s : State) (g : Nat) : List Nat := (List.range (8 / s.ga.parts)).map (fun i => groupFirst s g + i)
/-- The cores of a die group. -/
def coresOfGroup (s : State) (g : Nat) : List Nat := (diesOfGroup s g).flatMap (fun d => (List.range 80).map (fun i => 80 * d + i))
/-- The partition resident on a die group: the group's number, plus 8 for the one that began on standby (log 38). -/
def residentSide (s : State) (g : Nat) : Nat := (coreOf s (80 * groupFirst s g)).part
/-- The partition that a mailbox command names by its group and STBY: the one on standby now, or the resident one (log 38). -/
def sideOf (s : State) (g : Nat) (stby : Bool) : Nat :=
  let r := residentSide s g
  if stby then (if 8 ≤ r then r - 8 else r + 8) else r
/-- The job posted or running on a partition, with its identifier. -/
def jobAt (s : State) (side : Nat) : Option (Nat × Job) := s.jobs.find? (fun j => j.2.part + (if j.2.standby then 8 else 0) == side)

/-! ## The frozen set (R357) -/

/-- The leaf entry of block x of an object and its value, where its page is the partition's. -/
def leafOfBlock (s : State) (d dir x : Nat) : Option (Nat × Nat) :=
  let e := leVal (getBytes s.mem (dir * 65536 + 8 * (x / 8192)) 8)
  if field e 24 1 = 0 || !sameGroup s d (field e 0 24 / 2097152) then none
  else
    let la := field e 0 24 * 65536 + 8 * (x % 8192)
    some (la, leVal (getBytes s.mem la 8))
/-- The blocks of an object that are in HBM and DIRTY: (block, object, extent block, leaf). -/
def dirtyOf (s : State) (job : Job) (d ix : Nat) : List (Nat × Nat × Nat × Nat) :=
  match objEntry s job d ix with
  | none => []
  | some (dir, n) => (List.range n).filterMap (fun x =>
      match leafOfBlock s d dir x with
      | some (la, l) => if field l 34 1 = 1 && field l 28 2 = 0 then some (field l 0 24, ix, x, la) else none
      | none => none)
/-- Insert by block number. -/
def insertBlock (b : Nat × Nat × Nat × Nat) (l : List (Nat × Nat × Nat × Nat)) : List (Nat × Nat × Nat × Nat) :=
  match l with
  | [] => [b]
  | a :: rest => if b.1 < a.1 then b :: a :: rest else a :: insertBlock b rest
/-- The DIRTY blocks of a partition in ascending stack, then block, order. -/
def dirtySet (s : State) (job : Job) (d : Nat) : List (Nat × Nat × Nat × Nat) :=
  ((List.range job.nobj).flatMap (fun ix => dirtyOf s job d ix)).foldl (fun l b => insertBlock b l) []
/-- DIRTY of a leaf entry. -/
def setDirty (s : State) (leaf : Nat) (on : Bool) : State :=
  let b := getByte s.mem (leaf + 4)
  putUnit s (leaf + 4) [if on then b ||| 4#8 else b &&& ~~~4#8]

/-! ## Freeze (R357, R358) -/

/-- A mark has been taken: its command goes and its semaphore counts (12 R257). -/
def markTaken (s : State) (k x sem : Nat) : State :=
  match (ctxOf s k x).eng.ck with
  | m :: rest => if m.upc = 1 then creditSem (setQueue s k x 6 rest) k x sem 4 else s
  | [] => s
/-- The first mark held: stale, or the freeze of its partition; none while a stream runs. -/
def freeze (s : State) : State :=
  match s.ck.active, s.ck.marks with
  | none, (k, x, sem, seq) :: rest =>
    let s := { s with ck := { s.ck with marks := rest } }
    if s.ck.lastSeq.any (fun q => seq ≤ q) then markTaken (noteHw { s with ga := { s.ga with stale := true } } 8 0x070 0 (fun n => n ||| 2)) k x sem
    else
      let side := (coreOf s k).part
      let d := dieOfCore k
      let j := match jobAt s side with | some j => j.2 | none => Job.init
      let bs := dirtySet s j d
      let s := bs.foldl (fun s b => setDirty s b.2.2.2 false) s
      let n := Config.unitDelay s.free
      markTaken { s with
        free := s.free + 1
        ck := { s.ck with active := some (seq, side), job := j, frozen := bs, preserved := [], streamed := [], lastSeq := some seq, at_ := s.now + 1 + n } } k x sem
  | _, _ => s
/-- CHECKPOINT_FREEZE (R357). -/
def execCheckpointFreeze (s : State) : Host.Outcome State Fault Refusal := .next (freeze s)

/-! ## Streams (R357, R360) -/

/-- Where a partition's stream area lies: host memory, or an object of a peer behind it (log 37). -/
def areaBase (j : Job) : Nat := if j.ckkind = 0 then j.ckhost * 4096 else 2 ^ 100 + 2 ^ 90 * j.ckpeer + 2 ^ 60 * j.ckobj
def areaSize (j : Job) : Nat := 1048576 * j.cksz
/-- The header of a record. -/
def recordHeader (seq obj x kind blocks : Nat) : List Byte :=
  leBytes 8 seq ++ leBytes 8 (obj + 67108864 * x) ++ leBytes 8 (kind + 4294967296 * blocks) ++ List.replicate 40 0#8
/-- A record is written at an address; what it overlaps is gone. -/
def putRecord (out : List (Nat × List Byte)) (a : Nat) (bs : List Byte) : List (Nat × List Byte) :=
  out.filter (fun r => !(decide (r.1 < a + bs.length) && decide (a < r.1 + r.2.length))) ++ [(a, bs)]
/-- The running checkpoint is abandoned: every block of its set is DIRTY again (R358). -/
def abandonStream (s : State) : State :=
  let s := s.ck.frozen.foldl (fun s b => setDirty s b.2.2.2 true) s
  let s := s.ck.streamed.foldl (fun s la => setDirty s la true) s
  noteHw { s with ck := { s.ck with active := none, frozen := [], preserved := [], streamed := [] }, ga := { s.ga with fail := true } } 8 0x070 0
    (fun n => n ||| 4)
/-- A stack's preserve area has more spans than it holds. -/
def preserveFull (s : State) (j : Job) : Bool :=
  (List.range 16).any (fun st => decide (4096 * j.ckpres < (s.ck.preserved.filter (fun p => stackOf (256 * p.1) == st)).length))
/-- A record of the stream goes out at the write position, from a die; none where it would pass the end of the area or the peer feature is
off. -/
def writeRecord (s : State) (side : Nat) (j : Job) (d : Nat) (bs : List Byte) : Option State :=
  let pos := mapGet s.ck.pos 0 side
  if areaSize j < pos + bs.length || (j.ckkind = 1 && field j.features 4 1 = 0) then none
  else
    let s := { s with ck := { s.ck with pos := mapSet s.ck.pos 0 side (pos + bs.length), out := putRecord s.ck.out (areaBase j + pos) bs } }
    if j.ckkind = 0 then some s
    else
      let f := fabOf s d
      some (setFab s d { f with sendQ := f.sendQ ++ mkFlits s j.ckpeer 6 11 0 0 0 0 (addrWord j.ckobj pos 15 ++ bs) })
/-- The bytes of a frozen block: spans that were preserved, and the rest from HBM. -/
def blockImage (s : State) (pbn : Nat) : List Byte :=
  (List.range 256).flatMap (fun i =>
    let a := pbn * 65536 + 256 * i
    match mapGet s.ck.preserved [] (a / 256) with
    | [] => getBytes s.mem a 256
    | bs => bs)
/-- The next frozen block is streamed as one record. -/
def streamBlock (s : State) : State :=
  match s.ck.active, s.ck.frozen with
  | some (seq, side), (pbn, obj, x, leaf) :: rest =>
    let j := s.ck.job
    if preserveFull s j then abandonStream s
    else if stackHeld s (stackOf (pbn * 65536)) then s
    else
      match writeRecord s side j (pbn / 2097152) (recordHeader seq.toNat obj x 0 0 ++ blockImage s pbn) with
      | none => abandonStream s
      | some s =>
        let n := Config.unitDelay s.free
        { s with
          free := s.free + 1
          ck := { s.ck with frozen := rest, streamed := s.ck.streamed ++ [leaf], at_ := s.now + 1 + n
                            preserved := s.ck.preserved.filter (fun p => p.1 / 256 != pbn) } }
  | _, _ => s
/-- CHECKPOINT_BLOCK_STREAM (R357). -/
def execCheckpointBlockStream (s : State) : Host.Outcome State Fault Refusal := .next (streamBlock s)

/-- Records of a stream are still on their way to a peer. -/
def recordsLeaving (s : State) : Bool := s.dies.any (fun d => d.2.fab.sendQ.any (fun g => g.kind == 11))
/-- The end record is written, with the count of blocks, and the sequence number is the last complete one. -/
def completeStream (s : State) : State :=
  match s.ck.active, s.ck.frozen with
  | some (seq, side), [] =>
    if s.ck.job.ckkind = 1 && recordsLeaving s then s
    else
      match writeRecord s side s.ck.job (groupFirst s (side % 8)) (recordHeader seq.toNat 0 0 1 s.ck.streamed.length) with
      | none => abandonStream s
      | some s => { s with ck := { s.ck with active := none, streamed := [], preserved := [], complete := seq } }
  | _, _ => s
/-- CHECKPOINT_COMPLETE (R357). -/
def execCheckpointComplete (s : State) : Host.Outcome State Fault Refusal := .next (completeStream s)

/-- What the checkpoint engine does in a cycle. -/
def checkpointTurn (s : State) : State :=
  match s.ck.active with
  | none => freeze s
  | some _ =>
    if preserveFull s s.ck.job then abandonStream s
    else if s.now < s.ck.at_ then s
    else if s.ck.frozen.isEmpty then completeStream s
    else streamBlock s

/-! ## Restore (R359) -/

/-- A stream of the log: its number, the place its end record names, and its block records. -/
structure Stream where
  seq : Nat
  blocks : List (Nat × Nat × List Byte)
  deriving DecidableEq, Repr
/-- Read the log from an offset: complete streams in order; a stream without its end record is skipped. -/
def readLog (out : List (Nat × List Byte)) (base size pos fuel : Nat) (cur : Stream) : List Stream :=
  match fuel with
  | 0 => []
  | fuel + 1 =>
    if size ≤ pos then []
    else
      match out.find? (fun r => r.1 == base + pos) with
      | none => []
      | some (_, bs) =>
        let seq := leVal (bs.take 8)
        let w := leVal ((bs.drop 8).take 8)
        let k := leVal ((bs.drop 16).take 8)
        let cur := if cur.seq = seq then cur else ⟨seq, []⟩
        if k % 2 = 0 then readLog out base size (pos + bs.length) fuel ⟨seq, cur.blocks ++ [(field w 0 26, field w 26 24, bs.drop 64)]⟩
        else
          let more := readLog out base size (pos + bs.length) fuel ⟨2 ^ 64, []⟩
          if k / 4294967296 = cur.blocks.length then cur :: more else more
/-- The streams that a restore of a number writes: complete ones of at most that number, up to its own. -/
def usableStreams (l : List Stream) (seq : Nat) : Option (List Stream) :=
  let l := l.filter (fun t => decide (t.seq ≤ seq))
  if l.any (fun t => t.seq == seq) then some (l.takeWhile (fun t => t.seq != seq) ++ (l.find? (fun t => t.seq == seq)).toList) else none
/-- A block goes back into its object. -/
def restoreBlock (s : State) (job : Job) (d : Nat) (b : Nat × Nat × List Byte) : State :=
  match objEntry s job d b.1 with
  | none => s
  | some (dir, n) =>
    if n ≤ b.2.1 then s
    else
      match walk s d dir (65536 * b.2.1) with
      | .hbm p la => (List.range 256).foldl (fun s i => writeBase s (p + 256 * i) la ((b.2.2.drop (256 * i)).take 256) false false) s
      | _ => s
/-- Restore a partition through a job record's object table: 2 where no usable stream has the number, else every block is written and every
DIRTY bit of the partition is 0. -/
def restoreTo (s : State) (j : Job) (d seq : Nat) : State × Nat :=
  match usableStreams (readLog s.ck.out (areaBase j) (areaSize j) 0 (s.ck.out.length + 1) ⟨2 ^ 64, []⟩) seq with
  | none => (s, 2)
  | some ts =>
    let s := ts.foldl (fun s t => t.blocks.foldl (fun s b => restoreBlock s j d b) s) s
    ((dirtySet s j d).foldl (fun s b => setDirty s b.2.2.2 false) s, 0)

end Sys2Proof.Machine
end

