-- ==== Sys2Proof/Machine/Garod.lean ====
section
/-! DEFINITION. Machine/Garod.lean: the I/O die's controller (00 R11, R12, 01 R17 to R22, 14 R289, R290, 15 R305, 18 R350 to R363): features, the
mailbox and its commands, the swap of partitions, bring-up, the host register page and host accesses. -/

namespace Sys2Proof.Machine

/-! ## Features (00 R11, R12, 18 R352) -/

/-- FEATUREk.OFFER: the eight features of R352 (log 39). -/
def featureOffer (k : Nat) : Nat := if k = 0 then 255 else 0
def acceptWord (s : State) (k : Nat) : Nat := (mapGet s.ga.accept 0#64 k).toNat
/-- The value of ACCEPTk before this cycle, which a job taken in it is sampled with (R12): entry 4 + k, as long as entry 8 + k names the cycle. -/
def acceptSampled (s : State) (k : Nat) : Nat := if acceptWord s (8 + k) = s.now + 1 then acceptWord s (4 + k) else acceptWord s k
def setAccept (s : State) (k v : Nat) : State := { s with ga := { s.ga with accept := mapSet s.ga.accept 0#64 k (BitVec.ofNat 64 v) } }
/-- A write to an ACCEPT word keeps to the features offered. -/
def writeAccept (s : State) (k v : Nat) : State :=
  let s := if acceptWord s (8 + k) = s.now + 1 then s else setAccept (setAccept s (4 + k) (acceptWord s k)) (8 + k) (s.now + 1)
  setAccept s k (maskTo v (featureOffer k))
/-- ACCEPT_WRITE (R12). -/
def execAcceptWrite (k val : Nat) (s : State) : Host.Outcome State Fault Refusal := .next (writeAccept s (k % 4) val)

/-! ## The mailbox (R353) -/

/-- BUSY as it stood when the cycle began. -/
def mailboxBusy (s : State) : Bool := s.ga.busy || s.ga.cleared == s.now + 1
/-- A command that ends at once: BUSY clears in the cycle of the write, and another write in that cycle is ignored (R353). -/
def answerCommand (s : State) (r : Nat) : State := { s with ga := { s.ga with busy := false, result := r, cmd := none, cleared := s.now + 1 } }
/-- A command is taken, unless one is held; only state 3 takes commands, and state 5 MAINT (R361). -/
def takeCommand (s : State) (code a0 a1 : Nat) (f : State → State) : State :=
  let s := { s with ga := { s.ga with arg0 := BitVec.ofNat 64 a0, arg1 := BitVec.ofNat 64 a1 } }
  if mailboxBusy s then noteHw { s with ga := { s.ga with ovr := true } } 8 0x058 0 (fun n => n ||| 2)
  else
    let s := { s with ga := { s.ga with busy := true, last := code, cmd := some code } }
    if s.ga.boot = 3 || (s.ga.boot = 5 && code = 5) then f s else answerCommand s 1
/-- MBOX_UNKNOWN_CODE (R353). -/
def execMboxUnknownCode (code : Nat) (s : State) : Host.Outcome State Fault Refusal :=
  .next (takeCommand s (code % 256) s.ga.arg0.toNat s.ga.arg1.toNat (fun s => answerCommand s 2))

/-! ## Jobs (R354, R355) -/

/-- The k-th word of a job record. -/
def jobWord (s : State) (a k : Nat) : Nat := leVal (getBytes s.mem (a + 8 * k) 8)
def rootWords (s : State) (a : Nat) : List Nat := (List.range 8).map (fun i => jobWord s a (1 + i))
/-- The fields of a job record. -/
def readJob (s : State) (a : Nat) : Job :=
  let w := jobWord s a
  { Job.init with
    addr := a, otbase := field (w 9) 0 40, nobj := field (w 10) 0 26, occbase := field (w 11) 0 40, baste := field (w 12) 0 16,
    ckpres := field (w 12) 16 16, cksz := field (w 12) 32 24, shimg := field (w 13) 0 40, shlen := field (w 13) 40 17,
    tier := field (w 14) 0 48, ckkind := field (w 15) 0 1, ckpeer := field (w 15) 1 6, ckobj := field (w 15) 12 26, ckhost := field (w 15) 12 52 }
/-- A reserved field is not 0. -/
def jobReserved (s : State) (a : Nat) : Bool :=
  let w := jobWord s a
  field (w 0) 5 59 ≠ 0 || templateBad (rootWords s a)
    || field (w 9) 40 24 ≠ 0 || field (w 10) 26 38 ≠ 0 || field (w 11) 40 24 ≠ 0 || field (w 12) 56 8 ≠ 0 || field (w 13) 57 7 ≠ 0
    || field (w 14) 48 16 ≠ 0 || field (w 15) 7 5 ≠ 0 || (field (w 15) 0 1 = 1 && field (w 15) 38 26 ≠ 0)
/-- The object table lies in the stacks of the partition's dies. -/
def tableInside (s : State) (g : Nat) (j : Job) : Bool :=
  j.nobj = 0 || ((diesOfGroup s g).contains (dieOfAddr j.otbase) && (diesOfGroup s g).contains (dieOfAddr (j.otbase + 16 * j.nobj - 1)))
/-- The lowest identifier without a job. -/
def freeJob (s : State) : Option Nat := (List.range 8).find? (fun i => !s.jobs.any (fun p => p.1 == i))
/-- STATUS and JOB of a record. -/
def writeStatus (s : State) (a status id : Nat) : State := writeBase s a 0 (leBytes 8 (status + 4 * id)) false false
def setJob (s : State) (id : Nat) (j : Job) : State := { s with jobs := mapSet s.jobs Job.init id j }
/-- Garod loads the Shuttle of a die and starts it; the bytes behind the image stay, the registers read 0 (log 40). -/
def startShuttle (s : State) (d : Nat) (j : Job) : State :=
  setSh s d { Shuttle.init with scratch := setBytes (shOf s d).scratch 0 (getBytes s.mem j.shimg (Nat.min 65536 j.shlen)), running := true }
/-- TVEC and REPLAYV of a core. -/
def setVectors (s : State) (k tv rv : Nat) : State :=
  let c := coreOf s k
  setCore s k { c with tvec := tv / 8 * 8 % 281474976710656, replayv := rv / 8 * 8 % 281474976710656 }
/-- Garod creates the root task, whose ARG has tag 1 (02 R27); while its die has no FREE record it tries again each cycle (log 85). -/
def makeRoot (s : State) (id : Nat) : State :=
  let j := jobOf s id
  let w := rootWords s j.addr
  let v := recOfWords w { templateArg w with tag := true } id 0
  let d := dieFor s (groupFirst s j.part) v.scope v.core
  match freeRec s d with
  | some r => makeReady (countNew (setRec (setJob s id { j with root := .ready d r }) d r v) v) d r
  | none => s
/-- The root tasks that wait for a record. -/
def makeRoots (s : State) : State := (s.jobs.filter (fun p => p.2.root == .waiting)).foldl (fun s p => makeRoot s p.1) s
/-- Steps 4 to 6: the Shuttles, the vectors, STATUS 1, and the root task. -/
def runJob (s : State) (id : Nat) : State :=
  let j := { jobOf s id with running := true, root := .waiting }
  let s := setJob s id j
  let s := (diesOfGroup s j.part).foldl (fun s d => startShuttle s d j) s
  let n := s.free
  let s := (coresOfGroup { s with free := n + 1 } j.part).foldl (fun s k => setVectors s k (Config.tvecOf n) (Config.replayvOf n)) { s with free := n + 1 }
  makeRoot (writeStatus s j.addr 1 id) id
/-- JOB: refused, held for a standby partition, or run. Module features are sampled while no job runs or is held (R12). -/
def takeJob (s : State) (a0 a1 : Nat) : State :=
  let g := a1 % 8
  let stby := field a1 3 1 = 1
  if a0 % 64 ≠ 0 || deviceBytes < a0 + 128 || s.ga.parts ≤ g then answerCommand s 2
  else
    let side := sideOf s g stby
    let j := readJob s a0
    let refused := (jobAt s side).isSome || jobReserved s a0 || decide (10239 < j.baste) || j.cksz = 0 || (stby && field s.ga.standby g 1 = 0)
      || !tableInside s g j
    match freeJob s, refused with
    | some id, false =>
      let acc := acceptSampled s 0
      let s := if s.jobs.isEmpty then { s with ga := { s.ga with modFeatures := maskTo acc 0x27 + maskTo s.ga.modFeatures 0x80 } } else s
      let j := { j with part := g, standby := decide (8 ≤ side), features := maskTo acc 0x58 + s.ga.modFeatures }
      let s := writeStatus (setJob s id j) a0 0 id
      let s := { s with ck := { s.ck with pos := mapSet s.ck.pos 0 side 0 }, ga := { s.ga with firstJob := true } }
      answerCommand (if stby then s else runJob s id) 0
    | _, _ => answerCommand (writeBase s a0 0 (leBytes 8 (jobWord s a0 0 / 4 * 4 + 3)) false false) 1
/-- MBOX_JOB (R355). -/
def execMboxJob (arg0 arg1 : Nat) (s : State) : Host.Outcome State Fault Refusal := .next (takeCommand s 1 arg0 arg1 (fun s => takeJob s arg0 arg1))

/-- The waiting completion of a job's level. -/
def jobDone (s : State) (id : Nat) : Option Waiting :=
  (dieOf s 0).tasks.waiting.find? (fun w => w.act == .complete (levelKey id 3 0) 0 16384 && actDue s w)
/-- A job is complete: its forks are freed, STATUS is 2, the host is signalled, and its identifier is free (R355). -/
def reportJob (s : State) (id : Nat) : State :=
  match jobDone s id with
  | none => s
  | some w =>
    let t := (dieOf s 0).tasks
    let s := setTasks s 0 { t with waiting := t.waiting.erase w }
    let s := (List.range 32).foldl (fun s f => if forkLive s f && (forkOf s f).job = id then dropFork s f else s) s
    let s := writeStatus s (jobOf s id).addr 2 id
    let j := jobOf s id
    { s with jobs := mapSet s.jobs Job.init id Job.init,
             ga := { s.ga with tables := mapSet s.ga.tables Job.init (j.part + (if j.standby then 8 else 0)) j },
             out := { s.out with msix := s.out.msix ++ [0] } }
/-- JOB_COMPLETE_REPORT (R355). -/
def execJobCompleteReport (job : Nat) (s : State) : Host.Outcome State Fault Refusal := .next (reportJob s (job % 8))

/-! ## Run control (07 R143, 22 R378) -/

/-- RESUME of a halted context, for one group where `step` is set. -/
def resumeCtx (s : State) (a0 : Nat) (step : Bool) : State :=
  let k := field a0 0 10
  let x := field a0 10 3
  let c := ctxOf s k x
  if 640 ≤ k then answerCommand s 2
  else if c.status ≠ .halted then answerCommand s 1
  else
    let s := setCtx s k x { c with status := .bound, toRun := true, stepMark := step }
    if step then s else answerCommand s 0
/-- MBOX_RESUME (R143). -/
def execMboxResume (arg0 : Nat) (s : State) : Host.Outcome State Fault Refusal := .next (takeCommand s 3 arg0 0 (fun s => resumeCtx s arg0 false))
/-- MBOX_RESUME_STEP (R378). -/
def execMboxResumeStep (arg0 : Nat) (s : State) : Host.Outcome State Fault Refusal := .next (takeCommand s 3 arg0 1 (fun s => resumeCtx s arg0 true))
/-- A stepped context that issues no more ends its command. -/
def settleStep (s : State) : State :=
  match s.ctxs.find? (fun p => p.2.stepMark && p.2.status != .bound && p.2.status != .filling) with
  | some p => finishCommand (setCtx s (p.1 / 8) (p.1 % 8) { p.2 with stepMark := false }) 0
  | none => s

/-! ## Arrangement, stream area, keys, restore -/

/-- PART (14 R289). -/
def setParts (s : State) (a0 : Nat) : State :=
  let n := a0 % 16
  let sb := a0 / 256 % 256
  if (n ≠ 1 && n ≠ 2 && n ≠ 4 && n ≠ 8) || 2 ^ n ≤ sb then answerCommand s 2
  else
    let acc := maskTo (acceptSampled s 0) 0x80
    if s.ga.firstJob || (sb ≠ 0 && acc = 0) then answerCommand s 1
    else
      let s := { s with ga := { s.ga with parts := n, standby := sb, modFeatures := maskTo s.ga.modFeatures 0x27 + acc } }
      answerCommand ((List.range 640).foldl (fun s k => let c := coreOf s k; setCore s k { c with part := groupOf s (dieOfCore k) }) s) 0
/-- MBOX_PART (R289). -/
def execMboxPart (arg0 : Nat) (s : State) : Host.Outcome State Fault Refusal := .next (takeCommand s 6 arg0 0 (fun s => setParts s arg0))

/-- The partition in bits [3:0] of an argument, where it is one. -/
def namedSide (s : State) (a : Nat) : Option Nat :=
  let g := a % 8
  if s.ga.parts ≤ g || (field a 3 1 = 1 && field s.ga.standby g 1 = 0) then none else some (sideOf s g (field a 3 1 = 1))
/-- CKLOG (R360); a partition without a job has no area (log 37). -/
def setLogPos (s : State) (a0 a1 : Nat) : State :=
  match namedSide s a1 with
  | none => answerCommand s 2
  | some side =>
    match s.ck.active, jobAt s side with
    | none, some (_, j) => if a0 % 64 ≠ 0 || areaSize j < a0 then answerCommand s 2 else answerCommand { s with ck := { s.ck with pos := mapSet s.ck.pos 0 side a0 } } 0
    | _, _ => answerCommand s 1
/-- MBOX_CKLOG (R360). -/
def execMboxCklog (arg0 arg1 : Nat) (s : State) : Host.Outcome State Fault Refusal := .next (takeCommand s 7 arg0 arg1 (fun s => setLogPos s arg0 arg1))

/-- KEY (15 R305): the record is checked, the key waits on every die, and its bytes are wiped. -/
def installKey (s : State) (a0 : Nat) : State :=
  let w := fun k => leVal (getBytes s.mem (a0 + 8 * k) 8)
  let vc := field (w 4) 0 3
  let peer := field (w 4) 3 6
  let rot := field (w 5) 0 32
  let bad := a0 % 64 ≠ 0 || decide (deviceBytes < a0 + 64) || field (w 4) 9 55 ≠ 0 || field (w 5) 32 32 ≠ 0 || w 6 ≠ 0 || w 7 ≠ 0
    || peer = Config.moduleNumber || decide (rot < s.rot + 2)
  if bad then answerCommand s 2
  else
    let key := BitVec.ofNat 256 (leVal (getBytes s.mem a0 32))
    let s := (List.range 8).foldl (fun s d =>
      let f := fabOf s d
      let e := fabKey f vc peer
      setFab s d { f with keys := mapSet f.keys FabKey.init (64 * vc + peer) { e with next := key, nextAt := some rot } }) s
    answerCommand (writeBase s a0 0 (List.replicate 32 0#8) false false) 0
/-- MBOX_KEY (R305). -/
def execMboxKey (arg0 : Nat) (s : State) : Host.Outcome State Fault Refusal := .next (takeCommand s 8 arg0 0 (fun s => installKey s arg0))

/-- The stream area can be read: host memory over CXL.cache, a peer's object while streams to a peer are on (R352; sampled as for a job, R12). -/
def areaReadable (s : State) (j : Job) : Bool :=
  if j.ckkind = 0 then field (if s.jobs.isEmpty then acceptSampled s 0 else s.ga.modFeatures) 5 1 = 1 else field (acceptSampled s 0) 4 1 = 1
/-- RESTORE (R359): refused while the partition runs or holds a job; without a way to the stream area no usable stream is found. -/
def restorePartition (s : State) (a0 a1 : Nat) : State :=
  let a := a1 / 64 * 64
  match namedSide s a1 with
  | none => answerCommand s 2
  | some side =>
    if (jobAt s side).isSome then answerCommand s 1
    else if deviceBytes < a + 128 || !areaReadable s (readJob s a) then answerCommand s 2
    else
      let r := restoreTo s { readJob s a with part := a1 % 8 } (groupFirst s (a1 % 8)) a0
      answerCommand r.1 r.2
/-- MBOX_RESTORE (R359). -/
def execMboxRestore (arg0 arg1 : Nat) (s : State) : Host.Outcome State Fault Refusal :=
  .next (takeCommand s 4 arg0 arg1 (fun s => restorePartition s arg0 arg1))

/-! ## The swap of partitions (14 R290, R291) -/

/-- Contexts that hold a task. -/
def boundHere (s : State) (k : Nat) : Nat := ((List.range 8).filter (fun x => (ctxOf s k x).task.isSome)).length
def boundAway (s : State) (k : Nat) : Nat := ((coreOf s k).vrf.area.filter (fun p => p.2.task.isSome)).length
/-- T_swap of a die group. -/
def swapTime (s : State) (g : Nat) : Nat := 64 + 128 * (coresOfGroup s g).foldl (fun m k => Nat.max m (boundHere s k + boundAway s k)) 0
/-- Nothing of a core is on its way (log 38). -/
def coreQuiet (s : State) (k : Nat) : Bool :=
  let c := coreOf s k
  c.holder.isNone && c.mx.q.isEmpty && c.mx.wl.isEmpty && c.vrf.exch.isNone && c.ms.gated.isEmpty && c.ms.released.isEmpty && c.ms.atoms.isEmpty && c.ms.loads.isEmpty
    && !s.ck.marks.any (fun m => m.1 == k)
    && (List.range 8).all (fun x =>
      let c := ctxOf s k x
      c.reqs.isEmpty && c.saves.isEmpty && c.status != .filling && c.eng.subs.all (subQuiet s k))
/-- Nor of the dies' units for it. -/
def dieQuiet (s : State) (d : Nat) : Bool :=
  let t := (dieOf s d).tasks
  t.flights.isEmpty && t.preempts.isEmpty && !(fabOf s d).tags.any (fun p => p.2.busy) && t.waiting.all (fun w => actDue s w)
def groupQuiet (s : State) (g : Nat) : Bool :=
  (diesOfGroup s g).all (dieQuiet s) && (coresOfGroup s g).all (coreQuiet s)
    && !s.fills.any (fun f => match f.kind with | .extent _ d _ _ ws => !ws.isEmpty && groupOf s d == g | _ => false)
/-- SWAP (R290): the cores halt; refused without a standby partition. -/
def startSwap (s : State) (a1 : Nat) : State :=
  let g := a1 % 8
  if s.ga.parts ≤ g then answerCommand s 2
  else if field s.ga.standby g 1 = 0 then answerCommand s 1
  else { s with ga := { s.ga with swap := some (g, 0) } }
/-- MBOX_SWAP (R290). -/
def execMboxSwap (arg1 : Nat) (s : State) : Host.Outcome State Fault Refusal := .next (takeCommand s 2 0 arg1 (fun s => startSwap s arg1))
/-- Once the group is quiet the exchange takes T_swap. -/
def swapBegins (s : State) : State :=
  match s.ga.swap with
  | some (g, 0) => if groupQuiet s g then { s with ga := { s.ga with swap := some (g, s.now + swapTime s g) } } else s
  | _ => s
/-- The contexts of a core change places with those of the other partition, their banks, images and tiles with them; occupancy counts go to
the outgoing job first, and weight stages are loaded anew (log 38). -/
def swapCore (s : State) (k : Nat) : State :=
  let s := flushOcc s k
  let co := coreOf s k
  let area := co.vrf.area
  let s := (List.range 8).foldl (fun s x =>
    let c := coreOf s k
    let out := ctxOf s k x
    let s := setCore s k { c with vrf := { c.vrf with area := mapSet c.vrf.area Ctx.init x out } }
    setCtx s k x (mapGet area Ctx.init x)) s
  let c := coreOf s k
  let c := (List.range 8).foldl (fun c x => moveTags (moveTags (moveTags c x 40) (x + 16) x) 40 (x + 16)) c
  reportDormant (setCore s k { c with part := if 8 ≤ c.part then c.part - 8 else c.part + 8, mx := { c.mx with stages := [] } }) k
/-- The exchange ends: the incoming partition's cores start issue, and its posted job runs. -/
def swapEnds (s : State) (g : Nat) : State :=
  match s.ga.swap with
  | some (h, fin) =>
    if h ≠ g || fin = 0 || s.now < fin then s
    else
      let s := (coresOfGroup s g).foldl swapCore s
      let s := { s with ga := { s.ga with swap := none } }
      let s := match jobAt s (residentSide s g) with
        | some (id, j) => if j.running then s else runJob s id
        | none => s
      finishCommand s 0
  | none => s
/-- SWAP_COMPLETE (R290). -/
def execSwapComplete (group : Nat) (s : State) : Host.Outcome State Fault Refusal := .next (swapEnds s group)

/-! ## Power and bring-up (R361, R362) -/

/-- The module as after power-on, with what lies outside it: what it has sent, what comes next, and the count of free values. Cycles are
counted anew. -/
def restart (s : State) (ga : Garod) : State :=
  { State.reset with out := s.out, inbox := s.inbox, turns := s.turns, free := s.free, repairs := s.repairs, core := s.core, cx := s.cx, die := s.die, ga := ga }
/-- A reported row is replaced by a spare row of its bank, of 4, or stays in service (24 R427). -/
def repairRow (r : Repairs) (row : Nat) : Repairs :=
  if (r.fused.filter (fun q => q % 16 == row % 16 && Config.bankOf q == Config.bankOf row)).length < 4 then
    { r with fused := r.fused ++ [row], corrected := mapSet r.corrected 0 row 0 }
  else { r with worn := if r.worn.contains row then r.worn else r.worn ++ [row] }
/-- A maintenance reset: spare cores may be brought in, which ones the spec leaves open (log 43), and the rows that Garod has reported are
repaired; no address and no capacity changes (01 R19, R21). -/
def maintain (s : State) : State :=
  let r := s.repairs.logged.foldl repairRow { s.repairs with spares := s.repairs.spares ||| (Config.freeWord s.free).toNat % 4294967296, logged := [] }
  restart { s with free := s.free + 1, repairs := r } { Garod.init with last := 5 }
/-- POWER_ON (R361). -/
def execPowerOn (s : State) : Host.Outcome State Fault Refusal := .next (if s.ga.power then s else restart s Garod.init)
/-- POWER_OFF (R362). -/
def execPowerOff (s : State) : Host.Outcome State Fault Refusal := .next (restart s { Garod.init with power := false })
/-- MBOX_MAINT (R353): device memory is not preserved (24 R427). -/
def execMboxMaint (s : State) : Host.Outcome State Fault Refusal :=
  .next (takeCommand s 5 s.ga.arg0.toNat s.ga.arg1.toNat maintain)
/-- GO: verification starts in states 0 and 4. -/
def startVerify (s : State) : State := if s.ga.power && (s.ga.boot = 0 || s.ga.boot = 4) then { s with ga := { s.ga with boot := 1 } } else s
/-- BOOTSTAT_GO (R361). -/
def execBootstatGo (s : State) : Host.Outcome State Fault Refusal := .next (startVerify s)
/-- The image of the window passes every check. -/
def imageGood (s : State) : Bool :=
  let n := s.ga.imglen
  let img := getBytes s.ga.window 0 n
  decide (n ≤ 8388608) && n = 160 + leVal ((img.drop 8).take 8) && ((img.drop 16).take 48).all (fun b => b == 0#8) && Config.signatureOk img
/-- IMAGE_VERIFIED (R361). -/
def execImageVerified (s : State) : Host.Outcome State Fault Refusal :=
  .next (if s.ga.boot = 1 then { s with ga := { s.ga with boot := if imageGood s then 2 else 4 } } else s)
/-- One entry of the slice latency table: 22 to 58 cycles (10 R206). -/
def sliceEntry (s : State) (k j : Nat) : Byte := BitVec.ofNat 8 (sliceCycles s k j)
/-- The module information block (R356), with the table as the spare cores in use make it (01 R19). -/
def infoBlock (s : State) (shortfall : Nat) : List Byte :=
  (List.range 640).flatMap (fun k => (List.range 32).map (fun j => sliceEntry s k j)) ++ leBytes 4 s.repairs.spares ++ leBytes 4 0 ++ leBytes 8 (shortfall % 17179869184)
/-- Measured fibre delays of a die's ports (15 R295). -/
def measureFibre (s : State) (d : Nat) : State :=
  (List.range 4).foldl (fun s p => setDie { s with free := s.free + 1 } d (setReg (dieOf s d) (0x0720 + 8 * p) ((Config.freeWord s.free).toNat % 65536))) s
/-- BRINGUP_DONE (R361): STATE 3, or 5 with the shortfall map where the spares do not suffice; rows that no spare has replaced are reported again
(24 R427). -/
def execBringupDone (shortfall : Nat) (s : State) : Host.Outcome State Fault Refusal :=
  .next (if s.ga.boot ≠ 2 then s
    else
      let s := (List.range 8).foldl measureFibre s
      let mib := (Config.freeWord s.free).toNat % 1099511627776 / 32768 * 32768
      let s := { putUnit s mib (infoBlock s shortfall) with free := s.free + 1 }
      let short := shortfall % 17179869184
      let s := { s with ga := { s.ga with mibaddr := mib, boot := if short = 0 then 3 else 5, shortfall := short } }
      let s := s.repairs.worn.foldl (fun s r => report s 0x105 r) s
      if short = 0 then s else report s 0x100 short)

/-! ## The host (R350, R351, R363) -/

/-- Codes of the mailbox, as a write to MBOXCMD takes them. -/
def mailboxWrite (s : State) (code : Nat) : State :=
  let a0 := s.ga.arg0.toNat
  let a1 := s.ga.arg1.toNat
  takeCommand s code a0 a1 (fun s =>
    match code with
    | 1 => takeJob s a0 a1
    | 2 => startSwap s a1
    | 3 => resumeCtx s a0 (a1 % 2 = 1)
    | 4 => restorePartition s a0 a1
    | 5 => maintain s
    | 6 => setParts s a0
    | 7 => setLogPos s a0 a1
    | 8 => installKey s a0
    | _ => answerCommand s 2)
/-- A read of the register page; offsets without a register read 0 (log 41). -/
def pageRead (s : State) (off : Nat) : Nat :=
  let g := s.ga
  if off < 0x20 then featureOffer (off / 8)
  else if off < 0x40 then acceptWord s ((off - 0x20) / 8)
  else if 0x800000 ≤ off && off < 0x1000000 then leVal (getBytes g.window (off - 0x800000) 8)
  else match off with
    | 0x048 => g.arg0.toNat
    | 0x050 => g.arg1.toNat
    | 0x058 => (if g.busy then 1 else 0) + (if g.ovr then 2 else 0) + 256 * g.result + 65536 * g.last
    | 0x060 => 2 * g.boot + 4294967296 * g.imglen
    | 0x068 => g.mibaddr
    | 0x070 => (if s.ck.active.isSome then 1 else 0) + (if g.stale then 2 else 0) + (if g.fail then 4 else 0)
    | 0x078 => s.ck.complete.toNat
    | _ => 0
def pageWrite (s : State) (off v : Nat) : State :=
  let g := s.ga
  if 0x20 ≤ off && off < 0x40 then writeAccept s ((off - 0x20) / 8) v
  else if 0x800000 ≤ off && off < 0x1000000 then { s with ga := { g with window := setBytes g.window (off - 0x800000) (leBytes 8 v) } }
  else match off with
    | 0x040 => mailboxWrite s (v % 256)
    | 0x048 => { s with ga := { g with arg0 := BitVec.ofNat 64 v } }
    | 0x050 => { s with ga := { g with arg1 := BitVec.ofNat 64 v } }
    | 0x058 => { s with ga := { g with ovr := g.ovr && clearingBits s 8 off v / 2 % 2 = 0 } }
    | 0x060 => (let s := { s with ga := { g with imglen := v / 4294967296 % 4294967296 } }; if v % 2 = 1 then startVerify s else s)
    | 0x070 => (let v := clearingBits s 8 off v
      { s with ga := { g with stale := g.stale && v / 2 % 2 = 0, fail := g.fail && v / 4 % 2 = 0 } })
    | _ => s
/-- An access to device memory through the HDM range: kind 0 reads, 1 writes. -/
def hdmAccess (s : State) (kind addr len data : Nat) : State :=
  if kind = 0 then { s with out := { s.out with reads := s.out.reads ++ [getBytes s.mem addr len] } }
  else (pieces 256 addr len (len + 1)).foldl (fun s p => writeBase s p.1 0 (((leBytes len data).drop (p.1 - addr)).take p.2) false false) s
/-- A stack of the bytes is held. -/
def hdmHeld (s : State) (addr len : Nat) : Bool := stackHeld s (stackOf addr) || stackHeld s (stackOf (addr + len - 1))
/-- Accesses are performed in the order they are received (R350). -/
def hdmTurn (s : State) (fuel : Nat) : State :=
  match fuel with
  | 0 => s
  | fuel + 1 =>
    match s.ga.hostQ with
    | [] => s
    | (kind, addr, len, data) :: rest =>
      if hdmHeld s addr len then s else hdmTurn (hdmAccess { s with ga := { s.ga with hostQ := rest } } kind addr len data) fuel
/-- HOST_CXL_ACCESS (R350, R351): kinds 0 and 1 read and write device memory, 2 and 3 the register page; page accesses have 8 bytes. -/
def execHostCxlAccess (kind addr len data : Nat) (s : State) : Host.Outcome State Fault Refusal :=
  .next (if !s.ga.power then s
    else if kind < 2 then
      (if len = 0 || deviceBytes < addr + len then s
       else hdmTurn { s with ga := { s.ga with hostQ := s.ga.hostQ ++ [(kind, addr, len, data)] } } (s.ga.hostQ.length + 1))
    else if len ≠ 8 || addr % 8 ≠ 0 then s
    else if kind = 2 then { s with out := { s.out with reads := s.out.reads ++ [leBytes 8 (pageRead s addr)] } }
    else pageWrite s addr (data % 18446744073709551616))
/-- PLDM_REQUEST (R363): Garod answers; the temperatures, power and counts it gives are not architected, and a firmware image is not accepted
(log 42). -/
def execPldmRequest (kind : Nat) (s : State) : Host.Outcome State Fault Refusal := .next (report s 0x104 kind)

end Sys2Proof.Machine
end

