-- ==== Sys2Proof/Machine/Damage.lean ====
section
/-! DEFINITION. Machine/Damage.lean: what the surroundings do to the memory and to the units: thermal holds (24 R422, R424), storage errors and
their log (R420, R426), neighbour refresh (10 R211, 24 R425), and machine checks (22 R393). -/

namespace Sys2Proof.Machine

/-! ## Thermal hold (R422) -/

/-- HOLDCFG.HELD of a stack. -/
def setHeld (s : State) (st : Nat) (on : Bool) : State :=
  let d := st / 2
  let v := regRaw (dieOf s d) 0x3020
  setDie s d (setReg (dieOf s d) 0x3020 (putField v (16 + st % 2) 1 (if on then 1 else 0)))
/-- THERMAL_HOLD_START: the hottest sensor of a stack reaches 105 °C; the host is told (R424). -/
def execThermalHoldStart (stack temp : Nat) (s : State) : Host.Outcome State Fault Refusal :=
  .next (if temp < 105 || 16 ≤ stack || stackHeld s stack then s else report (setHeld s stack true) 0x102 stack)
/-- THERMAL_HOLD_END: it falls to 95 °C or below. -/
def execThermalHoldEnd (stack temp : Nat) (s : State) : Host.Outcome State Fault Refusal :=
  .next (if 95 < temp || 16 ≤ stack || !stackHeld s stack then s else report (setHeld s stack false) 0x103 stack)

/-! ## Storage errors (R420, R426) -/

/-- An uncorrectable line of a typed buffer (kind 2: core × 2^20 + buffer code × 2^18 + line) or of a staging slice (kind 3: die × 2^24 + line) is
marked C (R421). -/
def strikeBuffer (s : State) (k code line : Nat) : State :=
  let c := coreOf s k
  if bufSize code ≤ 64 * line then s else setCore s k { c with bufs := { c.bufs with bad := mapSet c.bufs.bad false (bufKey code 0 / 64 + line) true } }
def strikeSlice (s : State) (d line : Nat) : State := setDie s d { dieOf s d with sliceBad := mapSet (dieOf s d).sliceBad false line true }
/-- A line of a core's line cache fails its parity check and is dropped: its next lookup misses (kind 4: core × 2^20 + place in the cache). -/
def strikeLine (s : State) (k n : Nat) : State :=
  let c := coreOf s k
  setCore s k { c with ms := { c.ms with lines := c.ms.lines.eraseIdx n } }
/-- The stored value of a register fails its check and is lost (kind 5: (8 × core + context) × 2^8 + kind of register × 2^6 + number). -/
def strikeRegister (s : State) (k x kind n : Nat) : State :=
  let c := ctxOf s k x
  if kind ≤ 1 && n = 0 then s else setCtx s k x { c with regs := { c.regs with broken := (kind, n) :: mended c kind n } }
/-- The row that a granule lies in, with its stack: stack + 16 × row; and the rows of a stack's corrected errors. -/
def rowKeyOf (gran : Nat) : Nat := stackOf (64 * gran) + 16 * Config.rowOf gran
def countRow (s : State) (gran : Nat) : State :=
  let c := s.repairs.corrected
  { s with repairs := { s.repairs with corrected := mapSet c 0 (rowKeyOf gran) (mapGet c 0 (rowKeyOf gran) + 1) } }
/-- Garod has reported a row. -/
def logRow (s : State) (row : Nat) : State :=
  if s.repairs.logged.contains row then s else { s with repairs := { s.repairs with logged := s.repairs.logged ++ [row] } }
/-- The rows of a stack whose corrected errors have reached 16 are reported, each once between repairs. -/
def reportRows (s : State) (st : Nat) : State :=
  let rows := (s.repairs.corrected.filter (fun p => p.1 % 16 == st && decide (16 ≤ p.2) && !s.repairs.logged.contains p.1)).map (·.1)
  rows.foldl (fun s r => report (logRow s r) 0x105 r) s
/-- MEMORY_ECC_ERROR: kind 0 corrects and counts an error at device address 64 × gran; kinds 2 to 5 strike other stores (R421, log 51); any other
kind poisons the granule and is logged. -/
def execMemoryEccError (gran kind : Nat) (s : State) : Host.Outcome State Fault Refusal :=
  .next (if kind = 2 then strikeBuffer s (gran / 1048576 % 640) (gran / 262144 % 4) (gran % 262144)
    else if kind = 3 then strikeSlice s (gran / 16777216 % 8) (gran % 16777216)
    else if kind = 4 then strikeLine s (gran / 1048576 % 640) (gran % 1048576)
    else if kind = 5 then strikeRegister s (gran / 2048 % 640) (gran / 256 % 8) (gran / 64 % 4) (gran % 64)
    else if deviceBytes ≤ 64 * gran then s
    else
      let st := stackOf (64 * gran)
      let d := st / 2
      let die := dieOf s d
      let cnt := 0x3028 + 8 * (st % 2)
      let log := 0x3038 + 8 * (st % 2)
      if kind = 0 then setDie (noteHw (countRow s gran) d cnt (regRaw die cnt) (fun n => n + 1)) d (setReg die cnt (Nat.min 4294967295 (regRaw die cnt + 1)))
      else
        let v := regRaw die log
        let new := if field v 34 1 = 1 then 2 ^ 35 else gran + 17179869184
        setDie (noteHw { s with poison := mapSet s.poison false gran true } d log v (fun n => n ||| new)) d
          (setReg die log (if field v 34 1 = 1 then putField v 35 1 1 else new)))
/-- Garod reads the counts and logs of a die, and reports an uncorrectable granule and the rows with 16 corrected errors. -/
def pollErrors (s : State) (d : Nat) : State :=
  [0, 1].foldl (fun s i =>
    let die := dieOf s d
    let v := hwStart s d (0x3038 + 8 * i) (regRaw die (0x3038 + 8 * i))
    let s := if field v 34 1 = 1 then report (logRow s (rowKeyOf (field v 0 34))) 0x101 v else s
    let s := reportRows s (2 * d + i)
    setDie s d (setReg (setReg die (0x3038 + 8 * i) (hwLeft s d (0x3038 + 8 * i))) (0x3028 + 8 * i) (hwLeft s d (0x3028 + 8 * i)))) s
/-- ERROR_LOG_POLL (R426). -/
def execErrorLogPoll (die : Nat) (s : State) : Host.Outcome State Fault Refusal := .next (pollErrors s die)

/-! ## Neighbour refresh (10 R211, 24 R425) -/

/-- One draw of the seeded sequence. -/
def nextY (y : Nat) : Nat :=
  let a := y ^^^ (y * 8192 % 4294967296)
  let b := a ^^^ (a / 131072)
  b ^^^ (b * 32 % 4294967296)
/-- NEIGHBOUR_REFRESH: an activate of a stack draws, in test mode from the die's state, else from the random source (log 10); a refresh changes
no data. -/
def execNeighbourRefresh (stack : Nat) (s : State) : Host.Outcome State Fault Refusal :=
  let d := stack / 2
  let die := dieOf s d
  .next (if field (regRaw die 0x3010) 8 1 = 1 then setDie s d { die with y := mapSet die.y 0 (stack % 2) (nextY (mapGet die.y 0 (stack % 2))) }
    else { s with free := s.free + 1 })

/-! ## Machine checks (22 R393) -/

/-- A context takes 0x3F: at TVEC even in handler mode; the trap registers and what was set aside of an earlier trap are lost. -/
def checkCtx (s : State) (k x info : Nat) : State :=
  let c := ctxOf s k x
  if c.task.isNone || c.status == .ending || c.status == .parked then s
  else
    let co := coreOf s k
    let s := if co.holder = some x then (match co.syncWait with | some (ls, _) => setCore (withdraw s k ls) k { coreOf (withdraw s k ls) k with syncWait := none } | none => s) else s
    let s := releaseStores s k x
    let c := ctxOf s k x
    setCtx s k x { enterTrap c (coreOf s k).tvec (coreOf s k).replayv 0x3F c.pc none info with frozen := false }
/-- Contexts of a core with a command in an engine. -/
def inEngine (s : State) (k e : Nat) : List Nat :=
  (List.range 8).filter (fun x =>
    let g := (ctxOf s k x).eng
    if e = 2 || e = 3 then g.subs.any (fun u => u.store == (e == 3)) else !(g.queue e).isEmpty)
/-- The contexts that a source reaches, as 8 × core + context: `unit` is 8 × core + context (1, 3, 5, 7), 8 × core + engine (2), a world (4),
8 × core (6), a die (8) (log 43). -/
def checkReaches (s : State) (source unit : Nat) : List Nat :=
  let k := unit / 8
  match source with
  | 2 => (inEngine s k (unit % 8)).map (fun x => 8 * k + x)
  | 4 => if unit = 0 then [] else (s.ctxs.filter (fun p => p.2.world == unit)).map (·.1)
  | 6 => (List.range 8).map (fun x => 8 * k + x)
  | 8 => (s.ctxs.filter (fun p => p.1 / 640 == unit)).map (·.1)
  | _ => [unit]
/-- The first entry that is checked and not struck, of the ring named, takes the mismatch. -/
def strikeFirst (ring : Bool) (ps : List Pend) : List Pend :=
  match ps with
  | [] => []
  | p :: rest => if p.ring = some ring && p.check.isSome && !p.struck then { p with struck := true } :: rest else p :: strikeFirst ring rest
/-- A residue mismatch (R392): in a product of the vector slot VA (slot 1) or VB (2) of context x, on a result on its way; or in row `row` of the
multiplication that the matrix engine runs for x (3). -/
def mismatch (s : State) (k x slot row : Nat) : State :=
  if slot = 3 then
    let c := coreOf s k
    match c.mx.q with
    | m :: rest => if m.start.isSome && m.ctx = x && m.opc = 0 then setCore s k { c with mx := { c.mx with q := { m with struck := row % 128 :: m.struck } :: rest } } else s
    | [] => s
  else
    let c := ctxOf s k x
    setCtx s k x { c with regs := { c.regs with shadow := strikeFirst (slot == 2) c.regs.shadow } }
/-- MACHINE_CHECK (R393). Source 9 is no machine check: a residue check fails (R392), in context `unit` (8 × core + context) and slot info mod 4,
at output row info / 4 (log 51). -/
def execMachineCheck (source unit info : Nat) (s : State) : Host.Outcome State Fault Refusal :=
  let einfo : Nat → Nat := fun n => source % 256 + 256 * (n % 8) + 65536 * (info % 281474976710656)
  .next (if source = 9 then mismatch s (unit / 8 % 640) (unit % 8) (info % 4) (info / 4) else (checkReaches s source unit).foldl (fun s u => checkCtx s (u / 8) (u % 8) (einfo (if source = 2 then unit else u))) (report s 0x3F (einfo unit)))

end Sys2Proof.Machine
end

