-- ==== Sys2Proof/Machine/Matrix.lean ====
section
/-! DEFINITION. Machine/Matrix.lean: the MX slot (09 R166 to R177, 23 R409). -/

namespace Sys2Proof.Machine

/-- The checks of R409 for one pass: alignment of both addresses, then bounds. -/
def checkPass (a w m fmt : Nat) (sparse : Bool) : Except Halt Unit := do
  if a % 64 ≠ 0 then trapNow 0x15 (bufInfo a 1 0)
  else if w % 64 ≠ 0 then trapNow 0x15 (bufInfo w 0 0)
  else if 1048576 < a + m * mxP fmt sparse then trapNow 0x11 (bufInfo (Nat.max a 1048576) 1 0)
  else if 2097152 < w + 160 * mxQ fmt sparse then trapNow 0x11 (bufInfo (Nat.max w 2097152) 0 0)
  else .ok ()
/-- The regions of an operand (14 R291, 24 R419). -/
def Iss.ownTileRegions (i : Iss) (t : Nat) : Except Halt Unit := i.ownRegion 2 (81920 * t) 81920 (bufInfo (81920 * t) 2 0)
def Iss.ownPass (i : Iss) (a w m fmt : Nat) (sparse : Bool) : Except Halt Unit := do
  i.ownRegion 1 a (m * mxP fmt sparse) (bufInfo a 1 0)
  i.ownRegion 0 w (160 * mxQ fmt sparse) (bufInfo w 0 0)

/-- An operation enters the MX queue as its group issues; it begins at once on an idle array (R166). -/
def Iss.enqueue (i : Iss) (m : MxOp) : Iss :=
  i.atEnd (fun s =>
    let c := actCore s
    mxStep (setActCore s { c with mx := { c.mx with q := c.mx.q ++ [m] } }) s.core)
/-- An operation of the context with nothing set. -/
def Iss.blankOp (i : Iss) (opc : Nat) : MxOp :=
  { ctx := i.st.cx, opc := opc, acc := 0, bt := 0, a := 0, w := 0, rows := 0, skip := 0#128, fmt := 0, fn := 0, rm := 0,
    passes := 0, astep := 0, wstep := 0, first := false, flush := i.flush, addr := i.g.addr, clock := i.clock,
    issued := i.st.now, start := none, fin := none, starts := [], used := [], staged := 2, arows := [], cols := [], draws := [], struck := [] }

/-- MMA, MMAZ and MMAS as one pass, MNEST as several (R170, R173). -/
def Iss.multiply (i : Iss) (acc a w m fmt : Nat) (sparse partner zero : Bool) (skip : BitVec 128) (passes astep wstep : Nat) :
    Except Halt Iss := do
  let _ ← (List.range passes).mapM (fun p => checkPass (a + 64 * p * astep) (w + 64 * p * wstep) m fmt sparse)
  let _ ← (List.range passes).mapM (fun p => i.ownPass (a + 64 * p * astep) (w + 64 * p * wstep) m fmt sparse)
  i.ownTileRegions acc
  .ok (i.enqueue { i.blankOp 0 with
    acc := acc, bt := acc, a := a, w := w, rows := m, skip := skip, fmt := fmt,
    fn := (if partner then 1 else 0) + (if sparse then 2 else 0), passes := passes, astep := astep, wstep := wstep, first := zero })

def multiplyMA (sparse zero : Bool) (f : MA) : Op := fun i =>
  let a := i.s f.sa
  let w := a.1.s f.sb
  w.1.multiply f.acc (a.2.toNat % 1048576) (w.2.toNat % 2097152) (f.mr + 1) f.fmt sparse (f.fn % 2 = 1) zero
    (if f.skip = 1 then readE i.ctx f.em else 0#128) 1 0 0
def opMma (f : MA) : Op := multiplyMA false false f
def opMmaz (f : MA) : Op := multiplyMA false true f
def opMmas (f : MA) : Op := multiplyMA true false f

/-- MNEST: S[sa] holds the operands of pass 0 (R173); a format that its kind does not admit raises 0x02 (R409). -/
def opMnest (f : MC) : Op := fun i => do
  let v := i.s f.sa
  let x := v.2.toNat
  let fmt := f.imm % 16
  let sparse := field x 58 1 = 1
  let partner := field x 59 1 = 1
  if (sparse && !sparseFmt fmt) || (partner && !hasPartner fmt) then trapNow 0x02 x
  else
    v.1.multiply (field x 41 4) (field x 0 20) (field x 20 21) (field x 45 7 + 1) fmt sparse partner (field x 52 1 = 1)
      (if field x 53 1 = 1 then readE i.ctx (field x 54 4) else 0#128) (field f.imm 4 4 + 1) (field f.imm 8 12) (field f.imm 20 12)

/-- The loader entry of an MW syllable (R172). -/
def loadOf (i : Iss) (f : MW) (w : Nat) (waits : Bool) : WLoad :=
  { ctx := i.st.cx, stage := f.wb, w := w, fmt := f.fmt, form := f.fn % 2, waitFor := waits, nest := false, done := false,
    start := none, fin := none }
def checkLoad (i : Iss) (f : MW) (w : Nat) : Except Halt Unit := do
  let q := mxQ f.fmt (f.fn % 2 = 1)
  if w % 64 ≠ 0 then trapNow 0x15 (bufInfo w 0 0)
  else if 2097152 < w + 160 * q then trapNow 0x11 (bufInfo (Nat.max w 2097152) 0 0)
  else i.ownRegion 0 w (160 * q) (bufInfo w 0 0)
def enterLoader (l : WLoad) (s : State) : State :=
  let c := actCore s
  mxStep (setActCore s { c with mx := { c.mx with wl := c.mx.wl.filter (fun e => !(e.done && e.ctx == l.ctx)) ++ [l] } }) s.core
/-- MWLD stays at issue until its stage is loaded. -/
def opMwld (f : MW) : Op := fun i => do
  let a := i.s f.sa
  let w := a.2.toNat % 2097152
  checkLoad i f w
  let mine : WLoad → Bool := fun l => l.waitFor && l.ctx == i.st.cx && l.stage == f.wb && l.w == w && l.fmt == f.fmt && l.form == f.fn % 2
  match i.core.mx.wl.find? mine with
  | some l =>
    if l.done then
      .ok (a.1.atEnd (fun s =>
        let c := actCore s
        setActCore s { c with mx := { c.mx with wl := c.mx.wl.filter (fun e => !mine e) } }))
    else .ok { a.1 with wait := some id }
  | none => .ok { a.1 with wait := some (enterLoader (loadOf i f w true)) }
def opMwpf (f : MW) : Op := fun i => do
  let a := i.s f.sa
  let w := a.2.toNat % 2097152
  checkLoad i f w
  .ok (a.1.atEnd (enterLoader (loadOf i f w false)))

/-! ## Tile operations (R174, R175) -/

def opMzero (f : MT) : Op := fun i => do
  i.ownTileRegions f.acc
  .ok (i.enqueue { i.blankOp 0x14 with acc := f.acc, bt := f.acc, fmt := f.fmt })
def tileOp (opc : Nat) (f : MT) (m : Nat) (draws : List Nat) (i : Iss) : Except Halt Iss := do
  i.ownTileRegions f.acc
  i.ownTileRegions f.bt
  .ok (i.enqueue { i.blankOp opc with acc := f.acc, bt := f.bt, a := m, fmt := f.fmt, fn := f.fn, rm := f.rm, draws := draws })
def opMacc (f : MT) : Op := tileOp 0x11 f 0 []
def opMtrn (f : MT) : Op := tileOp 0x10 f 0 []
/-- m = S[sa][7:0], 0 for 128. A value above 128 names rows the tile has not; it is taken as 128 (log 29). -/
def opMred (f : MT) : Op := fun i =>
  let a := i.s f.sa
  let m := a.2.toNat % 256
  tileOp 0x13 f (if m = 0 || 128 < m then 128 else m) [] a.1
def opMcvt (f : MT) : Op := fun i => tileOp 0x12 f 0 (if f.rm = 4 && i.core.mx.q.isEmpty then [i.seed.toNat] else []) i
/-- MWAIT: a mask of 0 names all sixteen tiles (R176). -/
def opMwait (f : MT) : Op := fun i =>
  let mask := if f.fn % 65536 = 0 then 65535 else f.fn % 65536
  if busyTiles i.core &&& mask = 0 then .ok i else stallNow
/-- MCFG (R177). -/
def opMcfg (f : MC) : Op := fun i =>
  let v := match f.imm with
    | 0 => 0x04000080008000A0
    | 1 => busyTiles i.core
    | _ => i.core.mx.q.length + 16 * loaderEntries i.core
  .ok (i.writeS 1 f.sa (BitVec.ofNat 64 v))

/-! ## The instructions: each issues as a group of its own (05 R85) -/

/-- MMA. -/
def execMma (g : Guard) (f : MA) (s : State) : Host.Outcome State Fault Refusal :=
  .next (issueSyl (.mma g f) (opMma f) s)
/-- MMAZ. -/
def execMmaz (g : Guard) (f : MA) (s : State) : Host.Outcome State Fault Refusal :=
  .next (issueSyl (.mmaz g f) (opMmaz f) s)
/-- MMAS. -/
def execMmas (g : Guard) (f : MA) (s : State) : Host.Outcome State Fault Refusal :=
  .next (issueSyl (.mmas g f) (opMmas f) s)
/-- MNEST. -/
def execMnest (g : Guard) (f : MC) (s : State) : Host.Outcome State Fault Refusal :=
  .next (issueSyl (.mnest g f) (opMnest f) s)
/-- MWLD. -/
def execMwld (g : Guard) (f : MW) (s : State) : Host.Outcome State Fault Refusal :=
  .next (issueSyl (.mwld g f) (opMwld f) s)
/-- MWPF. -/
def execMwpf (g : Guard) (f : MW) (s : State) : Host.Outcome State Fault Refusal :=
  .next (issueSyl (.mwpf g f) (opMwpf f) s)
/-- MZERO. -/
def execMzero (g : Guard) (f : MT) (s : State) : Host.Outcome State Fault Refusal :=
  .next (issueSyl (.mzero g f) (opMzero f) s)
/-- MACC. -/
def execMacc (g : Guard) (f : MT) (s : State) : Host.Outcome State Fault Refusal :=
  .next (issueSyl (.macc g f) (opMacc f) s)
/-- MTRN. -/
def execMtrn (g : Guard) (f : MT) (s : State) : Host.Outcome State Fault Refusal :=
  .next (issueSyl (.mtrn g f) (opMtrn f) s)
/-- MRED. -/
def execMred (g : Guard) (f : MT) (s : State) : Host.Outcome State Fault Refusal :=
  .next (issueSyl (.mred g f) (opMred f) s)
/-- MCVT. -/
def execMcvt (g : Guard) (f : MT) (s : State) : Host.Outcome State Fault Refusal :=
  .next (issueSyl (.mcvt g f) (opMcvt f) s)
/-- MWAIT. -/
def execMwait (g : Guard) (f : MT) (s : State) : Host.Outcome State Fault Refusal :=
  .next (issueSyl (.mwait g f) (opMwait f) s)
/-- MCFG. -/
def execMcfg (g : Guard) (f : MC) (s : State) : Host.Outcome State Fault Refusal :=
  .next (issueSyl (.mcfg g f) (opMcfg f) s)

end Sys2Proof.Machine
end

