-- ==== Sys2Proof/Machine/Scalar.lean ====
section
/-! DEFINITION. Machine/Scalar.lean: the SC slot (07 R115 to R135, 23 R395, R407): integer, predicate, floating-point, capability and
special-register instructions. Every result passes through the shadow record but for MOVTS (R58). -/

namespace Sys2Proof.Machine

/-! ## Integers (R116 to R121) -/

/-- A scalar result of two scalars, landing after `lat` cycles. -/
def alu (lat : Nat) (fn : BitVec 64 → BitVec 64 → BitVec 64) (sd sa sb : Nat) : Op := fun i =>
  let a := i.s sa
  let b := a.1.s sb
  .ok (b.1.writeS lat sd (fn a.2 b.2))
/-- A scalar result of one scalar. -/
def alu1 (lat : Nat) (fn : BitVec 64 → BitVec 64) (sd sa : Nat) : Op := fun i =>
  let a := i.s sa
  .ok (a.1.writeS lat sd (fn a.2))

/-- Bits [127:64] of the signed and of the unsigned product (R116). -/
def mulhS (a b : BitVec 64) : BitVec 64 := BitVec.ofInt 64 (a.toInt * b.toInt / 18446744073709551616)
def mulhU (a b : BitVec 64) : BitVec 64 := BitVec.ofNat 64 (a.toNat * b.toNat / 18446744073709551616)
/-- Division of 04 R66: by zero all ones and the dividend; −2^63 by −1 gives −2^63 and 0; else truncation towards zero. -/
def divS (a b : BitVec 64) : BitVec 64 := if b = 0#64 then BitVec.allOnes 64 else BitVec.ofInt 64 (Int.tdiv a.toInt b.toInt)
def remS (a b : BitVec 64) : BitVec 64 := if b = 0#64 then a else BitVec.ofInt 64 (Int.tmod a.toInt b.toInt)
def divU (a b : BitVec 64) : BitVec 64 := if b = 0#64 then BitVec.allOnes 64 else BitVec.ofNat 64 (a.toNat / b.toNat)
def remU (a b : BitVec 64) : BitVec 64 := if b = 0#64 then a else BitVec.ofNat 64 (a.toNat % b.toNat)
/-- A division notes kind 2 for a zero divisor (22 R391, 23 R407). -/
def divide (fn : BitVec 64 → BitVec 64 → BitVec 64) (f : SX) : Op := fun i =>
  let a := i.s f.sa
  let b := a.1.s f.sb
  .ok (b.1.add 18 (.scalar f.sd (fn a.2 b.2)) none (if b.2 = 0#64 then 2 else 0))

/-- Shifts by k (R117). -/
def shl (a : BitVec 64) (k : Nat) : BitVec 64 := a <<< k
def shr (a : BitVec 64) (k : Nat) : BitVec 64 := a >>> k
def sra (a : BitVec 64) (k : Nat) : BitVec 64 := a.sshiftRight k
def rot (a : BitVec 64) (k : Nat) : BitVec 64 := a.rotateLeft k
def shiftReg (fn : BitVec 64 → Nat → BitVec 64) (f : SX) : Op := alu 1 (fun a b => fn a (b.toNat % 64)) f.sd f.sa f.sb
def shiftImm (fn : BitVec 64 → Nat → BitVec 64) (f : SX) : Op := alu1 1 (fun a => fn a (f.fn % 64)) f.sd f.sa

/-- Leading zeros of the low n bits, trailing zeros, ones (R118). -/
def leadZeros (a : Nat) (n : Nat) : Nat :=
  match n with
  | 0 => 0
  | n + 1 => if a.testBit n then 0 else 1 + leadZeros a n
def trailZeros (a : Nat) (n : Nat) : Nat :=
  match n with
  | 0 => 0
  | n + 1 => if a % 2 = 1 then 0 else 1 + trailZeros (a / 2) n
def countOnes (a : Nat) (n : Nat) : Nat :=
  match n with
  | 0 => 0
  | n + 1 => a % 2 + countOnes (a / 2) n
/-- BEXT: the bits of a that b selects, packed low; BDEP: the low bits of a at the ones of b (R118). -/
def gatherBits (a b : Nat) (n : Nat) : Nat :=
  match n with
  | 0 => 0
  | n + 1 => if b % 2 = 1 then a % 2 + 2 * gatherBits (a / 2) (b / 2) n else gatherBits (a / 2) (b / 2) n
def scatterBits (a b : Nat) (n : Nat) : Nat :=
  match n with
  | 0 => 0
  | n + 1 => if b % 2 = 1 then a % 2 + 2 * scatterBits (a / 2) (b / 2) n else 2 * scatterBits a (b / 2) n
def signExtend (w : Nat) (a : BitVec 64) : BitVec 64 := BitVec.ofInt 64 (signed w a.toNat)
def zeroExtend (w : Nat) (a : BitVec 64) : BitVec 64 := BitVec.ofNat 64 (a.toNat % 2 ^ w)

def opAdd (f : SX) : Op := alu 1 (· + ·) f.sd f.sa f.sb
def opSub (f : SX) : Op := alu 1 (· - ·) f.sd f.sa f.sb
def opMul (f : SX) : Op := alu 3 (· * ·) f.sd f.sa f.sb
def opMulh (f : SX) : Op := alu 3 mulhS f.sd f.sa f.sb
def opMulhu (f : SX) : Op := alu 3 mulhU f.sd f.sa f.sb
def opDiv (f : SX) : Op := divide divS f
def opDivu (f : SX) : Op := divide divU f
def opRem (f : SX) : Op := divide remS f
def opRemu (f : SX) : Op := divide remU f
def opAnd (f : SX) : Op := alu 1 (· &&& ·) f.sd f.sa f.sb
def opOr (f : SX) : Op := alu 1 (· ||| ·) f.sd f.sa f.sb
def opXor (f : SX) : Op := alu 1 (· ^^^ ·) f.sd f.sa f.sb
def opAndn (f : SX) : Op := alu 1 (fun a b => a &&& ~~~b) f.sd f.sa f.sb
def opShlReg (f : SX) : Op := shiftReg shl f
def opShlImm (f : SX) : Op := shiftImm shl f
def opShrReg (f : SX) : Op := shiftReg shr f
def opShrImm (f : SX) : Op := shiftImm shr f
def opSraReg (f : SX) : Op := shiftReg sra f
def opSraImm (f : SX) : Op := shiftImm sra f
def opRotReg (f : SX) : Op := shiftReg rot f
def opRotImm (f : SX) : Op := shiftImm rot f
def opClz (f : SX) : Op := alu1 1 (fun a => BitVec.ofNat 64 (leadZeros a.toNat 64)) f.sd f.sa
def opCtz (f : SX) : Op := alu1 1 (fun a => BitVec.ofNat 64 (trailZeros a.toNat 64)) f.sd f.sa
def opPopc (f : SX) : Op := alu1 1 (fun a => BitVec.ofNat 64 (countOnes a.toNat 64)) f.sd f.sa
def opBext (f : SX) : Op := alu 1 (fun a b => BitVec.ofNat 64 (gatherBits a.toNat b.toNat 64)) f.sd f.sa f.sb
def opBdep (f : SX) : Op := alu 1 (fun a b => BitVec.ofNat 64 (scatterBits a.toNat b.toNat 64)) f.sd f.sa f.sb
def opSext (f : SX) : Op := alu1 1 (signExtend (f.fn % 64 + 1)) f.sd f.sa
def opZext (f : SX) : Op := alu1 1 (zeroExtend (f.fn % 64 + 1)) f.sd f.sa
def opMin (f : SX) : Op := alu 1 (fun a b => if b.slt a then b else a) f.sd f.sa f.sb
def opMax (f : SX) : Op := alu 1 (fun a b => if a.slt b then b else a) f.sd f.sa f.sb
def opMinu (f : SX) : Op := alu 1 (fun a b => if b.ult a then b else a) f.sd f.sa f.sb
def opMaxu (f : SX) : Op := alu 1 (fun a b => if a.ult b then b else a) f.sd f.sa f.sb
/-- SEL reads its predicate as a guard is read (R120). -/
def opSel (f : SX) : Op := fun i => alu 1 (fun a b => if testOf i.c0 (f.fn % 128) then a else b) f.sd f.sa f.sb i
def opAddi (f : SI) : Op := alu1 1 (fun a => a + BitVec.ofInt 64 (signed 26 f.imm)) f.sd f.sa
def opLi (f : SL) : Op := fun i => .ok (i.writeS 1 f.sd (BitVec.ofInt 64 (signed 32 f.imm)))
/-- LIH reads its own destination (R121). -/
def opLih (f : SL) : Op := alu1 1 (fun a => BitVec.ofNat 64 (f.imm * 4294967296 + a.toNat % 4294967296)) f.sd f.sd

/-! ## Predicates (R122 to R124) -/

/-- CMP codes on 64-bit operands (R122). -/
def cmp64 (cc : Nat) (a b : BitVec 64) : Bool :=
  match cc with
  | 0 => a == b
  | 1 => a != b
  | 2 => a.slt b
  | 3 => !a.slt b
  | 4 => a.ult b
  | 5 => !a.ult b
  | 6 => !b.slt a
  | 7 => b.slt a
  | 8 => !b.ult a
  | _ => b.ult a
def Iss.writeP (i : Iss) (lat n : Nat) (v : Bool) : Iss := i.add lat (.pred n v) none 0
def opCmpReg (f : SP) : Op := fun i =>
  let a := i.s f.xa
  let b := a.1.s f.xb
  .ok (b.1.writeP 1 f.pd (cmp64 f.cc a.2 b.2))
def opCmpImm (f : SP) : Op := fun i =>
  let a := i.s f.xa
  .ok (a.1.writeP 1 f.pd (cmp64 f.cc a.2 (BitVec.ofInt 64 (signed 12 f.fn))))
def opTstbReg (f : SP) : Op := fun i =>
  let a := i.s f.xa
  let b := a.1.s f.xb
  .ok (b.1.writeP 1 f.pd (a.2.getLsbD (b.2.toNat % 64)))
def opTstbImm (f : SP) : Op := fun i =>
  let a := i.s f.xa
  .ok (a.1.writeP 1 f.pd (a.2.getLsbD (f.fn % 64)))
/-- The sources of predicate logic, inverted by FN[0] and FN[1]. -/
def logicP (fn : Bool → Bool → Bool) (f : SP) : Op := fun i =>
  let x := readP i.ctx f.xa != (f.fn % 2 == 1)
  let y := readP i.ctx f.xb != (f.fn / 2 % 2 == 1)
  .ok (i.writeP 1 f.pd (fn x y))
def opPand (f : SP) : Op := logicP (fun x y => x && y) f
def opPor (f : SP) : Op := logicP (fun x y => x || y) f
def opPxor (f : SP) : Op := logicP (fun x y => x != y) f
def opPnot (f : SP) : Op := logicP (fun x _ => !x) f
def opPmov (f : SP) : Op := logicP (fun x _ => x) f

/-! ## Scalar floating point (R125 to R128) -/

/-- Width of a scalar of T code t, in bits. -/
def scalarBits (t : Nat) : Nat := match t with | 0 => 64 | 7 => 64 | 11 => 64 | 1 => 32 | 6 => 32 | 10 => 32 | _ => 16
/-- A floating operand: the low bits, DAZ by its family. -/
def fpOperand (flush t : Nat) (v : BitVec 64) : FVal := decodeF (fmtOf t) (dazOf flush t) (v.toNat % 2 ^ scalarBits t)
def Iss.writeF (i : Iss) (sd : Nat) (r : FRes) : Iss := i.add 4 (.scalar sd (BitVec.ofNat 64 r.code)) none r.kind
def opSfadd (f : SX) : Op := fun i =>
  let t := f.fn % 16
  let a := i.s f.sa
  let b := a.1.s f.sb
  .ok (b.1.writeF f.sd (addF (fmtOf t) f.rm (ftzOf i.flush t) (fpOperand i.flush t a.2) (fpOperand i.flush t b.2)))
def opSfmul (f : SX) : Op := fun i =>
  let t := f.fn % 16
  let a := i.s f.sa
  let b := a.1.s f.sb
  .ok (b.1.writeF f.sd (mulF (fmtOf t) f.rm (ftzOf i.flush t) (fpOperand i.flush t a.2) (fpOperand i.flush t b.2)))
def opSfma (f : SX) : Op := fun i =>
  let t := f.fn % 16
  let a := i.s f.sa
  let b := a.1.s f.sb
  let c := b.1.s (f.fn / 2048)
  .ok (c.1.writeF f.sd (fmaF (fmtOf t) f.rm (ftzOf i.flush t) (fpOperand i.flush t a.2) (fpOperand i.flush t b.2) (fpOperand i.flush t c.2)))
def opSfcmp (f : SP) : Op := fun i =>
  let t := f.fn % 16
  let a := i.s f.xa
  let b := a.1.s f.xb
  .ok (b.1.writeP 2 f.pd (cmpV f.cc (fpOperand i.flush t a.2) (fpOperand i.flush t b.2)))
/-- SFCVT (R128): float to float rounds by RM with draws under `.sr`; float to integer saturates; a uint32 result is zero-extended
and an int32 result sign-extended. -/
def opSfcvt (f : SX) : Op := fun i =>
  let st := f.fn % 16
  let dt := f.fn / 16 % 16
  let a := i.s f.sa
  let w := a.2.toNat % 2 ^ scalarBits st
  if isFloatT st && isFloatT dt then
    let r := roundDraws (fmtOf dt) f.rm false (ftzOf i.flush dt) [fpOperand i.flush st a.2] i.core.gen
    let j := a.1.setCore { a.1.core with gen := r.2 }
    .ok (j.writeF f.sd (r.1.headD ⟨0, 0⟩))
  else if isFloatT st then
    let r := toIntF dt (scalarBits dt) f.rm (fpOperand i.flush st a.2)
    .ok (a.1.add 4 (.scalar f.sd (if dt = 6 then signExtend 32 (BitVec.ofNat 64 r.code) else BitVec.ofNat 64 r.code)) none r.kind)
  else
    .ok (a.1.writeF f.sd (roundF (fmtOf dt) f.rm false (ftzOf i.flush dt) none (ofIntV (intOf st (scalarBits st) w))))

/-! ## Capabilities (R129 to R133) -/

/-- A capability with new bounds, reserved bits [7:0] zero. -/
def Cap.withBounds (c : Cap) (lo hi : Nat) (tag : Bool) : Cap :=
  ⟨BitVec.ofNat 128 (c.rights * 2 ^ 120 + hi % 2 ^ 40 * 2 ^ 80 + lo % 2 ^ 40 * 2 ^ 40 + c.obj * 256), tag⟩
def setBounds (f : SK) (lo hi : Cap → Nat → Nat → Nat) : Op := fun i =>
  let a := i.s f.sa
  let b := a.1.s f.sb
  let src := readC i.ctx f.ca
  let l := lo src a.2.toNat b.2.toNat
  let h := hi src a.2.toNat b.2.toNat
  let ok := src.tag && decide (src.lower ≤ l) && decide (h ≤ src.upper) && decide (l ≤ h)
  .ok (b.1.add 1 (.cap f.cd (src.withBounds l h ok)) none 0)
def opCderive (f : SK) : Op := setBounds f (fun c a _ => c.lower + a) (fun c a b => c.lower + a + b)
def opCsetb (f : SK) : Op := setBounds f (fun _ a _ => a) (fun _ _ b => b)
def opCrights (f : SK) : Op := fun i =>
  let c := readC i.ctx f.ca
  let r := c.rights &&& (f.fn % 256)
  .ok (i.add 1 (.cap f.cd ⟨BitVec.ofNat 128 (r * 2 ^ 120 + c.bits.toNat % 2 ^ 120 / 256 * 256), c.tag⟩) none 0)
def capField (c : Cap) (sel : Nat) : Nat :=
  match sel with
  | 0 => c.lower
  | 1 => c.upper
  | 2 => c.upper - c.lower
  | 3 => c.rights
  | 4 => c.obj
  | _ => if c.tag then 1 else 0
/-- CGET: the destination scalar is in the SA field (R132). -/
def opCget (f : SK) : Op := fun i => .ok (i.writeS 1 f.sa (BitVec.ofNat 64 (capField (readC i.ctx f.ca) (f.fn % 8))))
def opCtest (f : SK) : Op := fun i =>
  let a := i.s f.sa
  let b := a.1.s f.sb
  let c := readC i.ctx f.ca
  let ok := c.tag && decide (c.lower ≤ a.2.toNat) && decide (a.2.toNat + b.2.toNat ≤ c.upper) && c.grants (f.fn % 256)
  .ok (b.1.writeP 1 (f.fn / 4096) ok)

/-! ## Special registers (R58, R59, R134, R135, 23 R395, R402) -/

/-- The value of a special register, reserved bits 0; the number is one of R58's table. -/
def special (s : State) (num : Nat) : Nat :=
  let c := actCtx s
  let k := actCore s
  if num = 0x000 then c.sp.cause
  else if num = 0x001 then c.sp.epc
  else if num = 0x002 then c.sp.eslot
  else if num = 0x003 then c.sp.einfo.toNat
  else if num = 0x004 then k.tvec
  else if num = 0x005 then k.replayv
  else if num = 0x008 then (match (if c.sp.felogSet = s.now + 1 then c.sp.felogWas else c.sp.felog) with | some e => e.addr % 281474976710656 + 281474976710656 * e.slot + 2251799813685248 * e.kind | none => 0)
  else if num = 0x00A then c.sp.flush
  else if num = 0x00B then k.seed.toNat
  else if num = 0x010 then s.cx + 8 * s.core + 8192 * dieOfCore s.core + (if c.sp.hmode then 65536 else 0)
  else if num = 0x011 then c.sp.prio
  else if num = 0x012 then k.calown.toNat
  else if num = 0x013 then s.now % 64
  else if num = 0x014 then hwStart s (16 + s.core) 0x014 k.tagstale
  else if num = 0x015 then hwStart s (dieOfCore s.core) dupKey (dieOf s (dieOfCore s.core)).dupcnt
  else if num = 0x016 then k.lines + 65536 * (if k.phaseSet = s.now + 1 then k.phaseWas else k.phase)
  else if 0x040 ≤ num && num < 0x080 then
    let q := qcfgOf c (num - 0x040)
    let p := qptrOf c (num - 0x040)
    q.base + 65536 * (q.depth % 1024) + 67108864 * q.cls + 274877906944 * p.rd + 281474976710656 * p.count
  else if 0x080 ≤ num && num < 0x0C0 then fscOf c (num - 0x080)
  else 0
/-- An RC register is cleared by its read (R134). -/
def clearSpecial (num : Nat) (s : State) : State :=
  if num = 0x014 then setActCore s { actCore s with tagstale := hwLeft s (16 + s.core) 0x014 }
  else if num = 0x015 then setDie s (dieOfCore s.core) { dieOf s (dieOfCore s.core) with dupcnt := hwLeft s (dieOfCore s.core) dupKey }
  else s
def opMovsp (f : SM) : Op := fun i =>
  .ok ((i.writeS 1 f.sd (BitVec.ofNat 64 (special i.st f.num))).atEnd (clearSpecial f.num))

/-- MOVTS into a register of R58's table that has no constructor of its own; RO and RC registers ignore it (R395). -/
def writeSpecial (num : Nat) (v : Nat) (s : State) : State :=
  let c := actCtx s
  let k := actCore s
  if num = 0x000 then setAct s { c with sp := { c.sp with cause := v % 64 } }
  else if num = 0x001 then setAct s { c with sp := { c.sp with epc := v % 281474976710656 / 8 * 8 } }
  else if num = 0x002 then setAct s { c with sp := { c.sp with eslot := v % 16 } }
  else if num = 0x003 then setAct s { c with sp := { c.sp with einfo := BitVec.ofNat 64 v } }
  else if num = 0x004 then setActCore s { k with tvec := v % 281474976710656 / 8 * 8 }
  else if num = 0x005 then setActCore s { k with replayv := v % 281474976710656 / 8 * 8 }
  else if num = 0x00A then setAct s { c with sp := { c.sp with flush := v % 4096 } }
  else s
def opMovts (f : SM) : Op := fun i =>
  let a := i.s f.sd
  .ok (a.1.atEnd (writeSpecial f.num a.2.toNat))

/-- An engine command or an outstanding row targets queue q (R51: the write waits for it). -/
def queueTargeted (c : Ctx) (q : Nat) : Bool :=
  (c.eng.copy ++ c.eng.sfe).any (fun m => m.desc.dsp == 8 && m.desc.dbase % 64 == q)
/-- The descriptor a write gives (R51, R402): CLASS 3 or rows past the file leave the queue not configured. -/
def qcfgWord (v : Nat) : QCfg :=
  let base := field v 0 13
  let depth := if field v 16 10 = 0 then 1024 else field v 16 10
  let cls := field v 26 2
  ⟨base, depth, if cls = 3 || 6144 < base + depth then 0 else cls⟩
/-- Banks that a descriptor's rows touch. -/
def banksOf (q : QCfg) : List Nat :=
  if q.cls = 0 then [] else (List.range ((q.base + q.depth - 1) / 128 - q.base / 128 + 1)).map (fun i => q.base / 128 + i)
/-- MOVTS to QCFGn: it stalls while an engine command targets the queue, claims the banks of the rows (R48, R49), and clears RDPTR
and COUNT. -/
def opQcfgWrite (f : SM) : Op := fun i => do
  let n := f.num - 0x040
  let a := i.s f.sd
  let q := qcfgWord a.2.toNat
  if queueTargeted i.ctx n then stallNow
  else
    let j ← (banksOf q).foldlM (fun (j : Iss) b => j.touch (128 * b)) a.1
    .ok (j.atEnd (fun s =>
      let c := actCtx s
      setAct s (setQPtr { c with qcfg := mapSet c.qcfg QCfg.init n q } n QPtr.init)))
/-- MOVTS to FECLR: an event noted in the same cycle wins (R60), but one that does not replace the held event goes with it (log 84). -/
def opFeclrWrite (f : SM) : Op := fun i =>
  let a := i.s f.sd
  .ok (a.1.atEnd (fun s =>
    let c := actCtx s
    if a.2.getLsbD 0 && c.sp.felogSet ≠ s.now + 1 then setAct s { c with sp := { c.sp with felog := none, felogAt := 0 } } else s))
def opSrseedWrite (f : SM) : Op := fun i =>
  let a := i.s f.sd
  .ok (a.1.atEnd (fun s => setActCore s { actCore s with seed := a.2, gen := seedLoad a.2 }))

/-! ## The instructions: each issues as a group of its own (05 R85) -/

/-- ADD. -/
def execAdd (g : Guard) (f : SX) (s : State) : Host.Outcome State Fault Refusal :=
  .next (issueSyl (.add g f) (opAdd f) s)
/-- SUB. -/
def execSub (g : Guard) (f : SX) (s : State) : Host.Outcome State Fault Refusal :=
  .next (issueSyl (.sub g f) (opSub f) s)
/-- MUL. -/
def execMul (g : Guard) (f : SX) (s : State) : Host.Outcome State Fault Refusal :=
  .next (issueSyl (.mul g f) (opMul f) s)
/-- MULH. -/
def execMulh (g : Guard) (f : SX) (s : State) : Host.Outcome State Fault Refusal :=
  .next (issueSyl (.mulh g f) (opMulh f) s)
/-- MULHU. -/
def execMulhu (g : Guard) (f : SX) (s : State) : Host.Outcome State Fault Refusal :=
  .next (issueSyl (.mulhu g f) (opMulhu f) s)
/-- DIV. -/
def execDiv (g : Guard) (f : SX) (s : State) : Host.Outcome State Fault Refusal :=
  .next (issueSyl (.div g f) (opDiv f) s)
/-- DIVU. -/
def execDivu (g : Guard) (f : SX) (s : State) : Host.Outcome State Fault Refusal :=
  .next (issueSyl (.divu g f) (opDivu f) s)
/-- REM. -/
def execRem (g : Guard) (f : SX) (s : State) : Host.Outcome State Fault Refusal :=
  .next (issueSyl (.rem g f) (opRem f) s)
/-- REMU. -/
def execRemu (g : Guard) (f : SX) (s : State) : Host.Outcome State Fault Refusal :=
  .next (issueSyl (.remu g f) (opRemu f) s)
/-- AND. -/
def execAnd (g : Guard) (f : SX) (s : State) : Host.Outcome State Fault Refusal :=
  .next (issueSyl (.and g f) (opAnd f) s)
/-- OR. -/
def execOr (g : Guard) (f : SX) (s : State) : Host.Outcome State Fault Refusal :=
  .next (issueSyl (.or g f) (opOr f) s)
/-- XOR. -/
def execXor (g : Guard) (f : SX) (s : State) : Host.Outcome State Fault Refusal :=
  .next (issueSyl (.xor g f) (opXor f) s)
/-- ANDN. -/
def execAndn (g : Guard) (f : SX) (s : State) : Host.Outcome State Fault Refusal :=
  .next (issueSyl (.andn g f) (opAndn f) s)
/-- SHL_REG. -/
def execShlReg (g : Guard) (f : SX) (s : State) : Host.Outcome State Fault Refusal :=
  .next (issueSyl (.shlReg g f) (opShlReg f) s)
/-- SHL_IMM. -/
def execShlImm (g : Guard) (f : SX) (s : State) : Host.Outcome State Fault Refusal :=
  .next (issueSyl (.shlImm g f) (opShlImm f) s)
/-- SHR_REG. -/
def execShrReg (g : Guard) (f : SX) (s : State) : Host.Outcome State Fault Refusal :=
  .next (issueSyl (.shrReg g f) (opShrReg f) s)
/-- SHR_IMM. -/
def execShrImm (g : Guard) (f : SX) (s : State) : Host.Outcome State Fault Refusal :=
  .next (issueSyl (.shrImm g f) (opShrImm f) s)
/-- SRA_REG. -/
def execSraReg (g : Guard) (f : SX) (s : State) : Host.Outcome State Fault Refusal :=
  .next (issueSyl (.sraReg g f) (opSraReg f) s)
/-- SRA_IMM. -/
def execSraImm (g : Guard) (f : SX) (s : State) : Host.Outcome State Fault Refusal :=
  .next (issueSyl (.sraImm g f) (opSraImm f) s)
/-- ROT_REG. -/
def execRotReg (g : Guard) (f : SX) (s : State) : Host.Outcome State Fault Refusal :=
  .next (issueSyl (.rotReg g f) (opRotReg f) s)
/-- ROT_IMM. -/
def execRotImm (g : Guard) (f : SX) (s : State) : Host.Outcome State Fault Refusal :=
  .next (issueSyl (.rotImm g f) (opRotImm f) s)
/-- CLZ. -/
def execClz (g : Guard) (f : SX) (s : State) : Host.Outcome State Fault Refusal :=
  .next (issueSyl (.clz g f) (opClz f) s)
/-- CTZ. -/
def execCtz (g : Guard) (f : SX) (s : State) : Host.Outcome State Fault Refusal :=
  .next (issueSyl (.ctz g f) (opCtz f) s)
/-- POPC. -/
def execPopc (g : Guard) (f : SX) (s : State) : Host.Outcome State Fault Refusal :=
  .next (issueSyl (.popc g f) (opPopc f) s)
/-- BEXT. -/
def execBext (g : Guard) (f : SX) (s : State) : Host.Outcome State Fault Refusal :=
  .next (issueSyl (.bext g f) (opBext f) s)
/-- BDEP. -/
def execBdep (g : Guard) (f : SX) (s : State) : Host.Outcome State Fault Refusal :=
  .next (issueSyl (.bdep g f) (opBdep f) s)
/-- SEXT. -/
def execSext (g : Guard) (f : SX) (s : State) : Host.Outcome State Fault Refusal :=
  .next (issueSyl (.sext g f) (opSext f) s)
/-- ZEXT. -/
def execZext (g : Guard) (f : SX) (s : State) : Host.Outcome State Fault Refusal :=
  .next (issueSyl (.zext g f) (opZext f) s)
/-- MIN. -/
def execMin (g : Guard) (f : SX) (s : State) : Host.Outcome State Fault Refusal :=
  .next (issueSyl (.min g f) (opMin f) s)
/-- MAX. -/
def execMax (g : Guard) (f : SX) (s : State) : Host.Outcome State Fault Refusal :=
  .next (issueSyl (.max g f) (opMax f) s)
/-- MINU. -/
def execMinu (g : Guard) (f : SX) (s : State) : Host.Outcome State Fault Refusal :=
  .next (issueSyl (.minu g f) (opMinu f) s)
/-- MAXU. -/
def execMaxu (g : Guard) (f : SX) (s : State) : Host.Outcome State Fault Refusal :=
  .next (issueSyl (.maxu g f) (opMaxu f) s)
/-- SEL. -/
def execSel (g : Guard) (f : SX) (s : State) : Host.Outcome State Fault Refusal :=
  .next (issueSyl (.sel g f) (opSel f) s)
/-- ADDI. -/
def execAddi (g : Guard) (f : SI) (s : State) : Host.Outcome State Fault Refusal :=
  .next (issueSyl (.addi g f) (opAddi f) s)
/-- LI. -/
def execLi (g : Guard) (f : SL) (s : State) : Host.Outcome State Fault Refusal :=
  .next (issueSyl (.li g f) (opLi f) s)
/-- LIH. -/
def execLih (g : Guard) (f : SL) (s : State) : Host.Outcome State Fault Refusal :=
  .next (issueSyl (.lih g f) (opLih f) s)
/-- CMP_REG. -/
def execCmpReg (g : Guard) (f : SP) (s : State) : Host.Outcome State Fault Refusal :=
  .next (issueSyl (.cmpReg g f) (opCmpReg f) s)
/-- CMP_IMM. -/
def execCmpImm (g : Guard) (f : SP) (s : State) : Host.Outcome State Fault Refusal :=
  .next (issueSyl (.cmpImm g f) (opCmpImm f) s)
/-- TSTB_REG. -/
def execTstbReg (g : Guard) (f : SP) (s : State) : Host.Outcome State Fault Refusal :=
  .next (issueSyl (.tstbReg g f) (opTstbReg f) s)
/-- TSTB_IMM. -/
def execTstbImm (g : Guard) (f : SP) (s : State) : Host.Outcome State Fault Refusal :=
  .next (issueSyl (.tstbImm g f) (opTstbImm f) s)
/-- PAND. -/
def execPand (g : Guard) (f : SP) (s : State) : Host.Outcome State Fault Refusal :=
  .next (issueSyl (.pand g f) (opPand f) s)
/-- POR. -/
def execPor (g : Guard) (f : SP) (s : State) : Host.Outcome State Fault Refusal :=
  .next (issueSyl (.por g f) (opPor f) s)
/-- PXOR. -/
def execPxor (g : Guard) (f : SP) (s : State) : Host.Outcome State Fault Refusal :=
  .next (issueSyl (.pxor g f) (opPxor f) s)
/-- PNOT. -/
def execPnot (g : Guard) (f : SP) (s : State) : Host.Outcome State Fault Refusal :=
  .next (issueSyl (.pnot g f) (opPnot f) s)
/-- PMOV. -/
def execPmov (g : Guard) (f : SP) (s : State) : Host.Outcome State Fault Refusal :=
  .next (issueSyl (.pmov g f) (opPmov f) s)
/-- SFADD. -/
def execSfadd (g : Guard) (f : SX) (s : State) : Host.Outcome State Fault Refusal :=
  .next (issueSyl (.sfadd g f) (opSfadd f) s)
/-- SFMUL. -/
def execSfmul (g : Guard) (f : SX) (s : State) : Host.Outcome State Fault Refusal :=
  .next (issueSyl (.sfmul g f) (opSfmul f) s)
/-- SFMA. -/
def execSfma (g : Guard) (f : SX) (s : State) : Host.Outcome State Fault Refusal :=
  .next (issueSyl (.sfma g f) (opSfma f) s)
/-- SFCMP. -/
def execSfcmp (g : Guard) (f : SP) (s : State) : Host.Outcome State Fault Refusal :=
  .next (issueSyl (.sfcmp g f) (opSfcmp f) s)
/-- SFCVT. -/
def execSfcvt (g : Guard) (f : SX) (s : State) : Host.Outcome State Fault Refusal :=
  .next (issueSyl (.sfcvt g f) (opSfcvt f) s)
/-- CDERIVE. -/
def execCderive (g : Guard) (f : SK) (s : State) : Host.Outcome State Fault Refusal :=
  .next (issueSyl (.cderive g f) (opCderive f) s)
/-- CSETB. -/
def execCsetb (g : Guard) (f : SK) (s : State) : Host.Outcome State Fault Refusal :=
  .next (issueSyl (.csetb g f) (opCsetb f) s)
/-- CRIGHTS. -/
def execCrights (g : Guard) (f : SK) (s : State) : Host.Outcome State Fault Refusal :=
  .next (issueSyl (.crights g f) (opCrights f) s)
/-- CGET. -/
def execCget (g : Guard) (f : SK) (s : State) : Host.Outcome State Fault Refusal :=
  .next (issueSyl (.cget g f) (opCget f) s)
/-- CTEST. -/
def execCtest (g : Guard) (f : SK) (s : State) : Host.Outcome State Fault Refusal :=
  .next (issueSyl (.ctest g f) (opCtest f) s)
/-- MOVSP. -/
def execMovsp (g : Guard) (f : SM) (s : State) : Host.Outcome State Fault Refusal :=
  .next (issueSyl (.movsp g f) (opMovsp f) s)
/-- MOVTS. -/
def execMovts (g : Guard) (f : SM) (s : State) : Host.Outcome State Fault Refusal :=
  .next (issueSyl (.movts g f) (opMovts f) s)
/-- QCFG_WRITE. -/
def execQcfgWrite (g : Guard) (f : SM) (s : State) : Host.Outcome State Fault Refusal :=
  .next (issueSyl (.qcfgWrite g f) (opQcfgWrite f) s)
/-- FECLR_WRITE. -/
def execFeclrWrite (g : Guard) (f : SM) (s : State) : Host.Outcome State Fault Refusal :=
  .next (issueSyl (.feclrWrite g f) (opFeclrWrite f) s)
/-- SRSEED_WRITE. -/
def execSrseedWrite (g : Guard) (f : SM) (s : State) : Host.Outcome State Fault Refusal :=
  .next (issueSyl (.srseedWrite g f) (opSrseedWrite f) s)

end Sys2Proof.Machine
end

