-- ==== Sys2Proof/Machine/Dispatch.lean ====
section
/-! DEFINITION. Machine/Dispatch.lean: one arm per constructor of Instr. -/

namespace Sys2Proof.Machine

def exec (i : Instr) (s : State) : Host.Outcome State Fault Refusal :=
  match i with
  | .add g f => Sys2Proof.Machine.execAdd g f s
  | .addi g f => Sys2Proof.Machine.execAddi g f s
  | .sub g f => Sys2Proof.Machine.execSub g f s
  | .mul g f => Sys2Proof.Machine.execMul g f s
  | .mulh g f => Sys2Proof.Machine.execMulh g f s
  | .mulhu g f => Sys2Proof.Machine.execMulhu g f s
  | .div g f => Sys2Proof.Machine.execDiv g f s
  | .divu g f => Sys2Proof.Machine.execDivu g f s
  | .rem g f => Sys2Proof.Machine.execRem g f s
  | .remu g f => Sys2Proof.Machine.execRemu g f s
  | .and g f => Sys2Proof.Machine.execAnd g f s
  | .or g f => Sys2Proof.Machine.execOr g f s
  | .xor g f => Sys2Proof.Machine.execXor g f s
  | .andn g f => Sys2Proof.Machine.execAndn g f s
  | .shlReg g f => Sys2Proof.Machine.execShlReg g f s
  | .shlImm g f => Sys2Proof.Machine.execShlImm g f s
  | .shrReg g f => Sys2Proof.Machine.execShrReg g f s
  | .shrImm g f => Sys2Proof.Machine.execShrImm g f s
  | .sraReg g f => Sys2Proof.Machine.execSraReg g f s
  | .sraImm g f => Sys2Proof.Machine.execSraImm g f s
  | .rotReg g f => Sys2Proof.Machine.execRotReg g f s
  | .rotImm g f => Sys2Proof.Machine.execRotImm g f s
  | .clz g f => Sys2Proof.Machine.execClz g f s
  | .ctz g f => Sys2Proof.Machine.execCtz g f s
  | .popc g f => Sys2Proof.Machine.execPopc g f s
  | .bext g f => Sys2Proof.Machine.execBext g f s
  | .bdep g f => Sys2Proof.Machine.execBdep g f s
  | .sext g f => Sys2Proof.Machine.execSext g f s
  | .zext g f => Sys2Proof.Machine.execZext g f s
  | .min g f => Sys2Proof.Machine.execMin g f s
  | .max g f => Sys2Proof.Machine.execMax g f s
  | .minu g f => Sys2Proof.Machine.execMinu g f s
  | .maxu g f => Sys2Proof.Machine.execMaxu g f s
  | .sel g f => Sys2Proof.Machine.execSel g f s
  | .li g f => Sys2Proof.Machine.execLi g f s
  | .lih g f => Sys2Proof.Machine.execLih g f s
  | .cmpReg g f => Sys2Proof.Machine.execCmpReg g f s
  | .cmpImm g f => Sys2Proof.Machine.execCmpImm g f s
  | .tstbReg g f => Sys2Proof.Machine.execTstbReg g f s
  | .tstbImm g f => Sys2Proof.Machine.execTstbImm g f s
  | .pand g f => Sys2Proof.Machine.execPand g f s
  | .por g f => Sys2Proof.Machine.execPor g f s
  | .pxor g f => Sys2Proof.Machine.execPxor g f s
  | .pnot g f => Sys2Proof.Machine.execPnot g f s
  | .pmov g f => Sys2Proof.Machine.execPmov g f s
  | .sfadd g f => Sys2Proof.Machine.execSfadd g f s
  | .sfmul g f => Sys2Proof.Machine.execSfmul g f s
  | .sfma g f => Sys2Proof.Machine.execSfma g f s
  | .sfcmp g f => Sys2Proof.Machine.execSfcmp g f s
  | .sfcvt g f => Sys2Proof.Machine.execSfcvt g f s
  | .cderive g f => Sys2Proof.Machine.execCderive g f s
  | .csetb g f => Sys2Proof.Machine.execCsetb g f s
  | .crights g f => Sys2Proof.Machine.execCrights g f s
  | .cget g f => Sys2Proof.Machine.execCget g f s
  | .ctest g f => Sys2Proof.Machine.execCtest g f s
  | .movsp g f => Sys2Proof.Machine.execMovsp g f s
  | .movts g f => Sys2Proof.Machine.execMovts g f s
  | .qcfgWrite g f => Sys2Proof.Machine.execQcfgWrite g f s
  | .syncpartWrite g f => Sys2Proof.Machine.execSyncpartWrite g f s
  | .feclrWrite g f => Sys2Proof.Machine.execFeclrWrite g f s
  | .srseedWrite g f => Sys2Proof.Machine.execSrseedWrite g f s
  | .vadd g b f => Sys2Proof.Machine.execVadd g b f s
  | .vsub g b f => Sys2Proof.Machine.execVsub g b f s
  | .vmul g b f => Sys2Proof.Machine.execVmul g b f s
  | .vfma g b f => Sys2Proof.Machine.execVfma g b f s
  | .vfms g b f => Sys2Proof.Machine.execVfms g b f s
  | .vfnma g b f => Sys2Proof.Machine.execVfnma g b f s
  | .vmin g b f => Sys2Proof.Machine.execVmin g b f s
  | .vmax g b f => Sys2Proof.Machine.execVmax g b f s
  | .vabs g b f => Sys2Proof.Machine.execVabs g b f s
  | .vneg g b f => Sys2Proof.Machine.execVneg g b f s
  | .vcmp g b f => Sys2Proof.Machine.execVcmp g b f s
  | .vand g b f => Sys2Proof.Machine.execVand g b f s
  | .vor g b f => Sys2Proof.Machine.execVor g b f s
  | .vxor g b f => Sys2Proof.Machine.execVxor g b f s
  | .vshl g b f => Sys2Proof.Machine.execVshl g b f s
  | .vshr g b f => Sys2Proof.Machine.execVshr g b f s
  | .vsra g b f => Sys2Proof.Machine.execVsra g b f s
  | .vcvt g b f => Sys2Proof.Machine.execVcvt g b f s
  | .vrnd g b f => Sys2Proof.Machine.execVrnd g b f s
  | .vrcp g f => Sys2Proof.Machine.execVrcp g f s
  | .vrsq g f => Sys2Proof.Machine.execVrsq g f s
  | .vexp2 g f => Sys2Proof.Machine.execVexp2 g f s
  | .vlog2 g f => Sys2Proof.Machine.execVlog2 g f s
  | .vsum g b f => Sys2Proof.Machine.execVsum g b f s
  | .vmaxr g b f => Sys2Proof.Machine.execVmaxr g b f s
  | .vdot g b f => Sys2Proof.Machine.execVdot g b f s
  | .vcmul g b f => Sys2Proof.Machine.execVcmul g b f s
  | .vcma g b f => Sys2Proof.Machine.execVcma g b f s
  | .vconj g b f => Sys2Proof.Machine.execVconj g b f s
  | .vperm g f => Sys2Proof.Machine.execVperm g f s
  | .vshuf g f => Sys2Proof.Machine.execVshuf g f s
  | .vbcast g b f => Sys2Proof.Machine.execVbcast g b f s
  | .vsel g b f => Sys2Proof.Machine.execVsel g b f s
  | .vmov g b f => Sys2Proof.Machine.execVmov g b f s
  | .vpack g f => Sys2Proof.Machine.execVpack g f s
  | .vunpk g f => Sys2Proof.Machine.execVunpk g f s
  | .vscl g b f => Sys2Proof.Machine.execVscl g b f s
  | .vimad g b f => Sys2Proof.Machine.execVimad g b f s
  | .vsat g b f => Sys2Proof.Machine.execVsat g b f s
  | .vmset g b f => Sys2Proof.Machine.execVmset g b f s
  | .vmand g b f => Sys2Proof.Machine.execVmand g b f s
  | .vmor g b f => Sys2Proof.Machine.execVmor g b f s
  | .vmnot g b f => Sys2Proof.Machine.execVmnot g b f s
  | .vmcnt g b f => Sys2Proof.Machine.execVmcnt g b f s
  | .vmfirst g b f => Sys2Proof.Machine.execVmfirst g b f s
  | .qadv g b f => Sys2Proof.Machine.execQadv g b f s
  | .mma g f => Sys2Proof.Machine.execMma g f s
  | .mmaz g f => Sys2Proof.Machine.execMmaz g f s
  | .mmas g f => Sys2Proof.Machine.execMmas g f s
  | .mwld g f => Sys2Proof.Machine.execMwld g f s
  | .mwpf g f => Sys2Proof.Machine.execMwpf g f s
  | .mnest g f => Sys2Proof.Machine.execMnest g f s
  | .mzero g f => Sys2Proof.Machine.execMzero g f s
  | .macc g f => Sys2Proof.Machine.execMacc g f s
  | .mtrn g f => Sys2Proof.Machine.execMtrn g f s
  | .mred g f => Sys2Proof.Machine.execMred g f s
  | .mcvt g f => Sys2Proof.Machine.execMcvt g f s
  | .mwait g f => Sys2Proof.Machine.execMwait g f s
  | .mcfg g f => Sys2Proof.Machine.execMcfg g f s
  | .lds g f => Sys2Proof.Machine.execLds g f s
  | .ldv g f => Sys2Proof.Machine.execLdv g f s
  | .ldb g f => Sys2Proof.Machine.execLdb g f s
  | .ldx g f => Sys2Proof.Machine.execLdx g f s
  | .ldf g f => Sys2Proof.Machine.execLdf g f s
  | .pref g f => Sys2Proof.Machine.execPref g f s
  | .sparm g f => Sys2Proof.Machine.execSparm g f s
  | .spstop g f => Sys2Proof.Machine.execSpstop g f s
  | .rngwait g f => Sys2Proof.Machine.execRngwait g f s
  | .rngwaitProd g f => Sys2Proof.Machine.execRngwaitProd g f s
  | .rngadv g f => Sys2Proof.Machine.execRngadv g f s
  | .rngpub g f => Sys2Proof.Machine.execRngpub g f s
  | .fscq g f => Sys2Proof.Machine.execFscq g f s
  | .fscqReg g f => Sys2Proof.Machine.execFscqReg g f s
  | .fscqWait g f => Sys2Proof.Machine.execFscqWait g f s
  | .ldr g f => Sys2Proof.Machine.execLdr g f s
  | .ldrw g f => Sys2Proof.Machine.execLdrw g f s
  | .sts g f => Sys2Proof.Machine.execSts g f s
  | .stv g f => Sys2Proof.Machine.execStv g f s
  | .stb g f => Sys2Proof.Machine.execStb g f s
  | .stx g f => Sys2Proof.Machine.execStx g f s
  | .str g f => Sys2Proof.Machine.execStr g f s
  | .atom g f => Sys2Proof.Machine.execAtom g f s
  | .atomr g f => Sys2Proof.Machine.execAtomr g f s
  | .fence g f => Sys2Proof.Machine.execFence g f s
  | .fencef g f => Sys2Proof.Machine.execFencef g f s
  | .arrexp g f => Sys2Proof.Machine.execArrexp g f s
  | .arrive g f => Sys2Proof.Machine.execArrive g f s
  | .arriveWait g f => Sys2Proof.Machine.execArriveWait g f s
  | .cpy g f => Sys2Proof.Machine.execCpy g f s
  | .cpyrGet g f => Sys2Proof.Machine.execCpyrGet g f s
  | .cpyrPut g f => Sys2Proof.Machine.execCpyrPut g f s
  | .subsLd g f => Sys2Proof.Machine.execSubsLd g f s
  | .subsSt g f => Sys2Proof.Machine.execSubsSt g f s
  | .unsub g f => Sys2Proof.Machine.execUnsub g f s
  | .drain g f => Sys2Proof.Machine.execDrain g f s
  | .sfe g f => Sys2Proof.Machine.execSfe g f s
  | .gqpush g f => Sys2Proof.Machine.execGqpush g f s
  | .coll g f => Sys2Proof.Machine.execColl g f s
  | .send g f => Sys2Proof.Machine.execSend g f s
  | .ckmark g f => Sys2Proof.Machine.execCkmark g f s
  | .call g f => Sys2Proof.Machine.execCall g f s
  | .ret g f => Sys2Proof.Machine.execRet g f s
  | .jmpi g f => Sys2Proof.Machine.execJmpi g f s
  | .loopReg g f => Sys2Proof.Machine.execLoopReg g f s
  | .loopImm g f => Sys2Proof.Machine.execLoopImm g f s
  | .brt shape t0 t1 t2 t3 d1 d2 d3 d4 => Sys2Proof.Machine.execBrt shape t0 t1 t2 t3 d1 d2 d3 d4 s
  | .hint slot n imm => Sys2Proof.Machine.execHint slot n imm s
  | .sync mask => Sys2Proof.Machine.execSync mask s
  | .waitsImm g f => Sys2Proof.Machine.execWaitsImm g f s
  | .waitsReg g f => Sys2Proof.Machine.execWaitsReg g f s
  | .tspawn g f => Sys2Proof.Machine.execTspawn g f s
  | .tjoin g f => Sys2Proof.Machine.execTjoin g f s
  | .tsealImm g f => Sys2Proof.Machine.execTsealImm g f s
  | .tsealReg g f => Sys2Proof.Machine.execTsealReg g f s
  | .tsignal g f => Sys2Proof.Machine.execTsignal g f s
  | .texit g f => Sys2Proof.Machine.execTexit g f s
  | .tcancelImm g f => Sys2Proof.Machine.execTcancelImm g f s
  | .tcancelReg g f => Sys2Proof.Machine.execTcancelReg g f s
  | .tprioImm g f => Sys2Proof.Machine.execTprioImm g f s
  | .tprioReg g f => Sys2Proof.Machine.execTprioReg g f s
  | .tlvrecImm g f => Sys2Proof.Machine.execTlvrecImm g f s
  | .tlvrecReg g f => Sys2Proof.Machine.execTlvrecReg g f s
  | .wfork g f => Sys2Proof.Machine.execWfork g f s
  | .wchooseImm g f => Sys2Proof.Machine.execWchooseImm g f s
  | .wchooseReg g f => Sys2Proof.Machine.execWchooseReg g f s
  | .wdone g f => Sys2Proof.Machine.execWdone g f s
  | .wdiscard g f => Sys2Proof.Machine.execWdiscard g f s
  | .wtagOwn g f => Sys2Proof.Machine.execWtagOwn g f s
  | .wtagQuery g f => Sys2Proof.Machine.execWtagQuery g f s
  | .ertq g f => Sys2Proof.Machine.execErtq g f s
  | .trap g f => Sys2Proof.Machine.execTrap g f s
  | .bkpt g f => Sys2Proof.Machine.execBkpt g f s
  | .eret g f => Sys2Proof.Machine.execEret g f s
  | .halt g f => Sys2Proof.Machine.execHalt g f s
  | .ctxsave g f => Sys2Proof.Machine.execCtxsave g f s
  | .restore g f => Sys2Proof.Machine.execRestore g f s
  | .otinv g f => Sys2Proof.Machine.execOtinv g f s
  | .gqpop rd rs1 => Sys2Proof.Machine.execGqpop rd rs1 s
  | .rrput rd rs1 rs2 => Sys2Proof.Machine.execRrput rd rs1 rs2 s
  | .ertget rd rs1 rs2 => Sys2Proof.Machine.execErtget rd rs1 rs2 s
  | .ertset rd rs1 rs2 => Sys2Proof.Machine.execErtset rd rs1 rs2 s
  | .park rd rs1 rs2 => Sys2Proof.Machine.execPark rd rs1 rs2 s
  | .unpark rd rs1 => Sys2Proof.Machine.execUnpark rd rs1 s
  | .fwdrow rd rs1 rs2 => Sys2Proof.Machine.execFwdrow rd rs1 rs2 s
  | .dtile rd rs1 => Sys2Proof.Machine.execDtile rd rs1 s
  | .emptyBundle mark yield join => Sys2Proof.Machine.execEmptyBundle mark yield join s
  | .shadowWriteLand core ctx => Sys2Proof.Machine.execShadowWriteLand core ctx s
  | .stretchEndChoice core => Sys2Proof.Machine.execStretchEndChoice core s
  | .issuePreemption core => Sys2Proof.Machine.execIssuePreemption core s
  | .preemptHoldTimeout core => Sys2Proof.Machine.execPreemptHoldTimeout core s
  | .demandExchangeDone core => Sys2Proof.Machine.execDemandExchangeDone core s
  | .syncRelease die line seg => Sys2Proof.Machine.execSyncRelease die line seg s
  | .syncWatchdog core => Sys2Proof.Machine.execSyncWatchdog core s
  | .dispatch die => Sys2Proof.Machine.execDispatch die s
  | .taskBind die => Sys2Proof.Machine.execTaskBind die s
  | .slotPreemptChoose die => Sys2Proof.Machine.execSlotPreemptChoose die s
  | .slotPreemptSaveDone core ctx => Sys2Proof.Machine.execSlotPreemptSaveDone core ctx s
  | .guestEndRestore core ctx => Sys2Proof.Machine.execGuestEndRestore core ctx s
  | .taskEndComplete core ctx => Sys2Proof.Machine.execTaskEndComplete core ctx s
  | .continuationReady die rec => Sys2Proof.Machine.execContinuationReady die rec s
  | .completionRecordReady level => Sys2Proof.Machine.execCompletionRecordReady level s
  | .mxOpEnd core => Sys2Proof.Machine.execMxOpEnd core s
  | .weightLoadComplete core => Sys2Proof.Machine.execWeightLoadComplete core s
  | .engineGuardResolved core ctx eng => Sys2Proof.Machine.execEngineGuardResolved core ctx eng s
  | .guardNeverWritten core ctx eng => Sys2Proof.Machine.execGuardNeverWritten core ctx eng s
  | .engineBeat core ctx eng => Sys2Proof.Machine.execEngineBeat core ctx eng s
  | .engineCommandComplete core ctx eng => Sys2Proof.Machine.execEngineCommandComplete core ctx eng s
  | .loaderSlotPublish core ctx sub => Sys2Proof.Machine.execLoaderSlotPublish core ctx sub s
  | .storerSlotWritten core ctx sub => Sys2Proof.Machine.execStorerSlotWritten core ctx sub s
  | .streamFetch core ctx port => Sys2Proof.Machine.execStreamFetch core ctx port s
  | .storePerformed core => Sys2Proof.Machine.execStorePerformed core s
  | .atomicPerformed core => Sys2Proof.Machine.execAtomicPerformed core s
  | .farAccessArrival die => Sys2Proof.Machine.execFarAccessArrival die s
  | .heatSweep die => Sys2Proof.Machine.execHeatSweep die s
  | .heldRequestServed stack => Sys2Proof.Machine.execHeldRequestServed stack s
  | .contextFreeze core ctx => Sys2Proof.Machine.execContextFreeze core ctx s
  | .contextUnfreeze core ctx => Sys2Proof.Machine.execContextUnfreeze core ctx s
  | .occupancyFlush core => Sys2Proof.Machine.execOccupancyFlush core s
  | .ctxsaveImagePerformed core ctx => Sys2Proof.Machine.execCtxsaveImagePerformed core ctx s
  | .asyncTrapTaken core => Sys2Proof.Machine.execAsyncTrapTaken core s
  | .swapComplete group => Sys2Proof.Machine.execSwapComplete group s
  | .lateDataArrival core ctx tag => Sys2Proof.Machine.execLateDataArrival core ctx tag s
  | .tagTimeout die tag => Sys2Proof.Machine.execTagTimeout die tag s
  | .shuttleException die cause tval => Sys2Proof.Machine.execShuttleException die cause tval s
  | .wfiWake die => Sys2Proof.Machine.execWfiWake die s
  | .bobbinBackingWrite core => Sys2Proof.Machine.execBobbinBackingWrite core s
  | .dormantCountReport core => Sys2Proof.Machine.execDormantCountReport core s
  | .signalArrival die counter => Sys2Proof.Machine.execSignalArrival die counter s
  | .messageArrival die => Sys2Proof.Machine.execMessageArrival die s
  | .messageCreateRetry die => Sys2Proof.Machine.execMessageCreateRetry die s
  | .eventCounterSource die src amount => Sys2Proof.Machine.execEventCounterSource die src amount s
  | .objectEntryFetched core obj => Sys2Proof.Machine.execObjectEntryFetched core obj s
  | .extentFillComplete => Sys2Proof.Machine.execExtentFillComplete s
  | .neighbourRefresh stack => Sys2Proof.Machine.execNeighbourRefresh stack s
  | .thermalHoldStart stack temp => Sys2Proof.Machine.execThermalHoldStart stack temp s
  | .thermalHoldEnd stack temp => Sys2Proof.Machine.execThermalHoldEnd stack temp s
  | .holdLimitExceeded core ctx => Sys2Proof.Machine.execHoldLimitExceeded core ctx s
  | .memoryEccError gran kind => Sys2Proof.Machine.execMemoryEccError gran kind s
  | .errorLogPoll die => Sys2Proof.Machine.execErrorLogPoll die s
  | .hostCxlAccess kind addr len data => Sys2Proof.Machine.execHostCxlAccess kind addr len data s
  | .regionDemandSwap core region => Sys2Proof.Machine.execRegionDemandSwap core region s
  | .backgroundSpill core => Sys2Proof.Machine.execBackgroundSpill core s
  | .effectRelease => Sys2Proof.Machine.execEffectRelease s
  | .worldFreed tag => Sys2Proof.Machine.execWorldFreed tag s
  | .collectiveComplete core ctx sources => Sys2Proof.Machine.execCollectiveComplete core ctx sources s
  | .expertFillComplete => Sys2Proof.Machine.execExpertFillComplete s
  | .tierReadFailure => Sys2Proof.Machine.execTierReadFailure s
  | .forwardedRowArrival die => Sys2Proof.Machine.execForwardedRowArrival die s
  | .rotationStart away => Sys2Proof.Machine.execRotationStart away s
  | .slotBoundary => Sys2Proof.Machine.execSlotBoundary s
  | .flitTransmit die port pair => Sys2Proof.Machine.execFlitTransmit die port pair s
  | .flitReceive die pos f good => Sys2Proof.Machine.execFlitReceive die pos f good s
  | .remoteRequestRelease die => Sys2Proof.Machine.execRemoteRequestRelease die s
  | .remoteReplyArrival die => Sys2Proof.Machine.execRemoteReplyArrival die s
  | .slotReturnTimer die peer => Sys2Proof.Machine.execSlotReturnTimer die peer s
  | .resendWaitExpiry die => Sys2Proof.Machine.execResendWaitExpiry die s
  | .positionAbandon die => Sys2Proof.Machine.execPositionAbandon die s
  | .replayStoreExpiry die => Sys2Proof.Machine.execReplayStoreExpiry die s
  | .slotAudit die peer => Sys2Proof.Machine.execSlotAudit die peer s
  | .incarnationRelease die tag => Sys2Proof.Machine.execIncarnationRelease die tag s
  | .mpdRefresh die levels lines => Sys2Proof.Machine.execMpdRefresh die levels lines s
  | .heaterEffect die ring => Sys2Proof.Machine.execHeaterEffect die ring s
  | .spareLineLocked source spare => Sys2Proof.Machine.execSpareLineLocked source spare s
  | .opticsRecoveryTimeout die ring => Sys2Proof.Machine.execOpticsRecoveryTimeout die ring s
  | .patternRepairStart rotation pattern => Sys2Proof.Machine.execPatternRepairStart rotation pattern s
  | .machineCheck source unit info => Sys2Proof.Machine.execMachineCheck source unit info s
  | .checkpointFreeze => Sys2Proof.Machine.execCheckpointFreeze s
  | .checkpointBlockStream => Sys2Proof.Machine.execCheckpointBlockStream s
  | .checkpointComplete => Sys2Proof.Machine.execCheckpointComplete s
  | .powerOn => Sys2Proof.Machine.execPowerOn s
  | .powerOff => Sys2Proof.Machine.execPowerOff s
  | .bootstatGo => Sys2Proof.Machine.execBootstatGo s
  | .imageVerified => Sys2Proof.Machine.execImageVerified s
  | .bringupDone shortfall => Sys2Proof.Machine.execBringupDone shortfall s
  | .mboxJob arg0 arg1 => Sys2Proof.Machine.execMboxJob arg0 arg1 s
  | .mboxSwap arg1 => Sys2Proof.Machine.execMboxSwap arg1 s
  | .mboxResume arg0 => Sys2Proof.Machine.execMboxResume arg0 s
  | .mboxResumeStep arg0 => Sys2Proof.Machine.execMboxResumeStep arg0 s
  | .mboxRestore arg0 arg1 => Sys2Proof.Machine.execMboxRestore arg0 arg1 s
  | .mboxMaint => Sys2Proof.Machine.execMboxMaint s
  | .mboxPart arg0 => Sys2Proof.Machine.execMboxPart arg0 s
  | .mboxCklog arg0 arg1 => Sys2Proof.Machine.execMboxCklog arg0 arg1 s
  | .mboxKey arg0 => Sys2Proof.Machine.execMboxKey arg0 s
  | .mboxUnknownCode code => Sys2Proof.Machine.execMboxUnknownCode code s
  | .jobCompleteReport job => Sys2Proof.Machine.execJobCompleteReport job s
  | .acceptWrite k val => Sys2Proof.Machine.execAcceptWrite k val s
  | .htrWrite die n val => Sys2Proof.Machine.execHtrWrite die n val s
  | .ringmapWrite die n val => Sys2Proof.Machine.execRingmapWrite die n val s
  | .splockWrite die n val => Sys2Proof.Machine.execSplockWrite die n val s
  | .patctlWrite die val => Sys2Proof.Machine.execPatctlWrite die val s
  | .vcsecWrite val => Sys2Proof.Machine.execVcsecWrite val s
  | .evcntWrite die n val => Sys2Proof.Machine.execEvcntWrite die n val s
  | .syncspanWrite die val => Sys2Proof.Machine.execSyncspanWrite die val s
  | .nrfcfgWrite die val => Sys2Proof.Machine.execNrfcfgWrite die val s
  | .nrfseedWrite die val => Sys2Proof.Machine.execNrfseedWrite die val s
  | .fpcntWrite die val => Sys2Proof.Machine.execFpcntWrite die val s
  | .ecccntRead die st => Sys2Proof.Machine.execEcccntRead die st s
  | .uelogRead die st => Sys2Proof.Machine.execUelogRead die st s
  | .faberrRead die => Sys2Proof.Machine.execFaberrRead die s
  | .sclogcRead die => Sys2Proof.Machine.execSclogcRead die s
  | .sclog0Read die => Sys2Proof.Machine.execSclog0Read die s
  | .registerWrite die off val => Sys2Proof.Machine.execRegisterWrite die off val s
  | .illegalOpcode cause slot info => Sys2Proof.Machine.execIllegalOpcode cause slot info s
  | .pldmRequest kind => Sys2Proof.Machine.execPldmRequest kind s
  | .strobeMissing die => Sys2Proof.Machine.execStrobeMissing die s
  | .shuttleCauseLogReport die => Sys2Proof.Machine.execShuttleCauseLogReport die s

end Sys2Proof.Machine
end

