-- ==== Sys2Proof/Machine/Micro.lean ====
section
/-! DEFINITION. Machine/Micro.lean: the meaning of a syllable within a group of several (05 R85, R86). -/

namespace Sys2Proof.Machine

/-- What a syllable does in its group; the table's other rows are no syllables and stand in no group. -/
def microOf (i : Instr) : Op :=
  match i with
  | .add _ f => opAdd f
  | .addi _ f => opAddi f
  | .sub _ f => opSub f
  | .mul _ f => opMul f
  | .mulh _ f => opMulh f
  | .mulhu _ f => opMulhu f
  | .div _ f => opDiv f
  | .divu _ f => opDivu f
  | .rem _ f => opRem f
  | .remu _ f => opRemu f
  | .and _ f => opAnd f
  | .or _ f => opOr f
  | .xor _ f => opXor f
  | .andn _ f => opAndn f
  | .shlReg _ f => opShlReg f
  | .shlImm _ f => opShlImm f
  | .shrReg _ f => opShrReg f
  | .shrImm _ f => opShrImm f
  | .sraReg _ f => opSraReg f
  | .sraImm _ f => opSraImm f
  | .rotReg _ f => opRotReg f
  | .rotImm _ f => opRotImm f
  | .clz _ f => opClz f
  | .ctz _ f => opCtz f
  | .popc _ f => opPopc f
  | .bext _ f => opBext f
  | .bdep _ f => opBdep f
  | .sext _ f => opSext f
  | .zext _ f => opZext f
  | .min _ f => opMin f
  | .max _ f => opMax f
  | .minu _ f => opMinu f
  | .maxu _ f => opMaxu f
  | .sel _ f => opSel f
  | .li _ f => opLi f
  | .lih _ f => opLih f
  | .cmpReg _ f => opCmpReg f
  | .cmpImm _ f => opCmpImm f
  | .tstbReg _ f => opTstbReg f
  | .tstbImm _ f => opTstbImm f
  | .pand _ f => opPand f
  | .por _ f => opPor f
  | .pxor _ f => opPxor f
  | .pnot _ f => opPnot f
  | .pmov _ f => opPmov f
  | .sfadd _ f => opSfadd f
  | .sfmul _ f => opSfmul f
  | .sfma _ f => opSfma f
  | .sfcmp _ f => opSfcmp f
  | .sfcvt _ f => opSfcvt f
  | .cderive _ f => opCderive f
  | .csetb _ f => opCsetb f
  | .crights _ f => opCrights f
  | .cget _ f => opCget f
  | .ctest _ f => opCtest f
  | .movsp _ f => opMovsp f
  | .movts _ f => opMovts f
  | .qcfgWrite _ f => opQcfgWrite f
  | .syncpartWrite _ f => opSyncpartWrite f
  | .feclrWrite _ f => opFeclrWrite f
  | .srseedWrite _ f => opSrseedWrite f
  | .vadd _ _ f => opVadd f
  | .vsub _ _ f => opVsub f
  | .vmul _ _ f => opVmul f
  | .vfma _ _ f => opVfma f
  | .vfms _ _ f => opVfms f
  | .vfnma _ _ f => opVfnma f
  | .vmin _ _ f => opVmin f
  | .vmax _ _ f => opVmax f
  | .vabs _ _ f => opVabs f
  | .vneg _ _ f => opVneg f
  | .vcmp _ _ f => opVcmp f
  | .vand _ _ f => opVand f
  | .vor _ _ f => opVor f
  | .vxor _ _ f => opVxor f
  | .vshl _ _ f => opVshl f
  | .vshr _ _ f => opVshr f
  | .vsra _ _ f => opVsra f
  | .vcvt _ _ f => opVcvt f
  | .vrnd _ _ f => opVrnd f
  | .vrcp _ f => opVrcp f
  | .vrsq _ f => opVrsq f
  | .vexp2 _ f => opVexp2 f
  | .vlog2 _ f => opVlog2 f
  | .vsum _ _ f => opVsum f
  | .vmaxr _ _ f => opVmaxr f
  | .vdot _ _ f => opVdot f
  | .vcmul _ _ f => opVcmul f
  | .vcma _ _ f => opVcma f
  | .vconj _ _ f => opVconj f
  | .vperm _ f => opVperm f
  | .vshuf _ f => opVshuf f
  | .vbcast _ _ f => opVbcast f
  | .vsel _ _ f => opVsel f
  | .vmov _ _ f => opVmov f
  | .vpack _ f => opVpack f
  | .vunpk _ f => opVunpk f
  | .vscl _ _ f => opVscl f
  | .vimad _ _ f => opVimad f
  | .vsat _ _ f => opVsat f
  | .vmset _ _ f => opVmset f
  | .vmand _ _ f => opVmand f
  | .vmor _ _ f => opVmor f
  | .vmnot _ _ f => opVmnot f
  | .vmcnt _ _ f => opVmcnt f
  | .vmfirst _ _ f => opVmfirst f
  | .qadv _ _ f => opQadv f
  | .mma _ f => opMma f
  | .mmaz _ f => opMmaz f
  | .mmas _ f => opMmas f
  | .mwld _ f => opMwld f
  | .mwpf _ f => opMwpf f
  | .mnest _ f => opMnest f
  | .mzero _ f => opMzero f
  | .macc _ f => opMacc f
  | .mtrn _ f => opMtrn f
  | .mred _ f => opMred f
  | .mcvt _ f => opMcvt f
  | .mwait _ f => opMwait f
  | .mcfg _ f => opMcfg f
  | .lds _ f => opLds f
  | .ldv _ f => opLdv f
  | .ldb _ f => opLdb f
  | .ldx _ f => opLdx f
  | .ldf _ f => opLdf f
  | .pref _ f => opPref f
  | .sparm _ f => opSparm f
  | .spstop _ f => opSpstop f
  | .rngwait _ f => opRngwait f
  | .rngwaitProd _ f => opRngwaitProd f
  | .rngadv _ f => opRngadv f
  | .rngpub _ f => opRngpub f
  | .fscq _ f => opFscq f
  | .fscqReg _ f => opFscqReg f
  | .fscqWait _ f => opFscqWait f
  | .ldr _ f => opLdr f
  | .ldrw _ f => opLdrw f
  | .sts _ f => opSts f
  | .stv _ f => opStv f
  | .stb _ f => opStb f
  | .stx _ f => opStx f
  | .str _ f => opStr f
  | .atom _ f => opAtom f
  | .atomr _ f => opAtomr f
  | .fence _ f => opFence f
  | .fencef _ f => opFencef f
  | .arrexp _ f => opArrexp f
  | .arrive _ f => opArrive f
  | .arriveWait _ f => opArriveWait f
  | .cpy _ f => opCpy f
  | .cpyrGet _ f => opCpyrGet f
  | .cpyrPut _ f => opCpyrPut f
  | .subsLd _ f => opSubsLd f
  | .subsSt _ f => opSubsSt f
  | .unsub _ f => opUnsub f
  | .drain _ f => opDrain f
  | .sfe _ f => opSfe f
  | .gqpush _ f => opGqpush f
  | .coll _ f => opColl f
  | .send _ f => opSend f
  | .ckmark _ f => opCkmark f
  | .call _ f => opCall f
  | .ret _ f => opRet f
  | .jmpi _ f => opJmpi f
  | .loopReg _ f => opLoopReg f
  | .loopImm _ f => opLoopImm f
  | .brt shape t0 t1 t2 t3 d1 d2 d3 d4 => opBrt shape t0 t1 t2 t3 d1 d2 d3 d4
  | .hint slot n imm => opHint slot n imm
  | .sync mask => opSync mask
  | .waitsImm _ f => opWaitsImm f
  | .waitsReg _ f => opWaitsReg f
  | .tspawn _ f => opTspawn f
  | .tjoin _ f => opTjoin f
  | .tsealImm _ f => opTsealImm f
  | .tsealReg _ f => opTsealReg f
  | .tsignal _ f => opTsignal f
  | .texit _ f => opTexit f
  | .tcancelImm _ f => opTcancelImm f
  | .tcancelReg _ f => opTcancelReg f
  | .tprioImm _ f => opTprioImm f
  | .tprioReg _ f => opTprioReg f
  | .tlvrecImm _ f => opTlvrecImm f
  | .tlvrecReg _ f => opTlvrecReg f
  | .wfork _ f => opWfork f
  | .wchooseImm _ f => opWchooseImm f
  | .wchooseReg _ f => opWchooseReg f
  | .wdone _ f => opWdone f
  | .wdiscard _ f => opWdiscard f
  | .wtagOwn _ f => opWtagOwn f
  | .wtagQuery _ f => opWtagQuery f
  | .ertq _ f => opErtq f
  | .trap _ f => opTrap f
  | .bkpt _ f => opBkpt f
  | .eret _ f => opEret f
  | .halt _ f => opHalt f
  | .ctxsave _ f => opCtxsave f
  | .restore _ f => opRestore f
  | .otinv _ f => opOtinv f
  | _ => fun j => .ok j

end Sys2Proof.Machine
end

