-- ==== Sys2Proof/Machine/Turn.lean ====
section
/-! DEFINITION. Machine/Turn.lean: the turns of a cycle (00 R4, log 4): what is performed and lands as it begins, the issue logic of each
core, the Shuttles, the units of each die and of the I/O die. -/

namespace Sys2Proof.Machine

/-! ## The cores and contexts that have anything to do -/

/-- Insert a number into a rising list. -/
def insertRising (n : Nat) (l : List Nat) : List Nat :=
  match l with
  | [] => [n]
  | a :: rest => if n < a then n :: a :: rest else if n = a then a :: rest else a :: insertRising n rest
/-- Cores whose state or contexts are listed, in order. -/
def activeCores (s : State) : List Nat :=
  let ks : List Nat := s.cores.map (fun p => p.1)
  let xs : List Nat := s.ctxs.map (fun p => p.1 / 8)
  (ks ++ xs).foldl (fun l k => insertRising k l) []
/-- Contexts of a core that are listed. -/
def activeCtxs (s : State) (k : Nat) : List Nat := (List.range 8).filter (fun x => s.ctxs.any (fun p => p.1 == 8 * k + x))

/-! ## Issue -/

/-- The group of the decoder as the issue logic takes it (05 R85). -/
def groupInfo (pc : Nat) (g : Group) : GInfo :=
  { addr := pc, last := (pc + g.lastOff) % 281474976710656, sy := (pc + g.syOff) % 281474976710656, fall := (pc + g.len) % 281474976710656,
    mark := g.mark, yield := g.yield, join := g.join, order := g.order }
/-- A world instruction whose feature is off is an illegal opcode, whatever else is wrong with it (18 R352). -/
def decodeCause (s : State) (cause : Nat) (slot : Option Nat) (info : Nat) : Nat :=
  if cause = 0x02 && slot = some 7 && !feature s s.core s.cx 3 && 0x20 ≤ info / 281474976710656 && info / 281474976710656 ≤ 0x26 then 0x01 else cause
/-- The bytes fetched for a group: at most eight bundles of 64 bytes; a group of an armed body that has been fetched before comes from the loop
buffer (03 R53, log 84). -/
def fetchBytes (s : State) : List Byte :=
  let c := actCtx s
  match if c.regs.armed.isEmpty then none else c.regs.loopBuf.find? (fun b => b.1 == c.pc) with
  | some b => b.2
  | none => getBytes s.mem c.pc 512
/-- The loop buffer takes a group of n bytes while a level is armed, and is empty when none is. -/
def keepBundles (s : State) (n : Nat) : State :=
  let c := actCtx s
  if c.regs.armed.isEmpty then (if c.regs.loopBuf.isEmpty then s else setAct s { c with regs := { c.regs with loopBuf := [] } })
  else if c.regs.loopBuf.any (fun b => b.1 == c.pc) then s
  else setAct s { c with regs := { c.regs with loopBuf := c.regs.loopBuf ++ [(c.pc, getBytes s.mem c.pc n)] } }
/-- A group of one instruction in a bundle of its own without header bits. -/
def isSolo (g : Group) : Bool := g.len == 16 && !g.mark && !g.yield && !g.join
/-- The structural conditions that hold back a group at a mark (R398), for a cancelled task's stalled group (26 R444). -/
def heldByStructure (s : State) (g : GInfo) (is : List Instr) : Bool :=
  structural s g is || (decide (s.now < (actCtx s).resolved) && (g.mark || g.join || is.any marksBefore || is.any marksAfter))
/-- The acting context fetches its group, decodes it and issues it (05 R81 to R87). -/
def issueTurn (s : State) : Host.Outcome State Fault Refusal :=
  let pc := (actCtx s).pc
  if deviceBytes ≤ pc then .fault .noSuchAddress
  else
    match decodeBytes (fetchBytes s) with
    | .bad cause slot info => .next (takeTrap s s.core s.cx (decodeCause s cause slot info) pc slot info)
    | .ok g =>
      if deviceBytes < pc + g.len then .fault .noSuchAddress
      else if (actCtx s).stalled ≠ 0 && !(actCtx s).sp.hmode && taskCancelled s (actCtx s) && !heldByStructure s (groupInfo pc g) g.syls then
        .next (cancelStalled s s.core s.cx false)
      else
        let s := keepBundles s g.len
        match g.syls with
        | [.emptyBundle m y j] => if g.len = 8 then exec (.emptyBundle m y j) s else .next (issueGroup s (groupInfo pc g) [])
        | [i] => if isSolo g then exec i s else .next (issueGroup s (groupInfo pc g) [⟨i, microOf i⟩])
        | is => .next (issueGroup s (groupInfo pc g) (is.map (fun i => ⟨i, microOf i⟩)))

/-- A core of a group that is being swapped stops issue; a sync group that waits withdraws its arrival (14 R290, log 38). -/
def haltForSwap (s : State) (k : Nat) : State :=
  match (coreOf s k).holder with
  | some x => leaveIssue (match (coreOf s k).syncWait with | some (ls, _) => withdraw s k ls | none => s) k x
  | none => s
/-- One cycle of a core's issue logic: pre-emption, the choice of a context, exchanges, what comes before a group (a freeze, the wait for a
handler, an asynchronous cause, the watchdog, a hold-off), and the group. -/
def coreTurn (s : State) (k : Nat) : Host.Outcome State Fault Refusal :=
  if swapping s k then .next (countIdle (haltForSwap s k) k)
  else
    let s := preemptIssue s k
    match (coreOf s k).holder with
    | none => .next (chooseContext s k)
    | some x =>
      let s := actAs s k x
      let c := actCore s
      if c.exchLeft = 1 then .next (countCycle (setActCore s { c with exchLeft := 0 }) false)
      else if mustFreeze s k x then .next (countCycle (freezeCtx s k x) false)
      else if (actCtx s).hold ≠ 0 then .next (holdTick (countCycle s false) k x)
      else if asyncReady s k x then .next (takeAsync s k x)
      else if watchdogDue s k then .next (syncTimeout s k)
      else if 65536 ≤ c.heldOff then .next (holdTimeout s k)
      else issueTurn s

/-! ## The Shuttle -/

/-- One cycle of a die's Shuttle: an instruction, or none. -/
def shuttleTurn (s : State) (d : Nat) : Host.Outcome State Fault Refusal :=
  let s := { s with die := d }
  match shFetch s d with
  | .idle => .next (if (shOf s d).running then countSh s d false else s)
  | .fault a => .next (shException (countSh s d false) d 1 a)
  | .word w len =>
    let s := countSh s d true
    if len = 4 then
      match decodeShuttle w with
      | some i => exec i s
      | none => .next (rvExec s d w 4)
    else
      match Rv.expand w with
      | some v => .next (rvExec s d v 2)
      | none => .next (illegalRv s d w)

/-! ## As the cycle begins -/

/-- Late data that has arrived (22 R390): a cycle after data that an entry still waits for could have landed with it. -/
def deliverLate (s : State) (k : Nat) : State :=
  (arriving s k).foldl (fun s l => if isLate s k l && l.fin.any (fun f => f < s.now) then deliverLoad s k l else s) s
/-- What is performed, lands or ends at a core: stores, atomics, loads, matrix operations, bank exchanges, stream fetches. -/
def coreBegins (s : State) (k : Nat) : State :=
  let s := performAtoms (performStores s k) k
  let s := deliverLate (memPhase s k) k
  let s := mxStep (loadEnd (mxEnd s k) k) k
  let s := backImage (exchangeDone s k) k
  (activeCtxs s k).foldl (fun s x => (ctxOf s k x).regs.ports.foldl (fun s p => fetchVector s k x p.1) s) s
/-- What begins at a die: held requests are served, sync lines released, signals and seals take effect. -/
def dieBegins (s : State) (d : Nat) : State :=
  let s := if (dieOf s d).held.isEmpty then s else serveHeld (serveHeld s (2 * d)) (2 * d + 1)
  runActs ((dieOf s d).tasks.releases.foldl (fun s p => releaseLine s d (p.1 % 16) (p.1 / 16)) s) d
/-- The rotation clock: a strobe that is missing (25 R439), and after it the module's own rotations; slots begin (15 R296). -/
def clockBegins (s : State) : State :=
  let lost := (fabOf s 0).desync.isSome
  let s := if s.ga.strobed && !lost && decide (s.rotAt + 5125 ≤ s.now) then strobeMissing s
    else if lost && decide (s.rotAt + 5120 ≤ s.now) then enterRotation { s with rot := (s.rot + 1) % 4294967296, rotAt := s.rotAt + 5120 }
    else s
  slotBoundary s
def cycleBegins (s : State) : State :=
  let s := clockBegins s
  let ks := activeCores s
  let ds := s.dies.map (·.1)
  let s := ks.foldl (fun s k => (List.range 8).foldl (fun s d => farBeats (farReach s d k) d k) s) s
  ds.foldl dieBegins (ks.foldl coreBegins s)

/-! ## As the cycle ends -/

/-- The numbers below n, from `a` on, in a ring. -/
def ringFrom (n a : Nat) : List Nat := (List.range n).map (fun i => (a + i) % n)
/-- The engines of a context stop at a boundary of their beats, for a swap or for a save with STOP (14 R290, 12 R260). -/
def engineHeld (s : State) (k x : Nat) : Bool := swapping s k || stopHolds s k x
/-- Contexts of a core with something in engine `e`, from the one after the last it served: one that is held ends the request it has out. -/
def engineOrder (s : State) (k e : Nat) : List Nat :=
  (ringFrom 8 (mapGet (coreOf s k).rr 0 e)).filter (fun x =>
    (ctxOf s k x).status != .parked
      && (match (ctxOf s k x).eng.queue e with | m :: _ => m.tag.isSome || !engineHeld s k x | [] => false))
/-- The subscriptions of the loader (2) or the storer (3) with a turn, from the one after the last served: one that is held is drained (09 R189). -/
def subOrder (s : State) (k e : Nat) : List (Nat × Nat) :=
  let all := ((activeCtxs s k).filter (fun x => (ctxOf s k x).status != .parked)).flatMap (fun x =>
    (List.range (ctxOf s k x).eng.subs.length).filterMap (fun n =>
      match (ctxOf s k x).eng.subs[n]? with
      | some u => if u.store == (e == 3) && (!engineHeld s k x || subOpen s k u) then some (x, n) else none
      | none => none))
  let from_ := mapGet (coreOf s k).rr 0 e
  all.filter (fun p => decide (from_ ≤ 8 * p.1 + p.2)) ++ all.filter (fun p => decide (8 * p.1 + p.2 < from_))
/-- An engine that moves data past the core has its turn: the copy engine (0), the loader (2), the storer (3); the last to take a slot comes last. -/
def moverTurn (s : State) (k e : Nat) : State :=
  let c := coreOf s k
  let taken := c.ms.bound.contains s.now
  let s := if e = 0 then serveTurn s k 0 (engineOrder s k 0) else serveSubs s k e (subOrder s k e)
  let c := coreOf s k
  if !taken && c.ms.bound.contains s.now then setCore s k { c with rr := mapSet c.rr 0 8 (e + 1) } else s
/-- The engines of a core (09 R183): what heads settle beside their turns, then one turn of each engine, its contexts or subscriptions in turn; those
that want an owned slot of the core take it in turn (10 R208). Rows freed at a restart point of this cycle are free from the next (08 R164). -/
def coreEngines (s : State) (k : Nat) : State :=
  let xs := (activeCtxs s k).filter (fun x => !engineHeld s k x && (ctxOf s k x).status != .parked)
  let s := xs.foldl (fun s x => [0, 1, 4, 5, 6, 7].foldl (fun s e => settleHead (neverWritten s k x e) k x e) (ringStep s k x)) s
  let movers := match mapGet (coreOf s k).rr 0 8 with | 1 => [2, 3, 0] | 3 => [3, 0, 2] | _ => [0, 2, 3]
  let s := movers.foldl (fun s e => moverTurn s k e) s
  let s := [1, 4, 5, 6, 7].foldl (fun s e => serveTurn s k e (engineOrder s k e)) s
  let s := (activeCtxs s k).foldl (fun s x => [0, 1, 4, 5, 6, 7].foldl (fun s e => completeEngine s k x e) s) s
  let s := if swapping s k then s else spillTurn s k
  (activeCtxs s k).foldl (fun s x => let c := ctxOf s k x; if c.freed.isEmpty then s else setCtx s k x { c with freed := [] }) s
/-- Contexts that do not issue: limits of holds, frozen contexts, saves on their way, cancelled and ending tasks. -/
def coreEnds (s : State) (k : Nat) : State :=
  let s := coreEngines s k
  (activeCtxs s k).foldl (fun s x => endTask (cancelCtx (imagePerformed (unfreezeCtx (raiseLimit s k x) k x) k x) k x) k x) s
/-- The task unit of a die: dispatch and pre-emption, arrivals at cores, records that become READY, and the counters' sources. -/
def taskUnit (s : State) (d : Nat) : State :=
  let s := chooseVictim (dispatchOne s d) d
  let s := (dieOf s d).tasks.preempts.foldl (fun s p => guestRestore (slotSave s p.core p.ctx) p.core p.ctx) s
  let s := bindArrivals s d
  let s := (dieOf s d).tasks.waiting.foldl (fun s w => match w.act with
    | .ready e r => contReady s e r
    | .complete key _ _ => levelReady s key
    | _ => s) s
  let s := setEventSource s d 4 (exOf s d).drawer.length
  let n := (dieOf s d).stallSum
  let s := if 1024 ≤ n then countEvent (setDie s d { dieOf s d with stallSum := n - 1024 }) d 5 1 else s
  retryTiles (spawnCrossed s d) d

/-- The fabric unit, the message unit and the row unit of a die. -/
def fabricUnit (s : State) (d : Nat) : State :=
  let s := messagePhase (servePhase (replyPhase (rowArrives (wakeShuttle s d) d) d) d) d
  let s := retryMessages s d
  let f := fabOf s d
  let s := f.tags.foldl (fun s p => releaseIncs (if p.2.busy then timeoutTag s d p.1 else s) d p.1) s
  let s := expireReplay (abandonLost (expireWaits s d) d) d
  let s := f.returnAt.foldl (fun s p => returnTimer s d p.1) s
  let s := f.recover.foldl (fun s p => recoveryTimeout s d p.1) s
  let s := pruneWaits s d
  countShort (transmitAll s d) d
/-- The tier fill engine copies its first fill: 1,024 cycles for each block and the tier's own latency (24 R416, log 23). -/
def fillTurn (s : State) : State :=
  match s.fills with
  | [] => s
  | f :: rest =>
    if f.fin = 0 && (fillGap s f).isSome then expertDone s
    else if f.fin = 0 then
      let n := match f.kind with | .extent _ _ _ _ _ => 1 | .expert _ _ _ nblk _ => nblk
      { s with free := s.free + 1, fills := { f with fin := s.now + 1024 * n + Config.unitDelay s.free } :: rest }
    else if s.now < f.fin then s
    else if isExtent f then extentDone s else expertDone s
/-- What the I/O die does at set times: sweeps, counts and logs. -/
def timedWork (s : State) : State :=
  let ds := List.range 8
  let s := applyRaises s
  let s := if s.now % 65536 = 0 then ds.foldl flushIdle ((s.cores.map (fun p => p.1)).foldl flushOcc s) else s
  let s := if s.now % 1048576 = 0 then ds.foldl reportCauses s else s
  let s := if s.now % 4194304 = 0 then (List.range 8).foldl sweepHeat s else s
  if s.now % 16777216 = 0 then ds.foldl pollErrors s else s
/-- The I/O die: effects and worlds, fills, checkpoints, swaps, held host accesses, single steps, completed jobs. -/
def ioUnit (s : State) : State :=
  let s := makeRoots (releaseEffect s)
  let s := (s.worlds.ents.map (fun p => p.1)).foldl freeWorld s
  let s := checkpointTurn (fillTurn s)
  let s := swapBegins (match s.ga.swap with | some (g, _) => swapEnds s g | none => s)
  let s := settleStep (hdmTurn s s.ga.hostQ.length)
  timedWork ((s.jobs.map (fun p => p.1)).foldl reportJob s)

/-! ## A new cycle -/

/-- The next cycle begins: its turns, in order. -/
def newCycle (s : State) : State :=
  let ks := activeCores s
  let ds := s.dies.map (·.1)
  { s with
    now := s.now + 1
    stored := []
    hwSets := []
    turns := [Turn.unit 1] ++ ks.map Turn.core ++ (ds.filter (fun d => (shOf s d).running)).map Turn.shuttle ++ [Turn.unit 0] }
def unitTurn (s : State) (n : Nat) : State :=
  if n = 1 then cycleBegins s
  else
    let ks := activeCores s
    let s := ks.foldl (fun s k => reportIfChanged (coreEnds s k) k) s
    let s := (List.range 8).foldl (fun s d => sliceSpillTurn (serveSlices s d) d) s
    let s := (s.dies.map (fun p => p.1)).foldl taskUnit s
    ioUnit ((s.dies.map (fun p => p.1)).foldl fabricUnit s)
/-- One turn. -/
def runTurn (s : State) (t : Turn) : Host.Outcome State Fault Refusal :=
  match t with
  | .core k => coreTurn s k
  | .shuttle d => shuttleTurn s d
  | .event i => exec i s
  | .unit n => .next (unitTurn s n)

end Sys2Proof.Machine
end

