-- ==== Sys2Proof/Machine/Step.lean ====
section
/-! DEFINITION. Machine/Step.lean: the step of the module, and the state with an instruction where the next step fetches it. -/

namespace Sys2Proof.Machine

/-- One step: what the surroundings bring first, then the next turn of the cycle, then a new cycle (log 4, log 11). -/
def step (s : State) : Host.Outcome State Fault Refusal :=
  match s.inbox with
  | i :: rest => exec i { s with inbox := rest }
  | [] =>
    match s.turns with
    | t :: rest => runTurn { s with turns := rest } t
    | [] => .next (newCycle s)

/-- `s` with an instruction where the next step fetches it: 32 bits stand at the pc of die 0's running Shuttle; more are a bundle at the pc of
context 0 of core 0, which is bound and holds issue. -/
def State.withFetchWord (s : State) (nbits w : Nat) : State :=
  if nbits ≤ 32 then
    let d := dieOf s 0
    let h := d.sh
    let s := { s with inbox := [], turns := [.shuttle 0] }
    setDie s 0 { d with sh := { h with scratch := setBytes h.scratch h.pc (leBytes 4 (w % 2 ^ nbits)), running := true, wfi := false } }
  else
    let c := ctxOf s 0 0
    let k := coreOf s 0
    let s := { s with inbox := [], turns := [.core 0], mem := setBytes s.mem c.pc (leBytes 64 (w % 2 ^ nbits)) }
    let s := setCtx s 0 0 { c with status := .bound, toRun := true, frozen := false, hold := 0 }
    setCore s 0 { k with holder := some 0, exchLeft := 0, syncWait := none, heldOff := 0 }

end Sys2Proof.Machine
end

