-- ==== Sys2Proof/Safety.lean ====
section
/-! DEFINITION. Safety.lean: the terms in which claims speak of an instruction that issues as a group of its own (05 R85, R86): the state
its syllable finds, when nothing holds it back, and the state it leaves; and what counts as a run that does not stop. -/

namespace Sys2Proof.Machine

/-- A step that neither faults nor refuses. -/
def goesOn (o : Host.Outcome State Fault Refusal) : Prop := ∃ t, o = .next t

/-- The entries an instruction takes in the gated store buffer would not fit (10 R214). -/
def gateFull (s : State) (i : Instr) : Bool := bufferFull s [i]
/-- The state in which a group of one instruction is evaluated: arrived object entries are in the cache, and the boundary before the group
is a restart point where the group needs one (10 R214, 11 R226). -/
def issueState (s : State) (i : Instr) : State :=
  let t := settleObjects s
  if marksBefore i || gateFull t i then markHere t t.core t.cx else t
/-- What the syllable finds: nothing gathered yet, its own slot and bits, and its pops (R147). -/
def began (s : State) (i : Instr) : Iss :=
  let t := issueState s i
  { st := preDraw t [i], c0 := actCtx t, g := soloGroup (actCtx s).pc i, slot := i.slot, syl := i.syllable, checked := isChecked i, pends := [], pushed := [],
    pops := popsOf i, ends := [], after := [], last := [], next := none, stop := .run, corrupt := none, late := none, guard := none,
    port := none, wait := none, seed := (actCore t).gen, seq0 := (actCore t).ms.seq }
/-- The state after the group issued with what its syllable gathered: entries appended, queue counts moved, the next pc chosen, one
context cycle passed (R44, R86). -/
def retired (s : State) (i : Instr) (j : Iss) : State := finishGroup (issueState s i) j [i]

/-- Nothing holds the group back (05 R91, 10 R214, 18 R352, 22 R394, 23 R398, 24 R415): its feature is on and its mode right, the address
resolutions a mark waits for are done, its structural conditions are met, its path is taken and its guard is true, no register it reads is
struck (24 R421), and no pending write to the guard of an engine command is on its way (09 R182). -/
def Ready (s : State) (i : Instr) : Prop :=
  let t := settleObjects s
  stateFault s [i] = none
  ∧ ((marksBefore i || gateFull t i || marksAfter i) = true → (actCtx t).resolved ≤ t.now)
  ∧ structural (issueState s i) (soloGroup (actCtx s).pc i) [i] = false
  ∧ executes (actCtx (issueState s i)) (leafOf (actCtx (issueState s i)) [i]) i.guard = true
  ∧ brokenGuard (actCtx (issueState s i)) i = false
  ∧ brokenRead (actCtx (issueState s i)) i = false
  ∧ (i.slot = 6 → pendingPred (actCtx (issueState s i)) [] i.guard.pred = none)

/-- The scalars carry no poison (22 R384, R388). -/
def Clean (ns : List Nat) (j : Iss) : Prop := ∀ n ∈ ns, sMarkOf j.ctx n = .clean
/-- A syllable has consumed no poison and met no failure behind the memory port, nor a wait (23 R396). -/
def Iss.Sound (j : Iss) : Prop := j.corrupt = none ∧ j.late = none ∧ j.port = none ∧ j.wait = none

/-- An instruction that is ready, and for which `h` holds of what it finds, issues with the effect `r`. -/
def Completes (i : Instr) (h : Iss → Prop) (r : Iss → Iss) : Prop :=
  ∀ s, Ready s i → h (began s i) → exec i s = .next (retired s i (r (began s i)))
/-- An instruction that is ready issues with whatever effect `r` relates to what it finds. -/
def CompletesTo (i : Instr) (r : Iss → Iss → Prop) : Prop :=
  ∀ s j, Ready s i → r (began s i) j → j.Sound → exec i s = .next (retired s i j)
/-- An instruction that is ready, and for which `h` holds, issues with an effect that `e` describes. -/
def CompletesWith (i : Instr) (h : Iss → Prop) (e : Iss → Iss → Prop) : Prop :=
  ∀ s, Ready s i → h (began s i) → ∃ k, e (began s i) k ∧ exec i s = .next (retired s i k)
/-- An instruction that is ready, and for which `h` holds, stalls: a cycle passes at issue after what the waiting itself sets going (R43). -/
def Waits (i : Instr) (h : Iss → Prop) (f : Iss → State → State) : Prop :=
  ∀ s, Ready s i → h (began s i) → exec i s = .next (stallCycle (f (began s i) (issueState s i)))
/-- An instruction that is ready, and for which `h` holds, takes the precise trap `cause` with EINFO `info` (22 R376, class P). -/
def Traps (i : Instr) (h : Iss → Prop) (cause : Nat) (info : Iss → Nat) : Prop :=
  ∀ s, Ready s i → h (began s i) →
    exec i s = .next (takeTrap (issueState s i) s.core s.cx cause (actCtx s).pc (some i.slot) (info (began s i)))

/-- With clean sources, the instruction writes `v` to scalar `sd`, visible `lat` context cycles later (R43, R45). -/
def GivesScalar (i : Instr) (lat sd : Nat) (srcs : List Nat) (v : Ctx → BitVec 64) : Prop :=
  Completes i (Clean srcs) (fun j => j.writeS lat sd (v j.ctx))
/-- The same for a predicate and for a capability. -/
def GivesPred (i : Instr) (lat pd : Nat) (srcs : List Nat) (v : Ctx → Bool) : Prop :=
  Completes i (Clean srcs) (fun j => j.add lat (.pred pd (v j.ctx)) none 0)
def GivesCap (i : Instr) (cd : Nat) (srcs : List Nat) (v : Ctx → Cap) : Prop :=
  Completes i (Clean srcs) (fun j => j.add 1 (.cap cd (v j.ctx)) none 0)
/-- With clean sources, the instruction's one effect is `act` as its group completes. -/
def Acts (i : Instr) (srcs : List Nat) (act : Ctx → State → State) : Prop :=
  Completes i (Clean srcs) (fun j => j.atEnd (act j.ctx))

/-- With its sources read as rows (R96, R144, R147) and its destination taking a row (R97, R147), the instruction's result of eb-bit elements
is what `res` gives of the context it found and of those rows, `lat` context cycles later, marked by its sources (22 R386). -/
def GivesRow (i : Instr) (b n : Nat) (sels : List Nat) (vd lat eb : Nat) (res : Ctx → (Nat → BitVec 1024) → List FRes) : Prop :=
  CompletesTo i (fun j k => ∃ j' rows, j.sources b n sels [] = .ok (j', rows) ∧ j'.vectorOut vd lat eb (res j.ctx (rowBits rows)) rows = .ok k)
/-- An element-wise instruction of format VX on two sources or one: `fn` of the elements where the mask is active; elsewhere 0 under Z and
the first source's element without it (R146). -/
def Lanes2 (i : Instr) (f : VX) (lat : Nat) (fn : Ctx → Nat → Nat → FRes) : Prop :=
  let b := elemBits f.t
  GivesRow i b (widthOf f.w / b) [f.va, f.vb] f.vd lat b (fun c r => (List.range (widthOf f.w / b)).map (fun e =>
    if activeElem c f.msk b e then fn c (elem b (r 0) e) (elem b (r 1) e) else if f.z = 1 then ⟨0, 0⟩ else ⟨elem b (r 0) e, 0⟩))
def Lanes1 (i : Instr) (f : VX) (lat : Nat) (fn : Ctx → Nat → FRes) : Prop :=
  let b := elemBits f.t
  GivesRow i b (widthOf f.w / b) [f.va] f.vd lat b (fun c r => (List.range (widthOf f.w / b)).map (fun e =>
    if activeElem c f.msk b e then fn c (elem b (r 0) e) else if f.z = 1 then ⟨0, 0⟩ else ⟨elem b (r 0) e, 0⟩))
/-- An instruction of format VY (R153). -/
def Lanes3 (i : Instr) (f : VY) (b lat : Nat) (fn : Ctx → Nat → Nat → Nat → FRes) : Prop :=
  GivesRow i b (widthOf f.w / b) [f.va, f.vb, f.vc] f.vd lat b (fun c r => (List.range (widthOf f.w / b)).map (fun e =>
    fn c (elem b (r 0) e) (elem b (r 1) e) (elem b (r 2) e)))

/-- The syllables that resolve a place in memory, write a context image, or end a world: the others leave memory alone. -/
def usesMemory (i : Instr) : Bool :=
  match i with
  | .lds _ _ | .ldv _ _ | .ldf _ _ | .ldx _ _ | .pref _ _ | .sts _ _ | .stv _ _ | .stx _ _ | .atom _ _ => true
  | .arrexp _ _ | .arrive _ _ | .arriveWait _ _ | .ldr _ _ | .ldrw _ _ | .str _ _ | .atomr _ _ | .fencef _ _ => true
  | .ctxsave _ _ | .restore _ _ | .wdone _ _ | .wdiscard _ _ | .wchooseImm _ _ | .wchooseReg _ _ => true
  | _ => false

/-- A span of a typed buffer is the partition's own (14 R291). -/
def Owns (j : Iss) (code a n : Nat) : Prop := foreignRegion j.st j.st.core code a n = none
/-- The address operand of a global access [cB + sO + imm] (R196, R216), and of a typed-buffer access (R222). -/
def globalAddr (c : Ctx) (so imm unit : Nat) : Nat := offsetOf (readS c so) imm unit 40
def bufferAddr (c : Ctx) (so imm unit : Nat) : Nat := offsetOf (readS c so) imm unit 21

end Sys2Proof.Machine
end

