-- ==== Sys2Proof/Certificates/Slice0/Obligations.lean ====
section
/-! DEFINITION. Certificates/Slice0/Obligations.lean: the statements for the provers. -/

open Sys2Proof Sys2Proof.Machine

/-- ADD to LIH and SEL (07 R116 to R121, 04 R66): each result, and the context cycle at which it is visible. DIV, DIVU, REM, REMU: truncation
towards zero; a zero divisor gives all ones and the dividend, noted as event kind 2 of the floating-point event log (22 R391, 23 R407); −2^63 by
−1 gives −2^63 and 0. -/
def Obligations.IntegerResults : Prop :=
  ((∀ (g : Guard) (f : SX),
      let a : Ctx → BitVec 64 := fun c => readS c f.sa
      let b : Ctx → BitVec 64 := fun c => readS c f.sb
      GivesScalar (.add g f) 1 f.sd [f.sa, f.sb] (fun c => a c + b c)
      ∧ GivesScalar (.sub g f) 1 f.sd [f.sa, f.sb] (fun c => a c - b c)
      ∧ GivesScalar (.mul g f) 3 f.sd [f.sa, f.sb] (fun c => a c * b c)
      ∧ GivesScalar (.mulh g f) 3 f.sd [f.sa, f.sb] (fun c => BitVec.ofInt 64 ((a c).toInt * (b c).toInt / 2 ^ 64))
      ∧ GivesScalar (.mulhu g f) 3 f.sd [f.sa, f.sb] (fun c => BitVec.ofNat 64 ((a c).toNat * (b c).toNat / 2 ^ 64))
      ∧ GivesScalar (.and g f) 1 f.sd [f.sa, f.sb] (fun c => a c &&& b c)
      ∧ GivesScalar (.or g f) 1 f.sd [f.sa, f.sb] (fun c => a c ||| b c)
      ∧ GivesScalar (.xor g f) 1 f.sd [f.sa, f.sb] (fun c => a c ^^^ b c)
      ∧ GivesScalar (.andn g f) 1 f.sd [f.sa, f.sb] (fun c => a c &&& ~~~ b c)
      ∧ GivesScalar (.shlReg g f) 1 f.sd [f.sa, f.sb] (fun c => a c <<< ((b c).toNat % 64))
      ∧ GivesScalar (.shrReg g f) 1 f.sd [f.sa, f.sb] (fun c => a c >>> ((b c).toNat % 64))
      ∧ GivesScalar (.sraReg g f) 1 f.sd [f.sa, f.sb] (fun c => (a c).sshiftRight ((b c).toNat % 64))
      ∧ GivesScalar (.rotReg g f) 1 f.sd [f.sa, f.sb] (fun c => (a c).rotateLeft ((b c).toNat % 64))
      ∧ GivesScalar (.shlImm g f) 1 f.sd [f.sa] (fun c => a c <<< (f.fn % 64))
      ∧ GivesScalar (.shrImm g f) 1 f.sd [f.sa] (fun c => a c >>> (f.fn % 64))
      ∧ GivesScalar (.sraImm g f) 1 f.sd [f.sa] (fun c => (a c).sshiftRight (f.fn % 64))
      ∧ GivesScalar (.rotImm g f) 1 f.sd [f.sa] (fun c => (a c).rotateLeft (f.fn % 64))
      ∧ GivesScalar (.sext g f) 1 f.sd [f.sa] (fun c => ((a c).setWidth (f.fn % 64 + 1)).signExtend 64)
      ∧ GivesScalar (.zext g f) 1 f.sd [f.sa] (fun c => ((a c).setWidth (f.fn % 64 + 1)).setWidth 64)
      ∧ GivesScalar (.min g f) 1 f.sd [f.sa, f.sb] (fun c => if (b c).toInt < (a c).toInt then b c else a c)
      ∧ GivesScalar (.max g f) 1 f.sd [f.sa, f.sb] (fun c => if (a c).toInt < (b c).toInt then b c else a c)
      ∧ GivesScalar (.minu g f) 1 f.sd [f.sa, f.sb] (fun c => if (b c).toNat < (a c).toNat then b c else a c)
      ∧ GivesScalar (.maxu g f) 1 f.sd [f.sa, f.sb] (fun c => if (a c).toNat < (b c).toNat then b c else a c)
      ∧ GivesScalar (.sel g f) 1 f.sd [f.sa, f.sb] (fun c => if readP c (f.fn % 64) = decide (f.fn % 128 < 64) then a c else b c))
    ∧ (∀ (g : Guard) (f : SI), GivesScalar (.addi g f) 1 f.sd [f.sa] (fun c => readS c f.sa + (BitVec.ofNat 26 f.imm).signExtend 64))
    ∧ (∀ (g : Guard) (f : SL),
      GivesScalar (.li g f) 1 f.sd [] (fun _ => (BitVec.ofNat 32 f.imm).signExtend 64)
      ∧ GivesScalar (.lih g f) 1 f.sd [f.sd] (fun c => BitVec.ofNat 64 (f.imm * 2 ^ 32 + (readS c f.sd).toNat % 2 ^ 32))))
  ∧ (∀ (g : Guard) (f : SX),
      let a : Ctx → BitVec 64 := fun c => readS c f.sa
      let b : Ctx → BitVec 64 := fun c => readS c f.sb
      let gives : Instr → (Ctx → BitVec 64) → Prop := fun i v =>
        Completes i (Clean [f.sa, f.sb]) (fun j => j.add 18 (.scalar f.sd (v j.ctx)) none (if b j.ctx = 0#64 then 2 else 0))
      gives (.div g f) (fun c => if b c = 0#64 then BitVec.allOnes 64 else (a c).sdiv (b c))
      ∧ gives (.divu g f) (fun c => if b c = 0#64 then BitVec.allOnes 64 else a c / b c)
      ∧ gives (.rem g f) (fun c => if b c = 0#64 then a c else (a c).srem (b c))
      ∧ gives (.remu g f) (fun c => if b c = 0#64 then a c else a c % b c))

/-- The counts and bit gathers of R118 by what they mean: CLZ, CTZ and POPC give the stated counts, and BEXT of BDEP's result under the same
mask gives back the low bits. -/
def Obligations.BitCounts : Prop :=
  (∀ (g : Guard) (f : SX),
    (∃ clz : BitVec 64 → Nat,
      GivesScalar (.clz g f) 1 f.sd [f.sa] (fun c => BitVec.ofNat 64 (clz (readS c f.sa)))
      ∧ clz 0#64 = 64 ∧ ∀ a : BitVec 64, a ≠ 0#64 → clz a < 64 ∧ 2 ^ (63 - clz a) ≤ a.toNat ∧ a.toNat < 2 ^ (64 - clz a))
    ∧ (∃ ctz : BitVec 64 → Nat,
      GivesScalar (.ctz g f) 1 f.sd [f.sa] (fun c => BitVec.ofNat 64 (ctz (readS c f.sa)))
      ∧ ctz 0#64 = 64 ∧ ∀ a : BitVec 64, a ≠ 0#64 → ctz a < 64 ∧ a.getLsbD (ctz a) = true ∧ ∀ k, k < ctz a → a.getLsbD k = false)
    ∧ (∃ popc : BitVec 64 → Nat,
      GivesScalar (.popc g f) 1 f.sd [f.sa] (fun c => BitVec.ofNat 64 (popc (readS c f.sa)))
      ∧ ∀ a : BitVec 64, popc a = ((List.range 64).filter (fun k => a.getLsbD k)).length))
  ∧ (∃ bext bdep : BitVec 64 → BitVec 64 → BitVec 64,
    (∀ (g : Guard) (f : SX),
      GivesScalar (.bext g f) 1 f.sd [f.sa, f.sb] (fun c => bext (readS c f.sa) (readS c f.sb))
      ∧ GivesScalar (.bdep g f) 1 f.sd [f.sa, f.sb] (fun c => bdep (readS c f.sa) (readS c f.sb)))
    ∧ (∀ (a m : BitVec 64) (k : Nat), m.getLsbD k = true →
        (bext a m).getLsbD (((List.range k).filter (fun i => m.getLsbD i)).length) = a.getLsbD k
        ∧ (bdep a m).getLsbD k = a.getLsbD (((List.range k).filter (fun i => m.getLsbD i)).length))
    ∧ (∀ (a m : BitVec 64) (k : Nat), m.getLsbD k = false → (bdep a m).getLsbD k = false)
    ∧ (∀ (a m : BitVec 64) (n : Nat), ((List.range 64).filter (fun i => m.getLsbD i)).length ≤ n → (bext a m).getLsbD n = false))

/-- Predicates (07 R122 to R124, R127): comparisons by code, bit tests and predicate logic; SFCMP on the operands its format and FLUSH give. -/
def Obligations.PredicateResults : Prop :=
  ∀ (g : Guard) (f : SP),
    let holds : BitVec 64 → BitVec 64 → Bool := fun a b =>
      match f.cc with
      | 0 => decide (a = b)
      | 1 => decide (a ≠ b)
      | 2 => decide (a.toInt < b.toInt)
      | 3 => decide (b.toInt ≤ a.toInt)
      | 4 => decide (a.toNat < b.toNat)
      | 5 => decide (b.toNat ≤ a.toNat)
      | 6 => decide (a.toInt ≤ b.toInt)
      | 7 => decide (b.toInt < a.toInt)
      | 8 => decide (a.toNat ≤ b.toNat)
      | _ => decide (b.toNat < a.toNat)
    let x : Ctx → Bool := fun c => xor (readP c f.xa) (f.fn.testBit 0)
    let y : Ctx → Bool := fun c => xor (readP c f.xb) (f.fn.testBit 1)
    GivesPred (.cmpReg g f) 1 f.pd [f.xa, f.xb] (fun c => holds (readS c f.xa) (readS c f.xb))
    ∧ GivesPred (.cmpImm g f) 1 f.pd [f.xa] (fun c => holds (readS c f.xa) ((BitVec.ofNat 12 f.fn).signExtend 64))
    ∧ GivesPred (.tstbReg g f) 1 f.pd [f.xa, f.xb] (fun c => (readS c f.xa).getLsbD ((readS c f.xb).toNat % 64))
    ∧ GivesPred (.tstbImm g f) 1 f.pd [f.xa] (fun c => (readS c f.xa).getLsbD (f.fn % 64))
    ∧ GivesPred (.pand g f) 1 f.pd [] (fun c => x c && y c)
    ∧ GivesPred (.por g f) 1 f.pd [] (fun c => x c || y c)
    ∧ GivesPred (.pxor g f) 1 f.pd [] (fun c => xor (x c) (y c))
    ∧ GivesPred (.pnot g f) 1 f.pd [] (fun c => !x c)
    ∧ GivesPred (.pmov g f) 1 f.pd [] x
    ∧ GivesPred (.sfcmp g f) 2 f.pd [f.xa, f.xb] (fun c =>
        cmpV f.cc (fpOperand c.sp.flush (f.fn % 16) (readS c f.xa)) (fpOperand c.sp.flush (f.fn % 16) (readS c f.xb)))

/-- Scalar floating point (07 R125, R126, R128): one rounding of the exact sum, product, or product and sum, in the T format, after 4 cycles,
with its event; and the three kinds of SFCVT. -/
def Obligations.ScalarFloatResults : Prop :=
  ∀ (g : Guard) (f : SX),
    let t := f.fn % 16
    let op : Ctx → Nat → FVal := fun c n => fpOperand c.sp.flush t (readS c n)
    let gives : Instr → List Nat → (Ctx → FRes) → Prop := fun i srcs r =>
      Completes i (Clean srcs) (fun j => j.add 4 (.scalar f.sd (BitVec.ofNat 64 (r j.ctx).code)) none (r j.ctx).kind)
    gives (.sfadd g f) [f.sa, f.sb] (fun c => addF (fmtOf t) f.rm (ftzOf c.sp.flush t) (op c f.sa) (op c f.sb))
    ∧ gives (.sfmul g f) [f.sa, f.sb] (fun c => mulF (fmtOf t) f.rm (ftzOf c.sp.flush t) (op c f.sa) (op c f.sb))
    ∧ gives (.sfma g f) [f.sa, f.sb, f.fn / 2048] (fun c =>
        fmaF (fmtOf t) f.rm (ftzOf c.sp.flush t) (op c f.sa) (op c f.sb) (op c (f.fn / 2048)))
    ∧ (let dt := f.fn / 16 % 16
       let low : Ctx → Nat := fun c => (readS c f.sa).toNat % 2 ^ scalarBits t
       (isFloatT t = true → isFloatT dt = true → Completes (.sfcvt g f) (Clean [f.sa]) (fun j =>
          let r := roundDraws (fmtOf dt) f.rm false (ftzOf j.flush dt) [op j.ctx f.sa] j.core.gen
          (j.setCore { j.core with gen := r.2 }).writeF f.sd (r.1.headD ⟨0, 0⟩)))
       ∧ (isFloatT t = true → isFloatT dt = false → gives (.sfcvt g f) [f.sa] (fun c =>
          let r := toIntF dt (scalarBits dt) f.rm (op c f.sa)
          if dt = 6 then ⟨(signExtend 32 (BitVec.ofNat 64 r.code)).toNat, r.kind⟩ else r))
       ∧ (isFloatT t = false → gives (.sfcvt g f) [f.sa] (fun c =>
          roundF (fmtOf dt) f.rm false (ftzOf c.sp.flush dt) none (ofIntV (intOf t (scalarBits t) (low c))))))

/-- Capabilities (07 R129 to R133): derived bounds, rights and tag, and what CGET and CTEST read. -/
def Obligations.CapabilityResults : Prop :=
  ∀ (g : Guard) (f : SK),
    (∃ v : Ctx → Cap, GivesCap (.cderive g f) f.cd [f.sa, f.sb] v ∧ ∀ c,
      let src := readC c f.ca
      let lo := src.lower + (readS c f.sa).toNat
      let hi := lo + (readS c f.sb).toNat
      (v c).lower = lo % 2 ^ 40 ∧ (v c).upper = hi % 2 ^ 40 ∧ (v c).rights = src.rights ∧ (v c).obj = src.obj ∧ (v c).bits.toNat % 256 = 0
      ∧ ((v c).tag = true ↔ src.tag = true ∧ src.lower ≤ lo ∧ hi ≤ src.upper ∧ lo ≤ hi))
    ∧ (∃ v : Ctx → Cap, GivesCap (.csetb g f) f.cd [f.sa, f.sb] v ∧ ∀ c,
      let src := readC c f.ca
      let lo := (readS c f.sa).toNat
      let hi := (readS c f.sb).toNat
      (v c).lower = lo % 2 ^ 40 ∧ (v c).upper = hi % 2 ^ 40 ∧ (v c).rights = src.rights ∧ (v c).obj = src.obj ∧ (v c).bits.toNat % 256 = 0
      ∧ ((v c).tag = true ↔ src.tag = true ∧ src.lower ≤ lo ∧ hi ≤ src.upper ∧ lo ≤ hi))
    ∧ (∃ v : Ctx → Cap, GivesCap (.crights g f) f.cd [] v ∧ ∀ c,
      let src := readC c f.ca
      (v c).rights = src.rights &&& f.fn % 256 ∧ (v c).lower = src.lower ∧ (v c).upper = src.upper ∧ (v c).obj = src.obj
      ∧ (v c).tag = src.tag ∧ (v c).bits.toNat % 256 = 0)
    ∧ GivesScalar (.cget g f) 1 f.sa [] (fun c =>
        let k := readC c f.ca
        BitVec.ofNat 64 (match f.fn % 8 with
          | 0 => k.lower
          | 1 => k.upper
          | 2 => if k.upper < k.lower then 0 else k.upper - k.lower
          | 3 => k.rights
          | 4 => k.obj
          | _ => if k.tag then 1 else 0))
    ∧ GivesPred (.ctest g f) 1 (f.fn / 4096) [f.sa, f.sb] (fun c =>
        let k := readC c f.ca
        k.tag && decide (k.lower ≤ (readS c f.sa).toNat) && decide ((readS c f.sa).toNat + (readS c f.sb).toNat ≤ k.upper)
          && decide (k.rights &&& f.fn % 256 = f.fn % 256))

/-- MOVSP (07 R134, 03 R58, 00 R8): the register's value before any change the hardware makes in the cycle lands a cycle later; an RC register
is cleared of all but what hardware has set in the cycle; the values by number.
Where it follows a convention of the model and not the spec, the convention is log 86. -/
def Obligations.SpecialReads : Prop :=
  (∀ (g : Guard) (f : SM), Completes (.movsp g f) (fun _ => True) (fun j =>
    (j.writeS 1 f.sd (BitVec.ofNat 64 (special j.st f.num))).atEnd (fun s =>
      if f.num = 0x014 then setActCore s { actCore s with tagstale := hwLeft s (16 + s.core) 0x014 }
      else if f.num = 0x015 then setDie s (dieOfCore s.core) { dieOf s (dieOfCore s.core) with dupcnt := hwLeft s (dieOfCore s.core) dupKey }
      else s)))
  ∧ ∀ s : State,
    special s 0x000 = (actCtx s).sp.cause ∧ special s 0x001 = (actCtx s).sp.epc ∧ special s 0x002 = (actCtx s).sp.eslot
    ∧ special s 0x003 = (actCtx s).sp.einfo.toNat ∧ special s 0x004 = (actCore s).tvec ∧ special s 0x005 = (actCore s).replayv
    ∧ special s 0x00A = (actCtx s).sp.flush ∧ special s 0x00B = (actCore s).seed.toNat ∧ special s 0x011 = (actCtx s).sp.prio
    ∧ special s 0x012 = (actCore s).calown.toNat ∧ special s 0x013 = s.now % 64
    ∧ (hwOf s (16 + s.core) 0x014 = none → special s 0x014 = (actCore s).tagstale ∧ hwLeft s (16 + s.core) 0x014 = 0)
    ∧ (hwOf s (dieOfCore s.core) dupKey = none → special s 0x015 = (dieOf s (dieOfCore s.core)).dupcnt ∧ hwLeft s (dieOfCore s.core) dupKey = 0)
    ∧ (∀ h, hwOf s (16 + s.core) 0x014 = some h → special s 0x014 = h.start ∧ hwLeft s (16 + s.core) 0x014 = h.set_)
    ∧ special s 0x010 = s.cx + 8 * s.core + 8192 * dieOfCore s.core + (if (actCtx s).sp.hmode then 65536 else 0)
    ∧ special s 0x016 = (actCore s).lines + 65536 * (if (actCore s).phaseSet = s.now + 1 then (actCore s).phaseWas else (actCore s).phase)
    ∧ (let held := if (actCtx s).sp.felogSet = s.now + 1 then (actCtx s).sp.felogWas else (actCtx s).sp.felog
       (∀ e : Event, held = some e → special s 0x008 = e.addr % 2 ^ 48 + 2 ^ 48 * e.slot + 2 ^ 51 * e.kind)
       ∧ (held = none → special s 0x008 = 0))
    ∧ (∀ n, n < 64 → special s (0x080 + n) = fscOf (actCtx s) n
        ∧ (let q := qcfgOf (actCtx s) n
           let p := qptrOf (actCtx s) n
           special s (0x040 + n) = q.base + 2 ^ 16 * (q.depth % 2 ^ 10) + 2 ^ 26 * q.cls + 2 ^ 38 * p.rd + 2 ^ 48 * p.count))

/-- MOVTS (07 R134, 03 R58, 23 R395): the writable fields of the numbered register take the scalar's value; other numbers change nothing.
SYNCPART, FECLR and SRSEED besides (02 R39, 03 R60, 04 R72). -/
def Obligations.SpecialWrites : Prop :=
  ∀ (g : Guard) (f : SM),
    let v : Ctx → Nat := fun c => (readS c f.sd).toNat
    let toSp : (Nat → Special → Special) → Prop := fun h =>
      Acts (.movts g f) [f.sd] (fun c s => setAct s { actCtx s with sp := h (v c) (actCtx s).sp })
    (f.num = 0x000 → toSp (fun n p => { p with cause := n % 2 ^ 6 }))
    ∧ (f.num = 0x001 → toSp (fun n p => { p with epc := n % 2 ^ 48 / 8 * 8 }))
    ∧ (f.num = 0x002 → toSp (fun n p => { p with eslot := n % 2 ^ 4 }))
    ∧ (f.num = 0x003 → toSp (fun n p => { p with einfo := BitVec.ofNat 64 n }))
    ∧ (f.num = 0x00A → toSp (fun n p => { p with flush := n % 2 ^ 12 }))
    ∧ (f.num = 0x004 → Acts (.movts g f) [f.sd] (fun c s => setActCore s { actCore s with tvec := v c % 2 ^ 48 / 8 * 8 }))
    ∧ (f.num = 0x005 → Acts (.movts g f) [f.sd] (fun c s => setActCore s { actCore s with replayv := v c % 2 ^ 48 / 8 * 8 }))
    ∧ (f.num ∉ [0x000, 0x001, 0x002, 0x003, 0x004, 0x005, 0x00A] → Acts (.movts g f) [f.sd] (fun _ s => s))
    ∧ Acts (.syncpartWrite g f) [f.sd] (fun c s =>
        let k := actCore s
        let part := v c % 2 ^ 16
        checkLines (setActCore s { k with lines := part, arrived := k.arrived &&& part }) s.core (without (k.lines ||| part) (k.lines &&& part)))
    ∧ Acts (.feclrWrite g f) [f.sd] (fun c s =>
        if (readS c f.sd).getLsbD 0 ∧ (actCtx s).sp.felogSet ≠ s.now + 1
        then setAct s { actCtx s with sp := { (actCtx s).sp with felog := none, felogAt := 0 } } else s)
    ∧ Acts (.srseedWrite g f) [f.sd] (fun c s => setActCore s { actCore s with seed := readS c f.sd, gen := seedLoad (readS c f.sd) })
    ∧ Completes (.qcfgWrite g f) (fun j =>
        Clean [f.sd] j ∧ queueTargeted j.ctx (f.num - 64) = false
        ∧ ∀ b ∈ banksOf (qcfgWord (v j.ctx)), bankFree j.core.vrf j.st.cx b = true) (fun j =>
        ((banksOf (qcfgWord (v j.ctx))).foldl (fun (j : Iss) b => j.setCore { j.core with vrf := claimBank j.core.vrf j.st.cx b }) j).atEnd
          (fun s => setAct s (setQPtr { actCtx s with qcfg := mapSet (actCtx s).qcfg QCfg.init (f.num - 64) (qcfgWord (v j.ctx)) }
            (f.num - 64) ⟨0, 0⟩)))

/-- Element-wise integer operations (08 R149, R151, 04 R66): low bits kept; shift counts modulo the width; comparisons signed or unsigned by
the T code (4 to 7 signed, 8 to 11 unsigned). -/
def Obligations.VectorIntegerResults : Prop :=
  ∀ (g : Guard) (w : Bool) (f : VX), 4 ≤ f.t → f.t < 12 →
    let b := elemBits f.t
    let z : Nat → Int := fun a => if f.t < 8 then signed b a else a
    let res : Nat → FRes := fun a => ⟨a, 0⟩
    Lanes2 (.vadd g w f) f 2 (fun _ x y => res ((x + y) % 2 ^ b))
    ∧ Lanes2 (.vsub g w f) f 2 (fun _ x y => res ((x + 2 ^ b - y) % 2 ^ b))
    ∧ Lanes2 (.vmul g w f) f 3 (fun _ x y => res (x * y % 2 ^ b))
    ∧ Lanes2 (.vmin g w f) f 2 (fun _ x y => res (if z y < z x then y else x))
    ∧ Lanes2 (.vmax g w f) f 2 (fun _ x y => res (if z x < z y then y else x))
    ∧ Lanes1 (.vabs g w f) f 2 (fun _ x => res (if z x < 0 then (2 ^ b - x) % 2 ^ b else x))
    ∧ Lanes1 (.vneg g w f) f 2 (fun _ x => res ((2 ^ b - x) % 2 ^ b))
    ∧ Lanes2 (.vshl g w f) f 2 (fun _ x y => res (x * 2 ^ (y % b) % 2 ^ b))
    ∧ Lanes2 (.vshr g w f) f 2 (fun _ x y => res (x / 2 ^ (y % b)))
    ∧ Lanes2 (.vsra g w f) f 2 (fun _ x y => res (wrap b (signed b x / 2 ^ (y % b))))

/-- Element-wise operations on bits, on floating and on complex elements (08 R149 to R151, R157, R159, 04 R68 to R75): each result is one
rounding of the exact result, the approximations their own functions. Three-operand elements (08 R153): fused multiply-adds with one rounding, the
complex one, and the integer one with its low bits kept.
Where it follows a convention of the model and not the spec, the convention is log 7, log 8. -/
def Obligations.VectorFloatResults : Prop :=
  (∀ (g : Guard) (w : Bool) (f : VX),
      (Lanes2 (.vand g w f) f 2 (fun _ x y => ⟨x &&& y, 0⟩)
        ∧ Lanes2 (.vor g w f) f 2 (fun _ x y => ⟨x ||| y, 0⟩)
        ∧ Lanes2 (.vxor g w f) f 2 (fun _ x y => ⟨x ^^^ y, 0⟩))
      ∧ (f.t < 4 →
        let fm := fmtOf f.t
        let x (c : Ctx) (a : Nat) : FVal := decodeF fm (dazOf c.sp.flush f.t) a
        let ftz (c : Ctx) : Bool := ftzOf c.sp.flush f.t
        let once (c : Ctx) (v : FVal) : FRes := roundF fm 0 false (ftz c) none v
        Lanes2 (.vadd g w f) f 3 (fun c a b => addF fm f.rm (ftz c) (x c a) (x c b))
        ∧ Lanes2 (.vsub g w f) f 3 (fun c a b => addF fm f.rm (ftz c) (x c a) (x c b).negate)
        ∧ Lanes2 (.vmul g w f) f (if f.t = 0 then 6 else 5) (fun c a b => mulF fm f.rm (ftz c) (x c a) (x c b))
        ∧ Lanes2 (.vmin g w f) f 2 (fun c a b => once c (minV (x c a) (x c b)))
        ∧ Lanes2 (.vmax g w f) f 2 (fun c a b => once c (maxV (x c a) (x c b)))
        ∧ Lanes1 (.vabs g w f) f 2 (fun c a => once c (if (x c a).isNeg then (x c a).negate else x c a))
        ∧ Lanes1 (.vneg g w f) f 2 (fun c a => once c (x c a).negate)
        ∧ Lanes1 (.vrnd g w f) f 3 (fun c a => roundF fm f.rm false (ftz c) none (rndV f.rm (x c a)))
        ∧ Lanes2 (.vscl g w f) f 3 (fun c a b => sclElem c.sp.flush f a b)
        ∧ Lanes1 (.vrcp g f) f 7 (fun c a => rcpF f.t (dazOf c.sp.flush f.t) a)
        ∧ Lanes1 (.vrsq g f) f 7 (fun c a => rsqF f.t (dazOf c.sp.flush f.t) a)
        ∧ Lanes1 (.vexp2 g f) f 9 (fun c a => exp2F f.t (dazOf c.sp.flush f.t) (ftz c) a)
        ∧ Lanes1 (.vlog2 g f) f 9 (fun c a => log2F f.t (dazOf c.sp.flush f.t) (ftz c) a))
      ∧ (f.t = 12 ∨ f.t = 13 →
        let fm := fmtOf f.t
        let half := 2 ^ (elemBits f.t / 2)
        let re (c : Ctx) (a : Nat) : FVal := decodeF fm (dazOf c.sp.flush f.t) (a % half)
        let im (c : Ctx) (a : Nat) : FVal := decodeF fm (dazOf c.sp.flush f.t) (a / half % half)
        let ftz (c : Ctx) : Bool := ftzOf c.sp.flush f.t
        Lanes2 (.vadd g w f) f 3 (fun c a b => cxOut f.t (addF fm f.rm (ftz c) (re c a) (re c b)) (addF fm f.rm (ftz c) (im c a) (im c b)))
        ∧ Lanes2 (.vsub g w f) f 3 (fun c a b =>
            cxOut f.t (addF fm f.rm (ftz c) (re c a) (re c b).negate) (addF fm f.rm (ftz c) (im c a) (im c b).negate))
        ∧ Lanes2 (.vcmul g w f) f 6 (fun c a b =>
            cxOut f.t (dot2F fm f.rm (ftz c) (re c a) (re c b) (im c a).negate (im c b) none)
              (dot2F fm f.rm (ftz c) (re c a) (im c b) (im c a) (re c b) none))
        ∧ Lanes1 (.vconj g w f) f 2 (fun c a =>
            cxOut f.t (roundF fm 0 false (ftz c) none (re c a)) (roundF fm 0 false (ftz c) none (im c a).negate))))
  ∧ (∀ (g : Guard) (w : Bool) (f : VY),
      let x (c : Ctx) (a : Nat) : FVal := decodeF (fmtOf f.ft) (dazOf c.sp.flush f.ft) a
      let fma (c : Ctx) (p q r : FVal) : FRes := fmaF (fmtOf f.ft) f.rm (ftzOf c.sp.flush f.ft) p q r
      let lat := if f.ft = 0 then 6 else 5
      Lanes3 (.vfma g w f) f (elemBits f.ft) lat (fun c p q r => fma c (x c p) (x c q) (x c r))
      ∧ Lanes3 (.vfms g w f) f (elemBits f.ft) lat (fun c p q r => fma c (x c p) (x c q) (x c r).negate)
      ∧ Lanes3 (.vfnma g w f) f (elemBits f.ft) lat (fun c p q r => fma c (x c p).negate (x c q) (x c r))
      ∧ Lanes3 (.vimad g w f) f (elemBits (7 - f.ft)) 3 (fun _ p q r => ⟨(p * q + r) % 2 ^ elemBits (7 - f.ft), 0⟩)
      ∧ Lanes3 (.vcma g w f) f (elemBits (13 - f.ft)) 6 (fun c p q r => cmaElem (13 - f.ft) f c.sp.flush p q r))

/-- Conversions (08 R154 to R156): active elements in ascending order draw from the core's generator; VPACK writes elements and scale bytes,
VUNPK multiplies each element by its block's scale, which for a scalar broadcast is a free value (log 24).
Where it follows a convention of the model and not the spec, the convention is log 24. -/
def Obligations.VectorConversions : Prop :=
  ∀ (g : Guard) (w : Bool) (f : VC),
    let ws := elemBits f.st
    let wd := elemBits f.dt
    CompletesTo (.vcvt g w f) (fun j k => ∃ j' rows,
      let m := Nat.max ws wd
      let n := widthOf f.w / m
      let out := cvtElems j.flush f ((List.range n).map (fun e => (activeElem j.ctx f.msk m e, elem ws (rowBits rows 0) e))) j.core.gen
      j.sources ws n [f.va] [] = .ok (j', rows)
      ∧ (j'.setCore { j'.core with gen := out.2 }).vectorOut f.vd 3 wd out.1 rows = .ok k)
    ∧ GivesRow (.vsat g w f) ws (widthOf f.w / ws) [f.va] f.vd 2 ws (fun c r => (List.range (widthOf f.w / ws)).map (fun e =>
        if activeElem c f.msk ws e then satElem c.sp.flush f (elem ws (r 0) e) else if f.z = 1 then ⟨0, 0⟩ else ⟨elem ws (r 0) e, 0⟩))
    ∧ CompletesTo (.vpack g f) (fun j k => ∃ j' rows,
        let n := widthOf f.w / ws
        let vs := (List.range n).map (fun e => decodeF (fmtOf f.st) (dazOf j.flush f.st) (elem ws (rowBits rows 0) e))
        let one := packBlock j.flush f.st f.dt f.rm (vs.take 32) j.core.gen
        let two := if n = 64 then packBlock j.flush f.st f.dt f.rm (vs.drop 32) one.2.2 else (0, [], one.2.2)
        j.sources ws n [f.va] [] = .ok (j', rows)
        ∧ (j'.setCore { j'.core with gen := two.2.2 }).result f.vd 5
            ⟨packedRow (mxElem f.dt).2.1 ((one.2.1 ++ two.2.1).map (·.code)) (if n = 64 then [one.1, two.1] else [one.1]), markOf rows⟩
            (firstKind ((one.2.1 ++ two.2.1).map (·.kind))) = .ok k)
    ∧ (f.va < 192 → CompletesTo (.vunpk g f) (fun j k => ∃ j' rows,
        let n := widthOf f.w / wd
        let eb := (mxElem f.st).2.1
        let fm := match f.st with | 18 => 14 | 19 => 15 | _ => 16
        j.sources eb n [f.va] [] = .ok (j', rows)
        ∧ j'.vectorOut f.vd 4 wd ((List.range n).map (fun e =>
            let v := mulV (scaleV (elem 8 (rowBits rows 0) (64 + e / 32))) (decodeF (fmtOf fm) (dazOf j.flush fm) (elem eb (rowBits rows 0) e))
            let sat := f.sat = 1 ∧ v ≠ .inf false ∧ v ≠ .inf true
            roundF (fmtOf f.dt) f.rm sat (ftzOf j.flush f.dt) none v)) rows = .ok k))
    ∧ (192 ≤ f.va → CompletesTo (.vunpk g f) (fun j k => ∃ j' rows,
        let n := widthOf f.w / wd
        let eb := (mxElem f.st).2.1
        let fm := match f.st with | 18 => 14 | 19 => 15 | _ => 16
        j.sources eb n [f.va] [] = .ok (j', rows)
        ∧ j'.vectorOut f.vd 4 wd ((List.range n).map (fun e =>
            let v := mulV (scaleV (Config.broadcastScale f.st (readS j.ctx (f.va % 64)) % 256)) (decodeF (fmtOf fm) (dazOf j.flush fm) (elem eb (rowBits rows 0) e))
            let sat := f.sat = 1 ∧ v ≠ .inf false ∧ v ≠ .inf true
            roundF (fmtOf f.dt) f.rm sat (ftzOf j.flush f.dt) none v)) rows = .ok k))

/-- Reductions (08 R158, 04 R79): the sum or dot product of the active elements in element 0 of a zero row, integers exactly modulo the
width; the largest element, an inactive one entering as the type's minimum or as NaN. -/
def Obligations.VectorReductions : Prop :=
  ∀ (g : Guard) (w : Bool) (f : VX),
    let b := elemBits f.t
    let n := widthOf f.w / b
    let z : Nat → Int := fun a => intOf f.t b a
    let zero : Instr → List Nat → Nat → (Ctx → (Nat → BitVec 1024) → Nat × Nat) → Prop := fun i sels lat v =>
      CompletesTo i (fun j k => ∃ j' rows, j.sources b n sels [] = .ok (j', rows)
        ∧ j'.result f.vd lat ⟨BitVec.ofNat 1024 ((v j.ctx (rowBits rows)).1 % 2 ^ b), markOf rows⟩ (v j.ctx (rowBits rows)).2 = .ok k)
    (isFloatV f.t = false →
      zero (.vsum g w f) [f.va] (4 + f.w) (fun c r =>
        (wrap b (((List.range n).filter (fun e => activeElem c f.msk b e)).map (fun e => z (elem b (r 0) e))).sum, 0))
      ∧ zero (.vdot g w f) [f.va, f.vb] (6 + f.w) (fun c r =>
        (wrap b (((List.range n).filter (fun e => activeElem c f.msk b e)).map (fun e => z (elem b (r 0) e) * z (elem b (r 1) e))).sum, 0))
      ∧ zero (.vmaxr g w f) [f.va] (4 + f.w) (fun c r =>
        (wrap b (((List.range n).filter (fun e => activeElem c f.msk b e)).foldl (fun m e => max m (z (elem b (r 0) e))) (intLo f.t b)), 0)))
    ∧ (isFloatV f.t = true →
      let x (c : Ctx) (a : Nat) : FVal := decodeF (fmtOf f.t) (dazOf c.sp.flush f.t) a
      let add (c : Ctx) := addF (fmtOf f.t) f.rm (ftzOf c.sp.flush f.t)
      let out (t : Node) : Nat × Nat := ((roundF (fmtOf f.t) 0 false (ftzOf 0 f.t) none t.v).code, evKind t.ev 0)
      zero (.vsum g w f) [f.va] (4 + f.w) (fun c r => out (treeSum (add c) (fmtOf f.t) 8 1 1 0
        ((List.range n).map (fun e => if activeElem c f.msk b e then ⟨x c (elem b (r 0) e), none⟩ else ⟨.num false 0 0, none⟩))))
      ∧ zero (.vdot g w f) [f.va, f.vb] (6 + f.w) (fun c r => out (treeSum (add c) (fmtOf f.t) 8 1 1 0
        ((List.range n).map (fun e =>
          let p := x c (elem b (r 0) e)
          let q := x c (elem b (r 1) e)
          if activeElem c f.msk b e then ⟨mulV p q, if (mulV p q).isNan ∧ ¬ p.isNan ∧ ¬ q.isNan then some (e, 0, 1) else none⟩
          else ⟨.num false 0 0, none⟩))))
      ∧ zero (.vmaxr g w f) [f.va] (4 + f.w) (fun c r => out (treeSum
        (fun p q => roundF (fmtOf f.t) f.rm false (ftzOf c.sp.flush f.t) none (maxV p q)) (fmtOf f.t) 8 1 1 0
        ((List.range n).map (fun e => ⟨if activeElem c f.msk b e then x c (elem b (r 0) e) else .nan, none⟩)))))

/-- Moves and permutations (08 R160 to R162): element e of the result is the named element of the source. -/
def Obligations.VectorMoves : Prop :=
  (∀ (g : Guard) (w : Bool) (f : VX),
    let b := elemBits f.t
    let n := widthOf f.w / b
    GivesRow (.vperm g f) b n [f.va, f.vb] f.vd 4 b (fun c r => (List.range n).map (fun e =>
      if activeElem c f.msk b e then ⟨elem b (r 0) (elem b (r 1) e % n), 0⟩ else if f.z = 1 then ⟨0, 0⟩ else ⟨elem b (r 0) e, 0⟩))
    ∧ GivesRow (.vsel g w f) b n [f.va, f.vb] f.vd 2 b (fun c r => (List.range n).map (fun e =>
      if activeElem c f.msk b e then ⟨elem b (r 0) e, 0⟩ else ⟨elem b (r 1) e, 0⟩))
    ∧ GivesRow (.vmov g w f) b n (if 16 ≤ f.msk ∧ f.z = 0 then [f.va, f.vb] else [f.va]) f.vd 2 b (fun c r => (List.range n).map (fun e =>
      if activeElem c f.msk b e then ⟨elem b (r 0) e, 0⟩ else if f.z = 1 then ⟨0, 0⟩ else ⟨elem b (r 1) e, 0⟩)))
  ∧ (∀ (g : Guard) (w : Bool) (f : VI),
    let b := elemBits f.t
    let n := widthOf f.w / b
    let p := f.imm % 4096
    GivesRow (.vshuf g f) b n [f.va] f.vd 4 b (fun _ r => (List.range n).map (fun e =>
      ⟨elem b (r 0) (match f.imm / 4096 with | 0 => (e + p) % n | 1 => e ^^^ (2 ^ p - 1) | _ => e ^^^ p), 0⟩))
    ∧ GivesRow (.vbcast g w f) b n [f.va] f.vd 2 b (fun _ r => (List.range n).map (fun _ => ⟨elem b (r 0) f.imm, 0⟩)))

/-- Lane masks (08 R152, R163) and QADV (R164): mask bits of b / 8 for each element; counts and firsts over the elements of the stated size;
a queue's head moves on by the count. -/
def Obligations.LaneMaskResults : Prop :=
  (∀ (g : Guard) (w : Bool) (f : VX),
    let b := elemBits f.t
    let n := widthOf f.w / b
    let cc := 2 * f.rm + f.z
    CompletesTo (.vcmp g w f) (fun j k => ∃ j' rows,
      let hold : Nat → Bool := fun e =>
        let x := elem b (rowBits rows 0) e
        let y := elem b (rowBits rows 1) e
        activeElem j.ctx f.msk b e && (if isFloatV f.t
          then cmpV cc (decodeF (fmtOf f.t) (dazOf j.flush f.t) x) (decodeF (fmtOf f.t) (dazOf j.flush f.t) y)
          else cmpI cc (intOf f.t b x) (intOf f.t b y))
      j.sources b n [f.va, f.vb] [] = .ok (j', rows)
      ∧ k = (j'.consumeRows [f.va, f.vb] rows).add 2 (.mask (f.vd % 16) (BitVec.ofNat 128 (maskBits b ((List.range n).map hold)))) none 0)
    ∧ ∀ (flags : List Bool) (i : Nat), i < flags.length * (b / 8) →
        (maskBits b flags).testBit i = flags.getD (i / (b / 8)) false)
  ∧ (∀ (g : Guard) (w : Bool) (f : VM),
    let n := widthOf f.w / 8
    let size := 8 * 2 ^ (f.fn % 4)
    let sets : Instr → List Nat → (Ctx → Nat) → Prop := fun i srcs v =>
      Completes i (Clean srcs) (fun j => j.add 2 (.mask f.ed (BitVec.ofNat 128 (v j.ctx % 2 ^ n))) none 0)
    let low : Ctx → Nat → Nat := fun c e => (readE c e).toNat % 2 ^ n
    let hits : Ctx → List Nat := fun c => (List.range (widthOf f.w / size)).filter (fun i => (readE c f.ea).getLsbD (size * i / 8))
    sets (.vmset g w f) [f.sd] (fun c => 2 ^ (min (readS c f.sd).toNat (widthOf f.w / size) * (size / 8)) - 1)
    ∧ sets (.vmand g w f) [] (fun c => low c f.ea &&& low c f.eb)
    ∧ sets (.vmor g w f) [] (fun c => low c f.ea ||| low c f.eb)
    ∧ sets (.vmnot g w f) [] (fun c => 2 ^ n - 1 - low c f.ea)
    ∧ GivesScalar (.vmcnt g w f) 2 f.sd [] (fun c => BitVec.ofNat 64 (hits c).length)
    ∧ GivesScalar (.vmfirst g w f) 2 f.sd [] (fun c => BitVec.ofNat 64 ((hits c).headD (widthOf f.w / size))))
  ∧ (∀ (g : Guard) (w : Bool) (f : VQ), Completes (.qadv g w f) (fun j =>
      (qcfgOf j.ctx f.qn).cls ≠ 0 ∧ f.cnt ≤ (qptrOf j.ctx f.qn).count ∧ f.cnt ≤ (qcfgOf j.ctx f.qn).depth)
      (fun j => j.setCtx (advance j.ctx f.qn f.cnt)))

/-- Matrix operations (09 R166 to R177): with aligned operands inside their buffers and the partition's own regions, a multiply enters the MX
queue with its operands, MNEST with all of its passes, and the tile operations with theirs.
Where it follows a convention of the model and not the spec, the convention is log 29. -/
def Obligations.MatrixQueue : Prop :=
  (∀ (g : Guard) (f : MA),
    let enters : Instr → Bool → Bool → Prop := fun i sparse zero =>
      Completes i (fun j =>
        let a := (readS j.ctx f.sa).toNat % 1048576
        let w := (readS j.ctx f.sb).toNat % 2097152
        Clean [f.sa, f.sb] j ∧ a % 64 = 0 ∧ w % 64 = 0 ∧ a + (f.mr + 1) * mxP f.fmt sparse ≤ 1048576 ∧ w + 160 * mxQ f.fmt sparse ≤ 2097152
        ∧ Owns j 1 a ((f.mr + 1) * mxP f.fmt sparse) ∧ Owns j 0 w (160 * mxQ f.fmt sparse) ∧ Owns j 2 (81920 * f.acc) 81920) (fun j =>
        j.enqueue { j.blankOp 0 with
          acc := f.acc, bt := f.acc, a := (readS j.ctx f.sa).toNat % 1048576, w := (readS j.ctx f.sb).toNat % 2097152, rows := f.mr + 1,
          skip := if f.skip = 1 then readE j.ctx f.em else 0#128, fmt := f.fmt,
          fn := f.fn % 2 + (if sparse then 2 else 0), passes := 1, astep := 0, wstep := 0, first := zero })
    enters (.mma g f) false false ∧ enters (.mmaz g f) false true ∧ enters (.mmas g f) true false)
  ∧ (∀ (g : Guard) (f : MC),
    let fmt := f.imm % 16
    Completes (.mnest g f) (fun j =>
      let x := (readS j.ctx f.sa).toNat
      let sparse := x.testBit 58
      let n := field x 45 7 + 1
      Clean [f.sa] j ∧ (sparse = true → Machine.sparseFmt fmt = true) ∧ (x.testBit 59 = true → hasPartner fmt = true) ∧ Owns j 2 (81920 * field x 41 4) 81920
      ∧ ∀ p, p < field f.imm 4 4 + 1 →
        let a := field x 0 20 + 64 * p * field f.imm 8 12
        let w := field x 20 21 + 64 * p * field f.imm 20 12
        a % 64 = 0 ∧ w % 64 = 0 ∧ a + n * mxP fmt sparse ≤ 1048576 ∧ w + 160 * mxQ fmt sparse ≤ 2097152
        ∧ Owns j 1 a (n * mxP fmt sparse) ∧ Owns j 0 w (160 * mxQ fmt sparse)) (fun j =>
      let x := (readS j.ctx f.sa).toNat
      j.enqueue { j.blankOp 0 with
        acc := field x 41 4, bt := field x 41 4, a := field x 0 20, w := field x 20 21, rows := field x 45 7 + 1,
        skip := if x.testBit 53 then readE j.ctx (field x 54 4) else 0#128, fmt := fmt,
        fn := (if x.testBit 59 then 1 else 0) + (if x.testBit 58 then 2 else 0), passes := field f.imm 4 4 + 1, astep := field f.imm 8 12,
        wstep := field f.imm 20 12, first := x.testBit 52 })
    ∧ Completes (.mcfg g f) (fun _ => True) (fun j => j.writeS 1 f.sa (BitVec.ofNat 64 (match f.imm with
      | 0 => 0x04000080008000A0
      | 1 => busyTiles j.core
      | _ => j.core.mx.q.length + 16 * loaderEntries j.core))))
  ∧ (∀ (g : Guard) (f : MT),
    let tiles : Iss → Prop := fun j => Owns j 2 (81920 * f.acc) 81920 ∧ Owns j 2 (81920 * f.bt) 81920
    let op : Iss → Nat → MxOp := fun j opc => { j.blankOp opc with acc := f.acc, bt := f.bt, fmt := f.fmt, fn := f.fn, rm := f.rm }
    Completes (.mzero g f) (fun j => Owns j 2 (81920 * f.acc) 81920) (fun j => j.enqueue { j.blankOp 0x14 with acc := f.acc, bt := f.acc, fmt := f.fmt })
    ∧ Completes (.mtrn g f) tiles (fun j => j.enqueue (op j 0x10))
    ∧ Completes (.macc g f) tiles (fun j => j.enqueue (op j 0x11))
    ∧ Completes (.mcvt g f) tiles (fun j => j.enqueue { op j 0x12 with draws := if f.rm = 4 ∧ j.core.mx.q = [] then [j.seed.toNat] else [] })
    ∧ Completes (.mred g f) (fun j => Clean [f.sa] j ∧ tiles j) (fun j =>
        let m := (readS j.ctx f.sa).toNat % 256
        j.enqueue { op j 0x13 with a := if m = 0 ∨ 128 < m then 128 else m })
    ∧ Completes (.mwait g f) (fun j => busyTiles j.core &&& (if f.fn % 65536 = 0 then 65535 else f.fn % 65536) = 0) (fun j => j))
  ∧ (∀ (g : Guard) (f : MW),
    let w : Iss → Nat := fun j => (readS j.ctx f.sa).toNat % 2097152
    let fits : Iss → Prop := fun j =>
      Clean [f.sa] j ∧ w j % 64 = 0 ∧ w j + 160 * mxQ f.fmt (f.fn % 2 = 1) ≤ 2097152 ∧ Owns j 0 (w j) (160 * mxQ f.fmt (f.fn % 2 = 1))
    let mine : Iss → WLoad → Bool := fun j l =>
      l.waitFor && l.ctx == j.st.cx && l.stage == f.wb && l.w == w j && l.fmt == f.fmt && l.form == f.fn % 2
    Completes (.mwpf g f) fits (fun j => j.atEnd (enterLoader (loadOf j f (w j) false)))
    ∧ Completes (.mwld g f) (fun j => fits j ∧ ∃ l, j.core.mx.wl.find? (mine j) = some l ∧ l.done = true) (fun j =>
        j.atEnd (fun s => setActCore s { actCore s with mx := { (actCore s).mx with wl := (actCore s).mx.wl.filter (fun e => !mine j e) } })))

/-- Loads (11 R216 to R223, 10 R208, 27 R453): the destination and the memory operand are found, then a line-cache hit lands its bytes 14
cycles after issue, a miss takes a request whose data lands 192 cycles after its calendar slot, a register object reads at issue.
Where it follows a convention of the model and not the spec, the convention is log 5, log 30, log 78. -/
def Obligations.LoadIssue : Prop :=
  (∀ (g : Guard) (f : MM),
    let place : Nat → Nat → Option Nat → Iss → Iss → Land → Place → Prop := fun imm rc far j k d p =>
      Clean [f.so] j ∧ ∃ j1, j.loadDest f.sz f.ds = .ok (j1, d)
        ∧ j1.locate f.cb (globalAddr j.ctx f.so imm (sizeUnit f.sz)) (sizeBytes f.sz) (sizeAlign f.sz) rLOAD f.sz false rc far = .ok (k, p)
    CompletesTo (.lds g f) (fun j k => ∃ j' d ps, place f.imm (if f.sz = 3 then 0 else 0x16) (some 0x1D) j j' d (.mem ps) ∧ j'.loadMem f.cl ps d false = .ok k)
    ∧ CompletesTo (.lds g f) (fun j k => ∃ j' d die off, place f.imm (if f.sz = 3 then 0 else 0x16) (some 0x1D) j j' d (.reg die off)
        ∧ k = ({ j' with st := regAfterRead j'.st die off } : Iss).writeS 32 (f.ds % 64) (BitVec.ofNat 64 (regRead j'.st die off)))
    ∧ CompletesTo (.ldv g f) (fun j k => ∃ j' d ps, place f.imm 0x16 (some 0x1D) j j' d (.mem ps) ∧ j'.loadMem f.cl ps d false = .ok k)
    ∧ CompletesTo (.ldf g f) (fun j k => ∃ j' d ps, place 0 0x16 none j j' d (.mem ps) ∧ k = j'.loadFar f.cl (8 * f.imm) ps d)
    ∧ CompletesTo (.ldx g f) (fun j k => Clean [f.so] j ∧ ∃ j' ps,
        j.locate f.cb (globalAddr j.ctx f.so f.imm 16) 16 16 rLOAD 0 false 0x16 (some 0x1D) = .ok (j', .mem ps)
        ∧ j'.loadMem f.cl ps (.cap (f.ds % 16) Cap.zero) ((readC j.ctx f.cb).grants 4) = .ok k)
    ∧ Completes (.pref g f) (fun j => Clean [f.so] j ∧
        (let c := readC j.ctx f.cb
         let o := globalAddr j.ctx f.so f.imm 1
         c.tag = false ∨ c.grants rLOAD = false ∨ o < c.lower ∨ c.upper ≤ o ∨ c.home ≠ Config.moduleNumber)) (fun j => j)
    ∧ (∀ dir nblk p leaf, CompletesWith (.pref g f) (fun j => Clean [f.so] j ∧
        (let c := readC j.ctx f.cb
         let o := globalAddr j.ctx f.so f.imm 1
         c.tag = true ∧ c.grants rLOAD = true ∧ c.lower ≤ o ∧ o < c.upper ∧ c.home = Config.moduleNumber ∧ c.index < 67108856
         ∧ j.core.ms.objCache.contains c.obj = true ∧ objEntry j.st (ctxJob j.st j.st.core j.st.cx) j.die c.index = some (dir, nblk)
         ∧ o / 65536 < nblk ∧ walk j.st j.die dir (o / 256 * 256) = .hbm p leaf))
        (fun j k => if dieOfAddr p ≠ j.die ∨ hitsCache j.st j.st.core j.ctx.world [(p, leaf, 256)] = true then k = j
          else ∃ slot l, k.core.ms.loads = j.core.ms.loads ++ [l] ∧ l.pieces = [(p, leaf, 256)] ∧ l.slot = some slot ∧ l.fin = some (slot + 152)
            ∧ l.fill = true ∧ l.world = j.ctx.world ∧ k.pends = [])))
  ∧ (∀ (j : Iss) (cls : Nat) (ps : List (Nat × Nat × Nat)) (dst : Land) (cap : Bool), ps ≠ [] →
    (j.hits ps = true → j.loadMem cls ps dst cap = .ok (j.add 14 (landValue dst
        (readLines j.st j.st.core j.st.cx j.ctx.world ps) false (cap && forwardTag j.st j.st.core j.st.cx (firstView j.ctx.world ps)
          (field (mapGet j.core.ms.lines Line.init (lineKey (firstView j.ctx.world ps) j.ctx.world)).tags (firstView j.ctx.world ps % 128 / 16) 1 = 1))) none 0))
    ∧ (j.hits ps = false → j.waitsOrder cls ps false false = false →
        ∃ k key slot l, j.loadMem cls ps dst cap = .ok k
          ∧ k.pends = j.pends ++ [(j.slot, { due := j.clock + (slot - j.st.now + 192), iss := j.clock, what := dst, ring := none, waits := some key,
                                             note := none, src := none, acq := false, check := none, struck := false })]
          ∧ k.core.ms.loads = j.core.ms.loads ++ [l] ∧ l.key = key ∧ l.pieces = ps ∧ l.world = j.ctx.world ∧ l.dst = dst ∧ l.slot = some slot
          ∧ l.fin = some (slot + 152) ∧ l.wantTag = cap))

/-- Typed-buffer access (11 R222, 10 R202, 23 R396): with an aligned operand inside a buffer the form may use and in the partition's own
regions, LDB takes the bytes the context sees and lands them 4 cycles later, and STB enters the gated store buffer; LDB waits for the requests of
the context it is ordered behind (13 R267), and for a C-buffer tile that an operation of the MX queue uses (09 R167).
Where it follows a convention of the model and not the spec, the convention is log 5, log 70. -/
def Obligations.TypedBufferAccess : Prop :=
  (∀ (g : Guard) (f : MM),
    let code := f.cb / 4
    let n := sizeBytes f.sz
    let a : Iss → Nat := fun j => bufferAddr j.ctx f.so f.imm (sizeUnit f.sz)
    let fits : Iss → Prop := fun j => Clean [f.so] j ∧ a j % sizeAlign f.sz = 0 ∧ a j + n ≤ bufSize code
    let quiet : Iss → Prop := fun j => j.waitsLate ⟨0, f.cl, 0, 1 + code, [(a j, n)], false⟩ false = false
    let tiles : Iss → Bool := fun j =>
      (List.range 16).any (fun t => busyTile j.core t && decide (a j < 81920 * (t + 1)) && decide (81920 * t < a j + n))
    let lands : Iss → Land → Iss := fun j v => { j with pends := j.pends ++ [(j.slot,
      { due := j.clock + 4, iss := j.clock, what := v, ring := none, waits := none, note := none, src := some ⟨code, f.cl, a j, n, j.core.ms.gates⟩,
        acq := false, check := none, struck := false })] }
    (f.sz < 4 → Completes (.ldb g f) (fun j => fits j ∧ code ≠ 0 ∧ Owns j code (a j) n ∧ quiet j ∧ (code = 2 → tiles j = false)
        ∧ (readBuf j.st j.st.core j.st.cx code (a j) n).2 = false) (fun j =>
      lands j (.scalar (f.ds % 64) (BitVec.ofNat 64 (leVal (readBuf j.st j.st.core j.st.cx code (a j) n).1)))))
    ∧ (4 ≤ f.sz → CompletesTo (.ldb g f) (fun j k => ∃ j1 row, j.claim (f.ds % 64) = .ok (j1, row) ∧ fits j1 ∧ code ≠ 0
        ∧ Owns j1 code (a j1) n ∧ quiet j1 ∧ (code = 2 → tiles j1 = false)
        ∧ k = lands j1 (landValue (.row (f.ds % 64) row Row.zero) (readBuf j1.st j1.st.core j1.st.cx code (a j1) n).1
            (readBuf j1.st j1.st.core j1.st.cx code (a j1) n).2 false)))
    ∧ (f.sz < 4 → code ≠ 0 → Waits (.ldb g f) (fun j => fits j ∧ Owns j code (a j) n ∧ ¬ quiet j) (fun _ s => s))
    ∧ (f.sz < 4 → code = 2 → Waits (.ldb g f) (fun j => fits j ∧ Owns j code (a j) n ∧ tiles j = true) (fun _ s => s))
    ∧ (f.sz < 4 → Completes (.stb g f) (fun j => fits j ∧ Clean [f.ds % 64] j ∧ (code = 1 ∨ code = 3) ∧ Owns j code (a j) n) (fun j =>
      j.gate f.cl (.buf code (a j)) (leBytes n (readS j.ctx (f.ds % 64)).toNat) false false))
    ∧ (4 ≤ f.sz → CompletesTo (.stb g f) (fun j k => ∃ j1 rows, j.sources 64 16 [f.ds] [] = .ok (j1, rows) ∧ fits j1
        ∧ (code = 1 ∨ code = 3) ∧ Owns j1 code (a j1) n
        ∧ k = j1.gate f.cl (.buf code (a j1)) (leBytes n (rowBits rows 0).toNat) false ((rows.headD Row.zero).isBad))))
  ∧ ∀ (j : Iss) (cls : Nat) (tgt : Target) (data : List Byte) (tag bad : Bool),
      (j.gate cls tgt data tag bad).core.ms.gated = j.core.ms.gated ++ [{ Store.fresh j.st.cx cls tgt data tag bad with id := j.core.ms.gates }]
      ∧ (j.gate cls tgt data tag bad).st.mem = j.st.mem ∧ (j.gate cls tgt data tag bad).ctx = j.ctx
      ∧ (j.gate cls tgt data tag bad).core.bufs = j.core.bufs

/-- Stores to global memory (11 R216 to R221, 10 R214, 27 R453): with the operand found, STS, STV and STX enter the gated store buffer with
the bytes and the place they name; a stored tag is that of the capability AND STORECAP of the one used. -/
def Obligations.StoreIssue : Prop :=
  (∀ (g : Guard) (f : MM),
    let off : Nat → Iss → Nat := fun unit j => globalAddr j.ctx f.so f.imm unit
    CompletesTo (.sts g f) (fun j k => Clean [f.ds % 64, f.so] j ∧ ∃ j1 p,
        j.locate f.cb (off (sizeUnit f.sz) j) (sizeBytes f.sz) (sizeAlign f.sz) rSTORE f.sz true (if f.sz = 3 then 0 else 0x16) none = .ok (j1, p)
        ∧ k = j1.storeTo f.cb (off (sizeUnit f.sz) j) f.cl p (leBytes (sizeBytes f.sz) (readS j.ctx (f.ds % 64)).toNat) false)
    ∧ CompletesTo (.stv g f) (fun j k => ∃ j1 rows, j.sources 64 16 [f.ds] [] = .ok (j1, rows) ∧ (rows.headD Row.zero).isBad = false
        ∧ Clean [f.so] j1 ∧ ∃ j2 p,
        j1.locate f.cb (off (sizeUnit f.sz) j1) (sizeBytes f.sz) (sizeAlign f.sz) rSTORE f.sz true 0x16 none = .ok (j2, p)
        ∧ k = j2.storeTo f.cb (off (sizeUnit f.sz) j1) f.cl p (leBytes (sizeBytes f.sz) (rowBits rows 0).toNat) false)
    ∧ CompletesTo (.stx g f) (fun j k => Clean [f.so] j ∧ ∃ j1 p,
        j.locate f.cb (off 16 j) 16 16 rSTORE 0 true 0x16 none = .ok (j1, p)
        ∧ k = j1.storeTo f.cb (off 16 j) f.cl p (leBytes 16 (readC j.ctx (f.ds % 16)).bits.toNat)
            ((readC j.ctx (f.ds % 16)).tag && (readC j.ctx f.cb).grants 8)))
  ∧ ∀ (j : Iss) (ci off cls : Nat) (data : List Byte) (tag : Bool),
    (∀ d o, j.storeTo ci off cls (.reg d o) data tag = j.gate cls (.reg d o) data false false)
    ∧ (∀ ps, ps ≠ [] → j.ctx.world = 0 → j.storeTo ci off cls (.mem ps) data tag = j.gate cls (.mem 0 ps) data tag false)

/-- ATOM, ARREXP and ARRIVE (11 R225, R226, R233, R234): with the operand found, and room for its overlay records, one request that names the
operation and its operands leaves for its controller; ATOM's old value is awaited in its scalar.
Where it follows a convention of the model and not the spec, the convention is log 30. -/
def Obligations.AtomicIssue : Prop :=
  (∀ (g : Guard) (f : MD) (j1 : Iss) (p : Nat × Nat × Nat) (ps : List (Nat × Nat × Nat)),
    let sz := 2 + field f.fn 4 1
    CompletesWith (.atom g f) (fun j =>
        let off := globalAddr j.ctx f.so 0 1
        Clean (if f.fn % 16 = 9 then [f.ds % 64, f.ds % 64 + 1, f.so] else [f.ds % 64, f.so]) j
        ∧ j.locate f.cb off (2 ^ sz) (2 ^ sz) rATOMIC sz true 0x1C (some 0x1C) = .ok (j1, .mem (p :: ps))
        ∧ j1.waitsOrder f.cl (p :: ps) false (2 ≤ field f.fn 5 2) = false ∧ j1.overlayRoom (readC j1.ctx f.cb) off (p :: ps) = j1)
      (fun j k => ∃ m key due, k.core.ms.atoms = j1.core.ms.atoms ++ [m] ∧ m.ctx = j1.st.cx ∧ m.cls = f.cl ∧ m.op = f.fn % 16 ∧ m.bytes = 2 ^ sz
        ∧ m.world = j1.ctx.world ∧ m.pieces = p :: ps ∧ m.x = readS j.ctx (f.ds % 64) ∧ m.ord = field f.fn 5 2 ∧ m.scope = field f.fn 7 3
        ∧ (f.fn % 16 = 9 → m.y = readS j.ctx (f.ds % 64 + 1)) ∧ m.key = some key
        ∧ k.pends = [(j1.slot, ⟨due, j1.clock, .scalar (f.ds % 64) 0#64, none, some key, none, none,
            field f.fn 5 2 % 2 = 1 && decide (1 < field f.fn 7 3), none, false⟩)]
        ∧ k.st.mem = j1.st.mem))
  ∧ ∀ (g : Guard) (f : MQ) (j1 : Iss) (p : Nat × Nat × Nat) (ps : List (Nat × Nat × Nat)),
    let sends : Instr → Nat → Nat → Prop := fun i op ord =>
      CompletesWith i (fun j =>
          let off := globalAddr j.ctx f.sa 0 1
          Clean [f.sb, f.sa] j ∧ j.locate (field f.imm 22 4) off 16 16 rATOMIC 0 true 0x1C none = .ok (j1, .mem (p :: ps))
          ∧ j1.overlayRoom (readC j1.ctx (field f.imm 22 4)) off (p :: ps) = j1)
        (fun j k => ∃ m, k.core.ms.atoms = j1.core.ms.atoms ++ [m] ∧ m.ctx = j1.st.cx ∧ m.op = op ∧ m.bytes = 16 ∧ m.world = j1.ctx.world
          ∧ m.pieces = p :: ps ∧ m.x = readS j.ctx f.sb &&& 0xFFFFFFFF#64 ∧ m.ord = ord ∧ m.scope = field f.imm 19 3 ∧ m.key = none
          ∧ k.pends = [] ∧ k.st.mem = j1.st.mem)
    sends (.arrexp g f) 16 0 ∧ sends (.arrive g f) 17 2

/-- FENCE and ARRIVE.w (11 R227, R234): the group issues once no access of the context in its classes is open, or once the phase has passed, and
drops the lines of the core where the scope is wider than the core; until then it stalls.
Where it follows a convention of the model and not the spec, the convention is log 53. -/
def Obligations.FenceIssue : Prop :=
  ∀ (g : Guard) (f : MQ),
    let wide : Nat → Iss → Iss := fun scope j => if 1 < scope then j.atEnd (fun s => dropLines s s.core s.cx) else j
    let mask := if f.imm % 65536 = 0 then 65535 else f.imm % 65536
    Completes (.fence g f) (fun j => fenceOpen j.st j.st.core j.st.cx mask j.seq0 = false) (wide (field f.imm 16 3))
    ∧ Waits (.fence g f) (fun j => fenceOpen j.st j.st.core j.st.cx mask j.seq0 = true) (fun _ s => s)
    ∧ (∀ (j1 : Iss) (p : Nat × Nat × Nat) (ps : List (Nat × Nat × Nat)),
      let found : Iss → Prop := fun j => Clean [f.sb, f.sa] j
        ∧ j.locate (field f.imm 22 4) (globalAddr j.ctx f.sa 0 1) 16 16 rLOAD 0 false 0x1C none = .ok (j1, .mem (p :: ps))
      let behind : Iss → Prop := fun j =>
        2147483648 ≤ (leVal (((j1.peekMem (p :: ps)).drop 8).take 4) + 4294967296 - (readS j.ctx f.sb).toNat % 4294967296) % 4294967296
      Completes (.arriveWait g f) (fun j => found j ∧ ¬ behind j ∧ j1.Sound) (fun _ => wide (field f.imm 19 3) j1)
      ∧ Waits (.arriveWait g f) (fun j => found j ∧ behind j) (fun _ s => s))

/-- Stream ports and rings (11 R228 to R232, 10 R213): SPARM arms a port with the walk its parameter set gives, SPSTOP disarms it, the ring
waits give the slot's address once enough slots are there, and RNGADV and RNGPUB move TAIL, FREE and HEAD by n and end the quiesced state of
subscriptions on the ring (09 R189).
Where it follows a convention of the model and not the spec, the convention is log 31, log 54. -/
def Obligations.StreamsAndRings : Prop :=
  (∀ (g : Guard) (f : MS),
    let code := f.cb / 4
    let a : Iss → Nat := fun j => (readS j.ctx f.sa).toNat % 1048576
    let w : Iss → List Nat := fun j => words8 (readBuf j.st j.st.core j.st.cx 3 (a j) 64).1
    let d : Iss → Nat := fun j => field ((w j).headD 0) 21 3
    let cnts : Iss → List Nat := fun j => (List.range (d j)).map (fun n => field ((w j).getD (n + 1) 0) 0 16)
    let strs : Iss → List Int := fun j => (List.range (d j)).map (fun n => signed 24 (field ((w j).getD (n + 1) 0) 16 24))
    let base : Iss → Nat := fun j => field ((w j).headD 0) 0 21
    let lo : Iss → Int := fun j => walkLow (base j) (cnts j) (strs j)
    let hi : Iss → Int := fun j => walkHigh (base j) (32 * 2 ^ field f.fn 2 2) (cnts j) (strs j)
    Completes (.sparm g f) (fun j => (portOf j.ctx f.gk).armed = false ∧ Clean [f.sa] j ∧ a j % 64 = 0 ∧ (code = 1 ∨ code = 3) ∧ Owns j 3 (a j) 64
        ∧ (readBuf j.st j.st.core j.st.cx 3 (a j) 64).2 = false ∧ streamBad (w j) = false ∧ base j % 32 = 0 ∧ (∀ t ∈ strs j, t % 32 = 0)
        ∧ 0 ≤ lo j ∧ hi j < (bufSize code : Int) ∧ Owns j code (lo j).toNat (hi j - lo j + 1).toNat)
      (fun j => j.setCtx (setPort j.ctx f.gk {
        armed := true, write := f.fn % 2 = 1, swz := field f.fn 1 1 = 1, w := field f.fn 2 2, cls := field f.fn 4 4, buf := code,
        base := base j, cnts := cnts j, strs := strs j, pos := 0, fpos := 0, got := [], start := j.st.now + 4 }))
    ∧ Completes (.spstop g f) (fun j => (portOf j.ctx f.gk).armed = true ∧ portBusy j.ctx f.gk = false) (fun j => j.setCtx (setPort j.ctx f.gk Port.init))
    ∧ Completes (.spstop g f) (fun j => (portOf j.ctx f.gk).armed = false) (fun j => j)
    ∧ Waits (.spstop g f) (fun j => (portOf j.ctx f.gk).armed = true ∧ portBusy j.ctx f.gk = true) (fun _ s => s))
  ∧ ∀ (g : Guard) (f : MQ),
    let a : Iss → Nat := fun j => (readS j.ctx f.sa).toNat % 1048576
    let code := field f.imm 24 2
    let n := f.imm % 4096 + 1
    let hdr : Iss → RingHdr := fun j => hdrOf (readBuf j.st j.st.core j.st.cx code (a j) 64).1
    let found : Iss → Prop := fun j =>
      Clean [f.sa] j ∧ a j % 64 = 0 ∧ a j + 64 ≤ bufSize code ∧ (code = 1 ∨ code = 3) ∧ Owns j code (a j) 64 ∧ n ≤ (hdr j).slots
    let late : State → State := fun s =>
      let t := setAct s { actCtx s with ringWait := (actCtx s).ringWait + 1 }
      if (actCtx s).ringWait = 255 then countEvent t (dieOfCore t.core) 1 1 else t
    let slot : RingHdr → Nat → Nat := fun h t => h.base + t % h.slots * h.slotBytes
    Completes (.rngwait g f) (fun j => found j ∧ n ≤ ((hdr j).head + 65536 - (hdr j).tail) % 65536)
      (fun j => j.writeS 1 f.sb (BitVec.ofNat 64 (slot (hdr j) (hdr j).tail)))
    ∧ Waits (.rngwait g f) (fun j => found j ∧ ((hdr j).head + 65536 - (hdr j).tail) % 65536 < n) (fun _ => late)
    ∧ Completes (.rngwaitProd g f) (fun j => found j ∧ n ≤ (hdr j).free) (fun j => j.writeS 1 f.sb (BitVec.ofNat 64 (slot (hdr j) (hdr j).head)))
    ∧ Waits (.rngwaitProd g f) (fun j => found j ∧ (hdr j).free < n) (fun _ => late)
    ∧ Completes (.rngadv g f) (fun j => found j ∧ bufReadOpen j.ctx code = false ∧ hdrStoreOpen j.st j.st.core j.st.cx code (a j) = false
        ∧ n ≤ ((hdr j).head + 65536 - (hdr j).tail) % 65536)
      (fun j => j.atEnd (fun s =>
        let h := hdrAt s s.core code (a j)
        stirRing (writeBuf s s.core (.store s.cx) code (a j + 8) (leBytes 8 (h.head % 65536 + 65536 * ((h.tail + n) % 65536)
          + 4294967296 * wrap 16 ((h.free : Int) + n) + 281474976710656 * field h.w1 48 16)) false) s.core code (a j)))
    ∧ Traps (.rngadv g f) (fun j => found j ∧ bufReadOpen j.ctx code = false ∧ hdrStoreOpen j.st j.st.core j.st.cx code (a j) = false
        ∧ ((hdr j).head + 65536 - (hdr j).tail) % 65536 < n) 0x06 (fun _ => 0)
    ∧ Completes (.rngpub g f) (fun j => found j ∧ writesPending j.st j.st.core j.st.cx = false ∧ n ≤ (hdr j).free)
      (fun j => j.atEnd (fun s =>
        let h := hdrAt s s.core code (a j)
        stirRing (writeBuf s s.core (.store s.cx) code (a j + 8) (leBytes 8 ((h.head + n) % 65536 + 65536 * (h.tail % 65536)
          + 4294967296 * wrap 16 ((h.free : Int) - n) + 281474976710656 * field h.w1 48 16)) false) s.core code (a j)))
    ∧ Traps (.rngpub g f) (fun j => found j ∧ writesPending j.st j.st.core j.st.cx = false ∧ (hdr j).free < n) 0x07 (fun _ => 0)

/-- The remote memory operations (12 R248 to R252, 25 R434, R436): with the operand found, each acts on its own module's memory or sends one
request that names it; a peer that is unreachable gets none, the cause 0x2E is noted, and what was to be filled is C-poisoned.
Where it follows a convention of the model and not the spec, the convention is log 32, log 33. -/
def Obligations.RemoteAccess : Prop :=
  (∀ (g : Guard) (f : MD) (j1 j2 : Iss) (home off : Nat),
    let sz := field f.fn 12 3
    let n := sizeBytes sz
    let c := readC j1.ctx f.cb
    let span := spanOfBytes c.obj off n
    let info := memInfo off f.cb sz
    -- LDR
    (∀ d, let lat := 8 * (f.fn % 4096)
      let asks : Option Nat → Iss → Prop := fun tag j => ∃ j0, j.loadDest sz f.ds = .ok (j0, d)
        ∧ j0.remoteAt f.cb f.so n (sizeAlign sz) rLOAD sz = .ok (j1, home, off) ∧ home ≠ Config.moduleNumber
        ∧ j1.sendReq home 0 f.cl 1 span 0 info (addrWord c.index off sz) d false false = .ok (j2, tag) ∧ j2.Sound
      (∀ tag, Completes (.ldr g f) (asks (some tag)) (fun _ => j2.await lat d tag false))
      ∧ Completes (.ldr g f) (asks none) (fun _ => j2.add lat (spoiled d) none 0)
      ∧ (∀ ps, Completes (.ldr g f) (fun j => ∃ j0, j.loadDest sz f.ds = .ok (j0, d)
          ∧ j0.remoteAt f.cb f.so n (sizeAlign sz) rLOAD sz = .ok (j1, Config.moduleNumber, off)
          ∧ j1.ownPlace f.cb off n sz false = .ok (j2, ps) ∧ j2.Sound) (fun _ =>
        let j3 := j2.loadFar f.cl lat ps d
        { j3 with st := baseLoads j3.st j3.st.core (((j3.core.ms.loads.getLast?).map (·.key)).getD 0) j1.ctx.world })))
    -- LDRW
    ∧ (∀ row, let d := Land.row (f.ds % 64) row Row.zero
      let asks : Option Nat → Iss → Prop := fun tag j => ∃ j0, j.claimReply (f.ds % 64) = .ok (j0, row)
        ∧ j0.remoteAt f.cb f.so n (sizeAlign sz) rLOAD sz = .ok (j1, home, off) ∧ home ≠ Config.moduleNumber
        ∧ j1.sendReq home 0 f.cl 1 span 0 info (addrWord c.index off sz) d true false = .ok (j2, tag) ∧ j2.Sound
      (∀ tag, Completes (.ldrw g f) (asks (some tag)) (fun _ => j2))
      ∧ Completes (.ldrw g f) (asks none) (fun _ => j2.atEnd (fun s => pushRow s s.core s.cx (f.ds % 64) row ⟨0#1024, .corrupt⟩))
      ∧ (∀ p ps, Completes (.ldrw g f) (fun j => ∃ j0, j.claimReply (f.ds % 64) = .ok (j0, row)
          ∧ j0.remoteAt f.cb f.so n (sizeAlign sz) rLOAD sz = .ok (j1, Config.moduleNumber, off)
          ∧ j1.ownPlace f.cb off n sz false = .ok (j2, p :: ps) ∧ j2.Sound) (fun _ =>
        let j3 := j2.loadFar f.cl 0 (p :: ps) d
        let key := ((j3.core.ms.loads.getLast?).map (·.key)).getD 0
        Iss.ownReply { j3 with st := baseLoads j3.st j3.st.core key j1.ctx.world, pends := j2.pends } key 0 f.cl d false)))
    -- STR: deferred in a world, gated at its own module, sent otherwise
    ∧ (let str : (Iss → Nat → Prop) → (Iss → List Byte) → Prop := fun found data =>
        Completes (.str g f) (fun j => found j home ∧ j1.ctx.world ≠ 0 ∧ 1 ≤ effectRoom j1.st j1.ctx.world ∧ j1.Sound) (fun j => j1.atEnd (fun s =>
          addEffects s j1.ctx.world [⟨2, j1.st.core, j1.st.cx, f.cl, home, c.index, off, sz, 0, [], data j, 0⟩]))
        ∧ (∀ p ps, Completes (.str g f) (fun j => found j Config.moduleNumber ∧ j1.ctx.world = 0
            ∧ j1.ownPlace f.cb off n sz true = .ok (j2, p :: ps) ∧ j2.Sound) (fun j => j2.gate f.cl (.mem 0 (p :: ps)) (data j) false false))
        ∧ (∀ tag, Completes (.str g f) (fun j => found j home ∧ home ≠ Config.moduleNumber ∧ j1.ctx.world = 0
            ∧ j1.sendReq home 2 f.cl (if n = 128 then 2 else 1) span 0 info (addrWord c.index off sz ++ data j) (.none Row.zero) false false = .ok (j2, tag)
            ∧ j2.Sound) (fun _ => j2))
      (sz < 4 → str (fun j h => Clean [f.ds % 64] j ∧ j.remoteAt f.cb f.so n (sizeAlign sz) rSTORE sz = .ok (j1, h, off))
        (fun j => leBytes n (readS j.ctx (f.ds % 64)).toNat))
      ∧ (∀ rows, 4 ≤ sz → str (fun j h => ∃ j0, j.sources 64 16 [f.ds] [] = .ok (j0, rows) ∧ (rows.headD Row.zero).isBad = false
          ∧ j0.remoteAt f.cb f.so n (sizeAlign sz) rSTORE sz = .ok (j1, h, off)) (fun _ => leBytes n (rowBits rows 0).toNat)))
    -- ATOMR
    ∧ (let az := 2 + field f.fn 4 1
      let q := f.ds % 128
      let acq := field f.fn 5 2 % 2 = 1 && decide (1 < field f.fn 7 3)
      let x : Iss → BitVec 64 := fun j => readS j.ctx (field f.fn 10 6)
      let y : Iss → BitVec 64 := fun j => if f.fn % 16 = 9 then readS j.ctx (field f.fn 10 6 + 1) else 0#64
      let body : Iss → List Byte := fun j =>
        addrWord c.index off az ++ (leBytes 8 (x j).toNat ++ leBytes 8 (y j).toNat ++ leBytes 2 (f.fn % 1024) ++ leBytes 2 j1.flush)
      let asks : Option Nat → Land → Iss → Iss → Prop := fun tag d j0 j =>
        Clean (if f.fn % 16 = 9 then [field f.fn 10 6, field f.fn 10 6 + 1] else [field f.fn 10 6]) j ∧ j.ctx.world = 0
        ∧ j0.remoteAt f.cb f.so (2 ^ az) (2 ^ az) rATOMIC az = .ok (j1, home, off) ∧ home ≠ Config.moduleNumber
        ∧ j1.sendReq home 4 f.cl 1 (spanOfBytes c.obj off (2 ^ az)) (if 2 ≤ field f.fn 5 2 then 65536 else 0) (memInfo off f.cb az) (body j) d (decide (q < 64)) acq
            = .ok (j2, tag) ∧ j2.Sound
      let own : Iss → Iss → Prop := fun j0 j =>
        Clean (if f.fn % 16 = 9 then [field f.fn 10 6, field f.fn 10 6 + 1] else [field f.fn 10 6]) j ∧ j.ctx.world = 0
        ∧ j0.remoteAt f.cb f.so (2 ^ az) (2 ^ az) rATOMIC az = .ok (j1, Config.moduleNumber, off)
        ∧ (∃ p ps, j1.ownPlace f.cb off (2 ^ az) az true = .ok (j2, p :: ps)) ∧ j2.Sound
      let sent : Iss → Iss → AtomReq → Prop := fun j t m => t.core.ms.atoms = j2.core.ms.atoms ++ [m] ∧ m.ctx = j1.st.cx ∧ m.cls = f.cl
        ∧ m.op = f.fn % 16 ∧ m.bytes = 2 ^ az ∧ m.world = 0 ∧ m.x = x j ∧ m.y = y j ∧ m.ord = field f.fn 5 2 ∧ m.scope = field f.fn 7 3
        ∧ t.pends = j2.pends ∧ t.st.mem = j2.st.mem
      (64 ≤ q → CompletesWith (.atomr g f) (fun j => own j j) (fun j t => ∃ m, sent j t m))
      ∧ (∀ row, q < 64 → CompletesWith (.atomr g f) (fun j => ∃ j0, j.claimReply q = .ok (j0, row) ∧ own j0 j) (fun j t => ∃ m, sent j t m
          ∧ ∃ r, r ∈ t.ctx.reqs ∧ some r.tag = m.key ∧ r.peer = Config.moduleNumber ∧ r.dst = .row q row Row.zero ∧ r.push = true ∧ r.acq = acq))
      ∧ (∀ tag, 64 ≤ q → Completes (.atomr g f) (fun j => asks (some tag) (.none Row.zero) j j) (fun _ => j2))
      ∧ (64 ≤ q → Completes (.atomr g f) (fun j => asks none (.none Row.zero) j j) (fun _ => j2))
      ∧ (∀ tag row, q < 64 → Completes (.atomr g f) (fun j => ∃ j0, j.claimReply q = .ok (j0, row) ∧ asks (some tag) (.row q row Row.zero) j0 j) (fun _ => j2))))
  -- FENCEF
  ∧ (∀ (g : Guard) (f : MQ) (j1 j2 : Iss) (home off : Nat) (tag : Option Nat),
    let cb := field f.imm 16 4
    let mask := if f.imm % 65536 = 0 then 65535 else f.imm % 65536
    Completes (.fencef g f) (fun j => Clean [f.sb] j ∧ j.remoteAt cb f.sa 8 8 rSTORE 3 = .ok (j1, home, off) ∧ home ≠ Config.moduleNumber
        ∧ j1.sendReq home 6 16 1 (spanOfBytes (readC j1.ctx cb).obj off 8) mask (memInfo off cb 3)
            (addrWord (readC j1.ctx cb).index off 3 ++ leBytes 8 (readS j.ctx f.sb).toNat) (.none Row.zero) false false = .ok (j2, tag) ∧ j2.Sound) (fun _ => j2))
  ∧ (∀ (g : Guard) (f : MQ) (j1 j2 : Iss) (off : Nat) (p : Nat × Nat × Nat) (ps : List (Nat × Nat × Nat)),
    let cb := field f.imm 16 4
    CompletesWith (.fencef g f) (fun j => Clean [f.sb] j ∧ j.remoteAt cb f.sa 8 8 rSTORE 3 = .ok (j1, Config.moduleNumber, off)
        ∧ j1.ownPlace cb off 8 3 true = .ok (j2, p :: ps) ∧ j2.overlayRoom (readC j1.ctx cb) off (p :: ps) = j2 ∧ j2.Sound)
      (fun j t => ∃ m, t.core.ms.atoms = j2.core.ms.atoms ++ [m] ∧ m.ctx = j1.st.cx ∧ m.op = 18 ∧ m.bytes = 8 ∧ m.world = j1.ctx.world
        ∧ m.pieces = p :: ps ∧ m.x = readS j.ctx f.sb ∧ m.cls = 16 ∧ m.y = BitVec.ofNat 64 (if f.imm % 65536 = 0 then 65535 else f.imm % 65536)
        ∧ m.ord = 0 ∧ m.key = none ∧ t.pends = j2.pends ∧ t.st.mem = j2.st.mem))
  -- what a request is
  ∧ ∀ (j : Iss) (peer kind cls n span mask info : Nat) (bs : List Byte) (dst : Land) (push acq : Bool),
    (peerDown j.st j.die peer = true → j.sendReq peer kind cls n span mask info bs dst push acq =
      .ok (j.atEnd (fun s => setAct s (raiseA (actCtx s) 0x2E (peer + 64 * kind))), none))
    ∧ (∀ j1 ix, peerDown j.st j.die peer = false → j.needSlots peer n = .ok j1 → tagFor (fabOf j1.st j1.die) (8 * j1.st.core + j1.st.cx) = some ix →
      ∃ k inc r, j.sendReq peer kind cls n span mask info bs dst push acq = .ok (k, some (512 * j1.die + ix + 4096 * inc)) ∧ r ∈ k.ctx.reqs
        ∧ r.tag = 512 * j1.die + ix + 4096 * inc ∧ r.peer = peer ∧ r.kind = kind ∧ r.cls = cls ∧ r.dst = dst ∧ r.push = push ∧ r.acq = acq ∧ r.info = info
        ∧ (let t := tagAt' (fabOf k.st k.die) ix
           t.inc = inc ∧ t.busy = true ∧ t.peer = peer ∧ t.core = j1.st.core ∧ t.ctx = j1.st.cx ∧ t.kind = kind ∧ t.cls = cls ∧ t.span = span ∧ t.mask = mask))

/-- FSCQ (12 R253): the free-slot count the context holds for the peer; the WAIT forms stall until it is large enough. -/
def Obligations.SlotCounts : Prop :=
  ∀ (g : Guard) (f : MQ),
    let gives : Iss → Nat → Iss := fun j peer => j.writeS 1 f.sb (BitVec.ofNat 64 (fscOf j.ctx peer))
    let reg : Iss → Nat := fun j => (readS j.ctx f.sa).toNat % 64
    let named : Iss → Nat := fun j => if field f.imm 6 1 = 1 then reg j else f.imm % 64
    let clean : Iss → Prop := fun j => field f.imm 6 1 = 1 → Clean [f.sa] j
    Completes (.fscq g f) (fun _ => True) (fun j => gives j (f.imm % 64))
    ∧ Completes (.fscqWait g f) (fun j => clean j ∧ field f.imm 8 8 ≤ fscOf j.ctx (named j)) (fun j => gives j (named j))
    ∧ Waits (.fscqWait g f) (fun j => clean j ∧ fscOf j.ctx (named j) < field f.imm 8 8) (fun _ s => s)
    ∧ Completes (.fscqReg g f) (fun j => Clean [f.sa] j ∧ (field f.imm 7 1 = 1 → field f.imm 8 8 ≤ fscOf j.ctx (reg j))) (fun j => gives j (reg j))
    ∧ Waits (.fscqReg g f) (fun j => Clean [f.sa] j ∧ field f.imm 7 1 = 1 ∧ fscOf j.ctx (reg j) < field f.imm 8 8) (fun _ s => s)

/-- The engine commands (09 R178 to R191, 12 R254 to R257, 16 R316, 17 R340, R341): with room in the queue, a descriptor readable and sound,
the spaces it may use and, in a world, room for what it defers, each enters its queue with its descriptor after the group's mark; UNSUB and DRAIN
act on the context's subscription to the ring they name, or wait behind one whose guard is pending.
Where it follows a convention of the model and not the spec, the convention is log 57. -/
def Obligations.EngineCommands : Prop :=
  ∀ (g : Guard) (f : EC),
    let a : Iss → Nat := fun j => (readS j.ctx f.sa).toNat % 1048576
    let off : Iss → Nat := fun j => (readS j.ctx f.sb).toNat % 1099511627776
    let bytes : Iss → Nat → List Byte := fun j n => (readBuf j.st j.st.core j.st.cx 3 (a j) n).1
    let block : Iss → Nat → Nat → Prop := fun j n align => Clean [f.sa] j ∧ a j % align = 0 ∧ a j + n ≤ bufSize 3 ∧ Owns j 3 (a j) n
      ∧ (readBuf j.st j.st.core j.st.cx 3 (a j) n).2 = false
    let readable : Iss → Nat → Nat → Prop := fun j n align => block j n align ∧ Clean [f.sb] j
    let w : Iss → List Nat := fun j => words8 (bytes j 64)
    let d : Iss → Desc := fun j => descOf (w j)
    let sound : Iss → Nat → Nat → Prop := fun j o n => ((d j).ssp = 4 ∨ (d j).dsp = 4 → busyTiles j.core = 0)
      ∧ (d j).sbase % 4 = 0 ∧ ((d j).dsp ≠ 8 → (d j).dbase % 4 = 0) ∧ ((d j).ssp = 0 ∨ (d j).dsp = 0 → o % 4 = 0) ∧ descBad (w j) = false
      ∧ ((d j).dsp = 8 → (d j).dbase < 64 ∧ n * (d j).runs % 128 = 0) ∧ twoLayouts (d j) n = false
    let cmd : Iss → CmdKind → Desc → Nat → Cmd := fun j kind dd o =>
      { kind := kind, sem := f.sem, cls := f.cl, cap := readC j.ctx f.cb, capIx := f.cb, off := o, desc := dd, flush := j.flush, addr := j.g.addr
        guard := none, headAt := none, upc := 0, idx := [0, 0, 0, 0, 0, 0], sent := 0, short := 0, buffer := [], fin := none, seq := 0, tag := none
        iss := j.clock, fault := none }
    let enters : Iss → Nat → Cmd → Iss := fun j e m => j.afterMark (fun s =>
      let q := takeSeq s s.core
      setQueue q.1 s.core s.cx e ((ctxOf q.1 s.core s.cx).eng.queue e ++ [{ m with seq := q.2 }]))
    let full : Iss → Nat → Prop := fun j n => j.ctx.world ≠ 0 → n ≤ effectRoom j.st j.ctx.world
    let global : Iss → Nat → Prop := fun j n => let c := readC j.ctx f.cb
      ((regObject c).isSome = true ∨ c.obj ∈ j.core.ms.objCache) ∧ c.tag = true ∧ c.grants rLOAD = true ∧ c.index = routeReg j.st j.die 0x7C0 ∧ c.home = Config.moduleNumber
      ∧ off j % 64 = 0 ∧ c.lower ≤ off j ∧ off j + n ≤ c.upper
    let subscribes : Iss → Bool → Nat → Nat → Iss := fun j store buf hdr => j.afterMark (fun s =>
      let q := takeSeq s s.core
      setSubs q.1 s.core s.cx ((ctxOf q.1 s.core s.cx).eng.subs
        ++ [{ store := store, cmd := { cmd j .cpy (d j) (off j) with seq := q.2 }, buf := buf, hdr := hdr, moved := 0, stopping := none
              silent := false, draining := [], quiesced := false }]))
    let onRing : Iss → Iss → Bool → (Nat → Sub → Sub) → Prop := fun j k drain act => ∃ h : State → State, k = j.afterMark h ∧ ∀ s,
      let buf := f.cb / 4
      let head := (hdrAt s s.core buf (a j)).head
      let e := (actCtx s).eng
      (e.ring = [] → (∀ u ∈ e.subs, u.buf = buf → u.hdr ≠ a j) → h s = creditSem s s.core s.cx f.sem 0)
      ∧ (∀ n u, e.ring = [] → e.subs[n]? = some u → u.buf = buf → u.hdr = a j →
          (∀ m v, m < n → e.subs[m]? = some v → v.buf = buf → v.hdr ≠ a j) →
          h s = setSubs s s.core s.cx (e.subs.set n (act head u)))
      ∧ (e.ring ≠ [] → ∃ m, h s = setAct s { actCtx s with eng := { e with ring := e.ring ++ [m] } } ∧ m.kind = .ringOp drain buf (a j) head
          ∧ m.sem = f.sem ∧ m.guard = none)
    Completes (.cpy g f) (fun j => j.ctx.eng.copy.length < 16 ∧ readable j 64 64 ∧ sound j (off j) (d j).bytes ∧ (d j).ssp ≠ 8)
      (fun j => enters j 0 (cmd j .cpy (d j) (off j)))
    ∧ Completes (.cpyrGet g f) (fun j => j.ctx.eng.copy.length < 16 ∧ readable j 64 64 ∧ sound j (off j) (d j).bytes
        ∧ (d j).ssp = 0 ∧ 1 ≤ (d j).dsp ∧ (d j).dsp ≤ 8) (fun j => enters j 0 (cmd j .cpyrGet (d j) (off j)))
    ∧ Completes (.cpyrPut g f) (fun j => j.ctx.eng.copy.length < 16 ∧ readable j 64 64 ∧ sound j (off j) (d j).bytes
        ∧ (d j).dsp = 0 ∧ 1 ≤ (d j).ssp ∧ (d j).ssp ≤ 7 ∧ full j (((d j).bytes * (d j).runs + 4095) / 4096))
      (fun j => enters j 0 (cmd j .cpyrPut (d j) (off j)))
    ∧ Completes (.sfe g f) (fun j => j.ctx.eng.sfe.length < 16 ∧ readable j 64 64
        ∧ sound j 0 ((d j).bytes / sfeBytes (field f.fn 4 2) * sfeBytes (field f.fn 6 2)) ∧ 2 ≤ (d j).ssp ∧ (d j).ssp ≤ 6
        ∧ (2 ≤ (d j).dsp ∧ (d j).dsp ≤ 6 ∨ (d j).dsp = 8))
      (fun j => enters j 1 (cmd j (.sfe (f.fn % 16) (field f.fn 4 2) (field f.fn 6 2) (field f.fn 8 2)
        (if f.sb = 0 then none else some ((readS j.ctx f.sb).setWidth 32))) (d j) 0))
    ∧ Completes (.subsLd g f) (fun j => j.ctx.eng.subs.length < 8 ∧ readable j 64 64 ∧ sound j (off j) (d j).bytes
        ∧ (d j).ssp = 0 ∧ ((d j).dsp = 2 ∨ (d j).dsp = 5) ∧ (d j).dbase % 64 = 0 ∧ ∀ v ∈ (d j).dstr, v = 0)
      (fun j => subscribes j false (if (d j).dsp = 2 then 1 else 3) (d j).dbase)
    ∧ Completes (.subsSt g f) (fun j => j.ctx.eng.subs.length < 8 ∧ readable j 64 64 ∧ sound j (off j) (d j).bytes
        ∧ (d j).dsp = 0 ∧ ((d j).ssp = 2 ∨ (d j).ssp = 5) ∧ (d j).sbase % 64 = 0 ∧ ∀ v ∈ (d j).sstr, v = 0)
      (fun j => subscribes j true (if (d j).ssp = 2 then 1 else 3) (d j).sbase)
    ∧ CompletesWith (.unsub g f) (Clean [f.sa]) (fun j k => onRing j k false (fun head u => { u with stopping := some (f.sem, head) }))
    ∧ CompletesWith (.drain g f) (Clean [f.sa]) (fun j k => onRing j k true (fun head u => { u with draining := u.draining ++ [(f.sem, head)] }))
    ∧ Completes (.gqpush g f) (fun j => j.ctx.eng.gq.length < 16 ∧ readable j 64 64 ∧ global j (rowBytes j.st j.die) ∧ full j 1)
      (fun j => enters j 7 (cmd j (.gqpush (bytes j 64) (off j)) Desc.none (off j)))
    ∧ Completes (.coll g f) (fun j => j.ctx.world = 0 ∧ j.ctx.eng.coll.length < 2 ∧ block j 64 64 ∧ collBad (w j) = false
        ∧ field ((w j).getD 1 0) Config.moduleNumber 1 = 1) (fun j => enters j 5 (cmd j (.coll (w j)) Desc.none 0))
    ∧ Completes (.send g f) (fun j => let n := 16 * (field f.fn 8 6 + 1)
        j.ctx.eng.send.length < 8 ∧ readable j n 16 ∧ full j 1)
      (fun j => let t := (readS j.ctx f.sb).toNat
        enters j 4 (cmd j (.send (t % 64) (field t 6 10) (f.fn % 256) (bytes j (16 * (field f.fn 8 6 + 1)))) Desc.none 0))
    ∧ Completes (.ckmark g f) (fun j => j.ctx.world = 0 ∧ j.ctx.eng.ck = [] ∧ Clean [f.sa] j)
      (fun j => enters j 6 (cmd j (.ckmark (readS j.ctx f.sa)) Desc.none 0))

/-- Transfers, loops and hints (05 R93, R102, 07 R136 to R142, 23 R405): where the next group is, the link, and the level a loop arms.
Where it follows a convention of the model and not the spec, the convention is log 55. -/
def Obligations.ControlTransfers : Prop :=
  let here : Nat → Nat → Nat → Nat := fun p n v => ((((p : Int) + 8 * signed n v) % (2 ^ 48 : Nat)).toNat)
  let takes : Iss → Nat → Iss := fun j p => { j with next := some (true, p) }
  (∀ (g : Guard) (f : YJ), Completes (.call g f) (fun _ => True) (fun j =>
    takes (j.writeS 1 f.sd (BitVec.ofNat 64 j.g.fall)) (here j.g.sy 32 f.imm)))
  ∧ (∀ (g : Guard) (f : YX),
    let target : Iss → Nat := fun j => (readS j.ctx f.xa).toNat % 2 ^ 48
    let indexed : Iss → Nat := fun j => here (readS j.ctx f.xa).toNat 20 f.fn
    Completes (.ret g f) (fun j => Clean [f.xa] j ∧ target j % 8 = 0) (fun j => takes j (target j))
    ∧ Traps (.ret g f) (fun j => Clean [f.xa] j ∧ target j % 8 ≠ 0) 0x15 (fun j => target j % 2 ^ 40 + 15 * 2 ^ 40)
    ∧ Completes (.jmpi g f) (fun j => Clean [f.xa] j ∧ indexed j % 8 = 0) (fun j => takes j (indexed j))
    ∧ Traps (.jmpi g f) (fun j => Clean [f.xa] j ∧ indexed j % 8 ≠ 0) 0x15 (fun j => indexed j % 2 ^ 40 + 15 * 2 ^ 40)
    ∧ (let lvl := f.fn % 8
       let last : Iss → Nat := fun j => bundleAfter j.st j.g.fall (field f.fn 3 5)
       let arms : Instr → (Iss → Prop) → (Iss → Nat) → Prop := fun i clean count =>
         Completes i (fun j => clean j ∧ count j = 0) (fun j => { j with next := some (false, bundleAfter j.st (last j) 1) })
         ∧ Completes i (fun j => clean j ∧ count j ≠ 0 ∧ ∀ l ∈ j.ctx.regs.armed, l.lvl ≠ lvl ∧ l.start ≤ j.g.fall ∧ last j ≤ l.last) (fun j =>
           ({ j with next := some (false, j.g.fall) } : Iss).setCtx { j.ctx with
             regs := { j.ctx.regs with nest := mapSet j.ctx.regs.nest 0 lvl (count j), armed := j.ctx.regs.armed ++ [⟨lvl, j.g.fall, last j⟩] } })
         ∧ Traps i (fun j => clean j ∧ count j ≠ 0 ∧ ∃ l ∈ j.ctx.regs.armed, l.lvl = lvl ∨ j.g.fall < l.start ∨ l.last < last j) 0x0B (fun _ => lvl)
       arms (.loopReg g f) (Clean [f.xa]) (fun j => (readS j.ctx f.xa).toNat % 2 ^ 32)
       ∧ arms (.loopImm g f) (fun _ => True) (fun _ => field f.fn 9 11)))
  ∧ (∀ (shape t0 t1 t2 t3 d1 d2 d3 d4 : Nat),
    let leaf : Iss → Nat := fun j => treeLeaf j.c0 shape t0 t1 t2 t3
    let brt := Instr.brt shape t0 t1 t2 t3 d1 d2 d3 d4
    Completes brt (fun j => leaf j = 0) (fun j => j)
    ∧ Completes brt (fun j => leaf j = 1) (fun j => takes j (here j.g.last 13 d1))
    ∧ Completes brt (fun j => leaf j = 2) (fun j => takes j (here j.g.last 13 d2))
    ∧ Completes brt (fun j => leaf j = 3) (fun j => takes j (here j.g.last 13 d3))
    ∧ Completes brt (fun j => leaf j = 4) (fun j => takes j (here j.g.last 13 d4)))
  ∧ ∀ (slot n imm : Nat), Completes (.hint slot n imm) (fun _ => True) (fun j => j)

/-- Sync lines and semaphores (02 R39, R40, 12 R238, R239): SYNC arrives on the lines its core takes part in, waits, and issues once all of them
have been released; WAITS stalls below n and otherwise subtracts n.
Where it follows a convention of the model and not the spec, the convention is log 45. -/
def Obligations.SyncAndSemaphores : Prop :=
  (∀ (mask : Nat),
    let mine : Iss → Nat := fun j => mask &&& j.core.lines
    Completes (.sync mask) (fun j => j.core.syncWait = none ∧ mine j = 0) (fun j => j)
    ∧ Waits (.sync mask) (fun j => j.core.syncWait = none ∧ mine j ≠ 0) (fun j s =>
        checkLines (setActCore s { actCore s with arrived := (actCore s).arrived ||| mine j, syncWait := some (mine j, s.now) }) s.core (mine j))
    ∧ (∀ ls at_, Waits (.sync mask) (fun j => j.core.syncWait = some (ls, at_) ∧ j.core.arrived &&& ls ≠ 0) (fun _ s => s)
      ∧ Completes (.sync mask) (fun j => j.core.syncWait = some (ls, at_) ∧ j.core.arrived &&& ls = 0)
          (fun j => j.setCore { j.core with syncWait := none })))
  ∧ ∀ (g : Guard) (f : YX),
    let sem := f.fn % 16
    let waits : Instr → (Iss → Prop) → (Iss → Nat) → Prop := fun i clean n =>
      Waits i (fun j => clean j ∧ semOf j.ctx sem < n j) (fun _ s => s)
      ∧ Completes i (fun j => clean j ∧ n j ≤ semOf j.ctx sem ∧ j.ctx.semWide.testBit sem = false)
          (fun j => j.setCtx { j.ctx with sems := mapSet j.ctx.sems 0 sem (semOf j.ctx sem - n j) })
      ∧ Completes i (fun j => clean j ∧ n j ≤ semOf j.ctx sem ∧ j.ctx.semWide.testBit sem = true)
          (fun j => (j.setCtx { j.ctx with sems := mapSet j.ctx.sems 0 sem (semOf j.ctx sem - n j) }).atEnd (fun s => dropLines s s.core s.cx))
    waits (.waitsImm g f) (fun _ => True) (fun _ => field f.fn 5 15)
    ∧ waits (.waitsReg g f) (Clean [f.xa]) (fun j => (readS j.ctx f.xa).toNat % 2 ^ 16)

/-- The task instructions (02 R23 to R34, 12 R240 to R245, R460, 26 R442, R443): the record a template makes, its counts, what readiness, a
signal or a completion record waits for, and what is answered when a table is full or a counter is in the wrong state. -/
def Obligations.TaskOperations : Prop :=
  ∀ (g : Guard) (f : YX),
    let die : Iss → Nat := fun j => dieOfCore j.st.core
    let a : Iss → Nat := fun j => (readS j.ctx f.xb).toNat % 1048576
    let w : Iss → List Nat := fun j => words8 (readBuf j.st j.st.core j.st.cx 3 (a j) 64).1
    let readable : Iss → Prop := fun j => Clean [f.xb] j ∧ a j % 64 = 0 ∧ a j + 64 ≤ bufSize 3 ∧ Owns j 3 (a j) 64
      ∧ templateBad (w j) = false
    let v : Iss → TaskRec := fun j => recOfWords (w j) (if 32 ≤ f.xc then readC j.ctx (f.xc % 16)
      else ⟨BitVec.ofNat 128 ((w j).getD 2 0 + 2 ^ 64 * (w j).getD 3 0), false⟩) (jobIdOf j.st j.st.core j.st.cx) j.ctx.world
    let home : Iss → Nat := fun j => if (v j).scope = 0 then die j else dieOfCore (coreIn j.st (die j) (v j).core)
    let later : State → State → Nat → TaskAct → State := fun s t d act => awaitAct t d s.core s.cx (coreOf s s.core).ms.seq act
    let created : State → Nat → Nat → TaskRec → State := fun s d r t => countNew (setRec s d r t) t
    let form : Iss → Nat := fun j => (readS j.ctx f.xa).toNat % 65536
    let own : Iss → Nat → Prop := fun j m => m.testBit 15 = true ∧ sameGroup j.st (die j) (joinDie m) = true
    let counter : Iss → Nat → JoinCtr := fun j m => joinOf j.st (joinDie m) (joinIx m)
    -- TSPAWN and TJOIN
    (∀ r, Completes (.tspawn g f) (fun j => readable j ∧ freeRec j.st (home j) = some r) (fun j =>
      (j.writeS 8 f.xa (BitVec.ofNat 64 (r + 16384 * home j))).afterMark (fun s =>
        later s (created s (home j) r (v j)) (dieOfCore s.core) (.ready (home j) r))))
    ∧ Traps (.tspawn g f) (fun j => readable j ∧ freeRec j.st (home j) = none) 0x22 (fun j => 2 * home j)
    ∧ (∀ n, Completes (.tjoin g f) (fun j => freeJoin j.st (die j) = some n) (fun j =>
      (j.writeS 8 f.xa (BitVec.ofNat 64 (32768 + 4096 * die j + n))).atEnd (fun s => setJoin s (dieOfCore s.core) n ⟨.opened, 0, 0, 0, s.now + 1⟩)))
    ∧ Traps (.tjoin g f) (fun j => freeJoin j.st (die j) = none) 0x22 (fun j => 1 + 2 * die j)
    -- TSEAL
    ∧ (let seals : Instr → (Iss → Prop) → (Iss → Nat) → Prop := fun i clean n =>
        (∀ r, Completes i (fun j => clean j ∧ readable j ∧ own j (form j) ∧ (counter j (form j)).state = .opened
            ∧ (counter j (form j)).signals ≤ n j ∧ freeRec j.st (joinDie (form j)) = some r) (fun j => j.afterMark (fun s =>
          let d := joinDie (form j)
          let c := counter j (form j)
          let t := created s d r (v j)
          if c.signals = n j then later t (setJoin t d (joinIx (form j)) JoinCtr.init) (dieOfCore t.core) (.ready d r)
          else later t (setJoin t d (joinIx (form j)) ⟨.sealed, c.signals, n j, r, c.since⟩) d (.seal d (joinIx (form j)) (n j) r))))
        ∧ Traps i (fun j => clean j ∧ readable j ∧ own j (form j) ∧ (counter j (form j)).state ≠ .opened) 0x20
            (fun j => form j + 2 ^ 16 * Nat.min (counter j (form j)).signals 65535 + 2 ^ 32 * n j)
        ∧ Traps i (fun j => clean j ∧ readable j ∧ own j (form j) ∧ (counter j (form j)).state = .opened ∧ n j < (counter j (form j)).signals) 0x21
            (fun j => form j + 2 ^ 16 * Nat.min (counter j (form j)).signals 65535 + 2 ^ 32 * n j)
      seals (.tsealImm g f) (Clean [f.xa]) (fun _ => f.fn % 65536)
      ∧ seals (.tsealReg g f) (Clean [f.xa, f.fn % 64]) (fun j => (readS j.ctx (f.fn % 64)).toNat % 65536))
    -- TSIGNAL and TEXIT
    ∧ Completes (.tsignal g f) (fun j => Clean [f.xa] j ∧ own j (form j) ∧ (counter j (form j)).state ≠ .free ∧ (counter j (form j)).since ≠ j.st.now + 1) (fun j => j.afterMark (fun s =>
        let t := match (actCtx s).task with
          | some (d, r) => if (taskOf s d r).join = form j then setRec s d r { taskOf s d r with signalled := true } else s
          | none => s
        later t t (dieOfCore t.core) (.signal (joinDie (form j)) (joinIx (form j)))))
    ∧ Traps (.tsignal g f) (fun j => Clean [f.xa] j ∧ own j (form j) ∧ ((counter j (form j)).state = .free ∨ (counter j (form j)).since = j.st.now + 1)) 0x20 (fun j => form j)
    ∧ Completes (.texit g f) (fun _ => True) (fun j => { j with stop := .exit })
    -- TCANCEL and TPRIO
    ∧ (let cancels : Iss → Nat → Iss := fun j id => j.atEnd (fun s =>
        let key := levelKey (jobIdOf s s.core s.cx) (field f.fn 16 2) id
        (List.range 8).foldl endCancelled (setLevel s key { levelOf s key with cancel := true }))
       let takes : Iss → Nat → Iss := fun j n => j.atEnd (fun s => setAct s { actCtx s with sp := { (actCtx s).sp with prio := Nat.min n 23 } })
       Completes (.tcancelImm g f) (fun _ => True) (fun j => cancels j (f.fn % 65536))
       ∧ Completes (.tcancelReg g f) (Clean [f.xa]) (fun j => cancels j (form j))
       ∧ Completes (.tprioImm g f) (fun _ => True) (fun j => takes j (f.fn % 32))
       ∧ Completes (.tprioReg g f) (Clean [f.xa]) (fun j => takes j (readS j.ctx f.xa).toNat))
    -- TLVREC
    ∧ (let names : Instr → (Iss → Prop) → (Iss → Nat) → Prop := fun i clean id =>
        (∀ r, Completes i (fun j => clean j ∧ readable j ∧ freeRec j.st (home j) = some r) (fun j => j.afterMark (fun s =>
          later s (setRec s (home j) r (v j)) (dieOfCore s.core) (.record (levelKey (v j).job (field f.fn 16 2) (id j)) (home j) r))))
        ∧ Traps i (fun j => clean j ∧ readable j ∧ freeRec j.st (home j) = none) 0x22 (fun j => 2 * home j)
      names (.tlvrecImm g f) (fun _ => True) (fun _ => f.fn % 65536) ∧ names (.tlvrecReg g f) (Clean [f.xa]) form)

/-- The world instructions (17 R330 to R347, 26 R449): a fork's tags, records and labels; a rival that is done or discarded; the stages of a
choice, from the discard of the others to the merge and the release of its effects; and the tag words. -/
def Obligations.WorldOperations : Prop :=
  ∀ (g : Guard) (f : YX),
    let world : Iss → Nat := fun j => j.ctx.world
    let die : Iss → Nat := fun j => dieOfCore j.st.core
    -- WFORK
    (let n := f.fn % 4 + 2
     let tags : Iss → List Nat := fun j => freeWorlds j.st
     let free : Iss → Prop := fun j => writesOpen j.c0 = false ∧ (worldOf j.st (world j)).depth ≠ 4
     (∀ fk jn, Completes (.wfork g f) (fun j => free j ∧ n ≤ (tags j).length ∧ freeFork j.st = some fk ∧ freeJoin j.st (die j) = some jn
         ∧ n ≤ freeCount j.st (die j)) (fun j =>
       let join := 32768 + 4096 * die j + jn
       let label := (((j.g.sy : Int) + 8 * signed 18 (field f.fn 2 18)) % (2 ^ 48 : Nat)).toNat
       (j.writeS 8 f.xa (handleOf join fk 0 n)).afterMark (fun s =>
         let s := setJoin s (die j) jn ⟨.opened, 0, 0, 0, s.now + 1⟩
         let s := setFork s fk ⟨world j, n, join, jobIdOf s s.core s.cx, ((tags j).take n).map (fun t => ⟨t, .running, 0⟩)⟩
         (freeRecs j.st (die j) n).foldl (fun s r => setRec s (die j) r { taskOf s (die j) r with entry := label })
           (makeRivals s f.xa fk join n (tags j) (freeRecs j.st (die j) n)))))
     ∧ Waits (.wfork g f) (fun j => writesOpen j.c0 = true) (fun _ s => s)
     ∧ Traps (.wfork g f) (fun j => writesOpen j.c0 = false ∧ (worldOf j.st (world j)).depth = 4) 0x3D (fun j => worldInfo j.st (world j) 0 false)
     ∧ Traps (.wfork g f) (fun j => free j ∧ (tags j).length < n) 0x39 (fun j => worldInfo j.st (world j) (tags j).length false)
     ∧ Traps (.wfork g f) (fun j => free j ∧ n ≤ (tags j).length ∧ freeFork j.st = none) 0x39
         (fun j => worldInfo j.st (world j) (tags j).length true))
    -- WDONE, WDISCARD
    ∧ Completes (.wdone g f) (fun j => Clean [f.xa] j ∧ world j ≠ 0) (fun j => { j.atEnd (fun s =>
        let e := worldOf s (world j)
        let score := (readS j.ctx f.xa).toNat % 2 ^ 32
        let s := if e.state = .running then noteRival (setWorld s (world j) { e with state := .done, score := score }) (world j)
          (fun r => { r with state := .done, score := score }) else s
        dropForksOf s (world j)) with stop := .exit })
    ∧ Completes (.wdiscard g f) (fun j => world j ≠ 0) (fun j => { j.atEnd (fun s => discardWorld s (world j) 6) with stop := .exit })
    ∧ Traps (.wdone g f) (fun j => world j = 0) 0x3E (fun j => worldInfo j.st 0 0 false)
    ∧ Traps (.wdiscard g f) (fun j => world j = 0) 0x3E (fun j => worldInfo j.st 0 0 false)
    -- WCHOOSE
    ∧ (let chooses : Instr → (Iss → Prop) → (Iss → Nat) → Prop := fun i clean k =>
        let fk : Iss → Nat := fun j => field (readS j.ctx f.xa).toNat 16 5
        let fork : Iss → Fork := fun j => forkOf j.st (fk j)
        let valid : Iss → Prop := fun j => (fork j).n ≠ 0 ∧ (fork j).issuer = world j ∧ (fork j).job = jobIdOf j.st j.st.core j.st.cx ∧ k j ≤ (fork j).n
        let rival : Iss → Rival := fun j => (fork j).rivals.getD (k j - 1) ⟨0, .discarded, 0⟩
        let picks : Iss → Prop := fun j => clean j ∧ valid j ∧ k j ≠ 0 ∧ (rival j).state ≠ .discarded ∧ forkTaken j.st (fk j) = false
        let ready : Iss → Prop := fun j => (rival j).state = .done ∧ (worldOf j.st (rival j).tag).live = 0
        Completes i (fun j => clean j ∧ valid j ∧ k j = 0) (fun j => j.atEnd (fun s => dropFork s (fk j)))
        ∧ Traps i (fun j => clean j ∧ ¬ valid j) 0x3E (fun j => worldInfo j.st (world j) 0 false)
        ∧ Traps i (fun j => clean j ∧ valid j ∧ k j ≠ 0 ∧ (rival j).state = .discarded) 0x3E (fun j => worldInfo j.st (world j) 0 false)
        ∧ Waits i (fun j => picks j ∧ (∀ m, j.ctx.merging = some m → m.1 ≠ fk j) ∧ ¬ ready j) (fun _ s => s)
        ∧ Waits i (fun j => picks j ∧ (∀ m, j.ctx.merging = some m → m.1 ≠ fk j) ∧ ready j) (fun j s =>
            let s := (fork j).rivals.foldl (fun s q => if q.tag = (rival j).tag ∨ q.state = .discarded then s else discardWorld s q.tag 6) s
            setAct s { actCtx s with merging := some (fk j, (actCtx s).clock + mergeTime s (rival j).tag, false) })
        ∧ (∀ fin, Waits i (fun j => picks j ∧ j.ctx.merging = some (fk j, fin, false) ∧ j.ctx.clock + 1 < fin) (fun _ s => s)
          ∧ Waits i (fun j => picks j ∧ j.ctx.merging = some (fk j, fin, false) ∧ fin ≤ j.ctx.clock + 1) (fun j s =>
              let s := mergeRecords s (rival j).tag (world j)
              setAct s { actCtx s with merging := some (fk j, fin, true) })
          ∧ Completes i (fun j => picks j ∧ j.ctx.merging = some (fk j, fin, true)
              ∧ (world j ≠ 0 → (mapGet j.st.worlds.effects [] (rival j).tag).length ≤ effectRoom j.st (world j))) (fun j => j.atEnd (fun s =>
            let es := mapGet j.st.worlds.effects [] (rival j).tag
            let s := setEffects (setAct s { actCtx s with merging := none }) (rival j).tag []
            let s := if world j = 0 then releaseEffects s es else addEffects s (world j) es
            dropLines (setFork (setWorld (dropWorldLines s (rival j).tag) (rival j).tag World.init) (fk j) Fork.init) s.core s.cx)))
      chooses (.wchooseImm g f) (Clean [f.xa]) (fun _ => f.fn % 8)
      ∧ chooses (.wchooseReg g f) (Clean [f.xa, f.xb]) (fun j => (readS j.ctx f.xb).toNat))
    -- WTAG
    ∧ Completes (.wtagOwn g f) (fun _ => True) (fun j =>
        j.writeS 1 f.xa (BitVec.ofNat 64 (world j + 2 ^ 6 * (worldOf j.st (world j)).depth + 2 ^ 9 * (worldOf j.st (world j)).rival)))
    ∧ (let fork : Iss → Fork := fun j => forkOf j.st (field (readS j.ctx f.xb).toNat 16 5)
       let valid : Iss → Prop := fun j => (fork j).n ≠ 0 ∧ (fork j).issuer = world j ∧ (fork j).job = jobIdOf j.st j.st.core j.st.cx ∧ f.fn % 8 ≤ (fork j).n
       Completes (.wtagQuery g f) (fun j => Clean [f.xb] j ∧ valid j) (fun j =>
         let r := (fork j).rivals.getD (f.fn % 8 - 1) ⟨0, .discarded, 0⟩
         j.writeS 8 f.xa (BitVec.ofNat 64 (r.score % 2 ^ 32 + 2 ^ 32 * (match r.state with | .done => 1 | .discarded => 2 | _ => 0) + 2 ^ 34 * r.tag)))
       ∧ Traps (.wtagQuery g f) (fun j => Clean [f.xb] j ∧ ¬ valid j) 0x3E (fun j => worldInfo j.st (world j) 0 false))

/-- TRAP, BKPT, ERET, HALT and OTINV, and the empty bundle (05 R83, R85 to R89, 07 R143, 12 R246, R247, R262, 22 R381, R393). Outside handler mode
ERET, CTXSAVE, RESTORE, HALT and a MOVTS to TVEC or REPLAYV take 0x05; with the feature of rival worlds off the world instructions take 0x01 with
their syllable in EINFO (18 R352, 22 R376, R394). -/
def Obligations.SystemInstructions : Prop :=
  ((∀ (g : Guard) (f : YX),
      let info : Iss → Nat := fun j => f.fn % 2 ^ 12 + 2 ^ 12 * ((((j.g.fall : Int) - j.g.addr) % (2 ^ 48 : Nat)).toNat / 8 % 128)
      let settled : Iss → Prop := fun j => j.ctx.regs.shadow = []
        ∧ (j.ctx.sp.cause = 0x1A → lateOpen j.st j.st.core j.st.cx (j.ctx.sp.einfo.toNat % 2 ^ 14) = false)
      let first : Iss → Nat := fun j => (readS j.ctx f.xa).toNat % 2 ^ 26
      let count : Iss → Nat := fun j => if (readS j.ctx f.xb).toNat % 2 ^ 26 = 0 then 1 else (readS j.ctx f.xb).toNat % 2 ^ 26
      Traps (.trap g f) (fun _ => True) 0x0E info
      ∧ Traps (.bkpt g f) (fun _ => True) 0x0D info
      ∧ Completes (.eret g f) (fun j => j.ctx.sp.cause ≠ 0x3F ∧ settled j) (fun j => j.atLast (fun s => setAct s (leaveTrap (actCtx s) j.ctx.sp.epc)))
      ∧ Waits (.eret g f) (fun j => j.ctx.sp.cause ≠ 0x3F ∧ ¬ settled j) (fun _ s => s)
      ∧ Waits (.eret g f) (fun j => j.ctx.sp.cause = 0x3F) (fun _ s => haltHere s s.core s.cx)
      ∧ Completes (.halt g f) (fun _ => True) (fun j => { j with stop := .halt })
      ∧ Waits (.otinv g f) (fun j => storesPending j.st j.st.core j.st.cx = true) (fun _ s => s)
      ∧ Completes (.otinv g f) (fun j => Clean [f.xa, f.xb] j ∧ storesPending j.st j.st.core j.st.cx = false) (fun j => j.atEnd (fun s =>
          (s.cores.map (·.1)).foldl (fun t k => if sameGroup s (dieOfCore k) (dieOfCore s.core) then
            setCore t k { coreOf t k with ms := { (coreOf t k).ms with objCache := (coreOf t k).ms.objCache.filter (fun o =>
              !(o / 2 ^ 26 == Config.moduleNumber && decide (first j ≤ o % 2 ^ 26) && decide (o % 2 ^ 26 < first j + count j))) } }
            else t) s)))
    ∧ ∀ (mark yield join : Bool) (s : State),
      let pc := (actCtx s).pc
      let g : GInfo := ⟨pc, pc, pc, (pc + 8) % 2 ^ 48, mark, yield, join, []⟩
      let u := settleObjects s
      let marks := join || decide (64 ≤ (actCore u).ms.gated.length)
      let t := if marks = true then markHere u s.core s.cx else u
      (marks = true ∨ mark = true → (actCtx u).resolved ≤ u.now) → structural t g [] = false →
      exec (.emptyBundle mark yield join) s =
        .next (finishGroup t { st := t, c0 := actCtx t, g := g, slot := 0, syl := 0, checked := false, pends := [], pushed := [], pops := [], ends := []
                               after := [], last := [], next := none, stop := .run, corrupt := none, late := none, guard := none, port := none
                               wait := none, seed := (actCore t).gen, seq0 := (actCore t).ms.seq } []))
  ∧ (∀ (s : State) (g : Guard) (f : YX),
      let takes : Instr → Nat → Nat → Prop := fun i cause info =>
        exec i s = .next (takeTrap s s.core s.cx cause (actCtx s).pc (some i.slot) info)
      ((actCtx s).sp.hmode = false →
        takes (.eret g f) 0x05 0 ∧ takes (.ctxsave g f) 0x05 0 ∧ takes (.restore g f) 0x05 0 ∧ takes (.halt g f) 0x05 0
        ∧ ∀ m : SM, m.num = 0x004 ∨ m.num = 0x005 → takes (.movts g m) 0x05 0)
      ∧ (feature s s.core s.cx 3 = false →
        ∀ i ∈ [Instr.wfork g f, .wchooseImm g f, .wchooseReg g f, .wdone g f, .wdiscard g f, .wtagOwn g f, .wtagQuery g f], takes i 0x01 i.syllable))

/-- Taking a trap outside handler mode (22 R379, R380): CAUSE, EPC, ESLOT, EINFO and HMODE; the handler's pc and its 6 cycles; what is set aside (the loop counters too, log 76),
and that nothing else of the context changes; the stores of the context leave the gate in order; no byte of memory changes. In handler mode a
trap halts the context where it stands and is reported, and CAUSE, EPC, ESLOT and EINFO keep their values (R382). ERET's return (R381): the
set-aside state comes back, with what was pending measured from the resumed group, whatever the handler has done to the registers it shares. -/
def Obligations.TrapEntry : Prop :=
  (∀ (s : State) (k x cause addr info : Nat) (slot : Option Nat), (ctxOf s k x).sp.hmode = false →
      let c := ctxOf s k x
      let t := trapEntry s k x cause addr slot info
      let e := ctxOf t k x
      e.sp = { c.sp with cause := cause % 64, epc := addr / 8 * 8 % 2 ^ 48, eslot := (match slot with | some n => 8 + n % 8 | none => 0),
                         einfo := BitVec.ofNat 64 info, hmode := true }
      ∧ e.pc = (if cause = 0x1A then (coreOf (releaseStores s k x) k).replayv else (coreOf (releaseStores s k x) k).tvec)
      ∧ e.hold = 6
      ∧ e.aside = some ⟨c.clock, c.regs.armed, c.regs.nest, c.regs.ka, c.regs.kb, c.regs.shadow, c.markRegs, c.markClock, c.regs.loopBuf⟩
      ∧ e.regs = { c.regs with armed := [], ka := [], kb := [], shadow := [], loopBuf := [] }
      ∧ (e.status = c.status ∧ e.toRun = c.toRun ∧ e.task = c.task ∧ e.world = c.world ∧ e.sems = c.sems ∧ e.qcfg = c.qcfg ∧ e.fsc = c.fsc
        ∧ e.clock = c.clock ∧ e.reqs = c.reqs ∧ e.pendA = c.pendA)
      ∧ t = { s with cores := t.cores, ctxs := t.ctxs }
      ∧ (∀ k' x', 8 * k' + x' ≠ 8 * k + x → ctxOf t k' x' = ctxOf s k' x')
      ∧ ((s.cores.map (·.1)).Pairwise (· < ·) →
          let key : Store → Target × List Byte × Bool × Bool := fun u => (u.tgt, u.data, u.tag, u.bad)
          (coreOf t k).tvec = (coreOf s k).tvec ∧ (coreOf t k).replayv = (coreOf s k).replayv
          ∧ (coreOf t k).ms.gated = (coreOf s k).ms.gated.filter (fun u => u.ctx != x)
          ∧ (coreOf t k).ms.released.map key = (coreOf s k).ms.released.map key ++ ((coreOf s k).ms.gated.filter (fun u => u.ctx == x)).map key))
  ∧ (∀ (s : State) (k x cause addr info : Nat) (slot : Option Nat), (ctxOf s k x).sp.hmode = true →
      let t := trapEntry s k x cause addr slot info
      (ctxOf t k x).status = .halted ∧ (ctxOf t k x).toRun = false ∧ (ctxOf t k x).pc = addr ∧ (ctxOf t k x).sp = (ctxOf s k x).sp
      ∧ (ctxOf t k x).regs = (ctxOf s k x).regs ∧ (ctxOf t k x).aside = (ctxOf s k x).aside
      ∧ t.out.pldm = s.out.pldm ++ [(cause, info)] ∧ t.mem = s.mem)
  ∧ (∀ (c h : Ctx) (tvec replayv cause epc info pc : Nat) (slot : Option Nat),
      h.aside = (enterTrap c tvec replayv cause epc slot info).aside →
      let r := leaveTrap h pc
      r.pc = pc ∧ r.sp = { h.sp with hmode := false } ∧ r.aside = none ∧ r.clock = h.clock
      ∧ r.regs = { h.regs with
          armed := c.regs.armed, nest := c.regs.nest, ka := c.regs.ka, kb := c.regs.kb, loopBuf := c.regs.loopBuf
          shadow := c.regs.shadow.map (fun p => { p with due := p.due + h.clock - c.clock }) ++ h.regs.shadow }
      ∧ (∀ p ∈ c.regs.shadow, ∀ n, p.due = c.clock + n →
          ∃ q ∈ r.regs.shadow, q.what = p.what ∧ q.due = r.clock + n ∧ q.waits = p.waits ∧ q.acq = p.acq))

/-- CTXSAVE, RESTORE and ERTQ (12 R258 to R261, 16 R323, 26 R445): a save is recorded with its semaphore, holds its target out of issue and, for a
stop of itself, parks it; RESTORE binds the image it names or says what is wrong; ERTQ asks for an entry, waits, and takes it.
Where it follows a convention of the model and not the spec, the convention is log 23, log 24, log 36. -/
def Obligations.ContextImages : Prop :=
  (∀ (g : Guard) (f : YX) (j1 : Iss) (p : Nat × Nat × Nat) (ps : List (Nat × Nat × Nat)),
    let me : Nat → Bool := fun cx => field f.fn 3 1 = 1 || f.fn % 8 = cx
    let target : Iss → Nat := fun j => if field f.fn 3 1 = 1 then j.st.cx else f.fn % 8
    let stop := field f.fn 12 1 = 1
    let off : Iss → Nat := fun j => globalAddr j.ctx f.xa 0 1
    let found : Iss → Prop := fun j => Clean [f.xa] j ∧ (me j.st.cx = true → mxOpen j.st j.st.core j.st.cx = false)
      ∧ j.locate (field f.fn 4 4) (off j) (imageLen j.st j.st.core (target j)) 64 rSTORE 0 true 0x16 none = .ok (j1, .mem (p :: ps))
    let place := firstBytes 72 (p :: ps)
    let drawn : State → State := fun s => { s with free := s.free + 1 }
    let saves : State → Nat → Option Nat → Nat → State := fun s x im n => setAct s { actCtx s with
      saves := (actCtx s).saves ++ [⟨x, field f.fn 8 4, decide stop, place, im, s.now + 1 + Config.unitDelay n⟩] }
    Waits (.ctxsave g f) (fun j => me j.st.cx = true ∧ mxOpen j.st j.st.core j.st.cx = true) (fun _ s => s)
    ∧ Completes (.ctxsave g f) (fun j => found j ∧ me j.st.cx = true ∧ ¬ stop ∧ j1.Sound) (fun j => j1.atLast (fun s =>
        let r := takeImage (drawn s) j.st.core j.st.cx
        saves (writeImage r.1 j.st.core (actCtx (drawn s)).world place (imageHeader (drawn s) j.st.core j.st.cx false) r.2) j.st.cx (some r.2) s.free))
    ∧ Completes (.ctxsave g f) (fun j => found j ∧ me j.st.cx = true ∧ stop ∧ j1.Sound) (fun j => { j1.atLast (fun s =>
        let t := saves (drawn s) j.st.cx none s.free
        setCtx t j.st.core j.st.cx { ctxOf t j.st.core j.st.cx with heldOut := true }) with stop := .park 0 })
    ∧ Completes (.ctxsave g f) (fun j => found j ∧ me j.st.cx = false ∧ j1.Sound) (fun j => j1.atLast (fun s =>
        let t := saves (drawn s) (target j) none s.free
        setCtx t j.st.core (target j) { ctxOf t j.st.core (target j) with heldOut := true })))
  ∧ (∀ (g : Guard) (f : YX) (j1 j2 : Iss) (p : Nat × Nat × Nat) (ps : List (Nat × Nat × Nat)) (x : Nat),
    let bs : List Byte := j1.peekMem (p :: ps)
    let word : Nat → Nat := fun n => leVal ((bs.drop (8 * n)).take 8)
    let core := field (word 0) 32 10
    let d := field (word 2) 14 3
    let r := field (word 2) 0 14
    let found : Iss → Prop := fun j => Clean [f.xa] j ∧ lowestDormant j.st j.st.core = some x
      ∧ j.locate (field f.fn 4 4) (globalAddr j.ctx f.xa 0 1) 72 64 rLOAD 0 false 0x16 none = .ok (j1, .mem (p :: ps))
    let sound : Prop := field (word 0) 0 32 ≤ 2129984 ∧ field (word 0) 48 16 = 0 ∧ field (word 1) 48 16 = 0 ∧ field (word 2) 17 47 = 0
      ∧ field (word 3) 16 48 = 0 ∧ ∀ b ∈ (bs.drop 32).take 32, b = 0#8
    let whole : Iss → Prop := fun j => found j ∧ sound ∧ ∃ q,
      j1.locate (field f.fn 4 4) (globalAddr j.ctx f.xa 0 1) (Nat.max (field (word 0) 0 32) 72) 64 rLOAD 0 false 0x16 none = .ok (j2, q)
    let moves : Iss → Prop := fun j => core = j.st.core ∨ (field f.fn 12 1 = 1 ∧ field (word 0) 46 1 = 1)
    Waits (.restore g f) (fun j => lowestDormant j.st j.st.core = none) (fun _ s => s)
    ∧ Traps (.restore g f) (fun j => found j ∧ ¬ sound) 0x02 (fun _ => 0)
    ∧ (∀ v old, Completes (.restore g f) (fun j => whole j ∧ word 8 ≠ 0 ∧ j.st.images[word 8 - 1]? = some v ∧ v.ended = false
        ∧ parkedAt j.st d r = some old ∧ field (word 0) 45 1 = 1 ∧ moves j
        ∧ (∀ n, n < 16 → field (word 3) n 1 = 1 → sameSegment j.st n core j.st.core = true) ∧ j2.Sound) (fun j => j2.atEnd (fun s =>
          let t := bindImage s j.st.core x { v with ctx := { v.ctx with pc := field (word 1) 0 48 } } old d r
          creditSem t j.st.core t.cx (field f.fn 8 4) 4)))
    ∧ (∀ v, Traps (.restore g f) (fun j => whole j ∧ word 8 ≠ 0 ∧ j.st.images[word 8 - 1]? = some v ∧ v.ended = true) 0x23 (fun _ => 1))
    ∧ Traps (.restore g f) (fun j => whole j ∧ (∀ v, word 8 ≠ 0 → j.st.images[word 8 - 1]? = some v → v.ended = false)
        ∧ (word 8 = 0 ∨ j.st.images[word 8 - 1]? = none ∨ parkedAt j.st d r = none)) 0x24 (fun _ => 2))
  ∧ ∀ (g : Guard) (f : YX),
    let asked : Iss → Option LoadReq := fun j => j.core.ms.loads.find? (fun l => l.ctx == j.st.cx && l.dst == ertMarker)
    let entry : Iss → Option (Nat × Nat) := fun j =>
      objByte j.st j.die (ertObj j.st j.die) (ertOff j.st j.die ((readS j.ctx f.xb).toNat % 2 ^ 24))
    Completes (.ertq g f) (fun j => Clean [f.xb] j ∧ asked j = none ∧ entry j = none) (fun j =>
      ({ j with st := { j.st with free := j.st.free + 1 } } : Iss).writeS 1 f.xa (Config.freeWord j.st.free))
    ∧ (∀ p, Waits (.ertq g f) (fun j => Clean [f.xb] j ∧ asked j = none ∧ entry j = some p) (fun j s =>
        let l : LoadReq := { ctx := s.cx, key := 0, cls := 16, world := 0, seq := (coreOf s j.st.core).ms.seq, pieces := [(p.1, p.2, 8)], own := [], dst := ertMarker,
                             wantTag := false, fill := false, exact := false, reach := none, slot := none, fin := none, got := none }
        let k := j.st.core
        let t := (takeSeq s k).1
        let adds : State → LoadReq → State := fun s l => setCore s k { coreOf s k with ms := { (coreOf s k).ms with loads := (coreOf s k).ms.loads ++ [l] } }
        if dieOfAddr p.1 = dieOfCore k then adds (bindSlot t k).1 { l with slot := some (bindSlot t k).2, fin := some ((bindSlot t k).2 + 152) }
        else adds t { l with reach := some (s.now + 48 * hops (dieOfCore k) (dieOfAddr p.1)) }))
    ∧ (∀ l, Waits (.ertq g f) (fun j => Clean [f.xb] j ∧ asked j = some l ∧ (l.got = none ∨ l.fin.any (fun t => t ≤ j.st.now) = false)) (fun _ s => s)
      ∧ ∀ v, Completes (.ertq g f) (fun j => Clean [f.xb] j ∧ asked j = some l ∧ l.got = some v ∧ l.fin.any (fun t => t ≤ j.st.now) = true) (fun j =>
        (j.setCore { j.core with ms := { j.core.ms with loads := j.core.ms.loads.filter (fun u => u.seq != l.seq) } }).writeS 1 f.xa (BitVec.ofNat 64 (leVal v.1))))

/-- The custom instructions of the Shuttle core (16 R317 to R328, 23 R413, 26 R446): rd takes the status or the count, the pc moves on by 4, and
the queue, the table, the tiles, the drawer, the filter and the fabric change as each says; an operand outside scratch or misaligned takes an
exception, a malformed record and an entry in a wrong state give 7 and a cause.
Where it follows a convention of the model and not the spec, the convention is log 32, log 34, log 35, log 90. -/
def Obligations.ShuttleCustom : Prop :=
  ∀ (s : State) (rd rs1 rs2 : Nat),
    let d := s.die
    let a := xOf s rs1
    let b := xOf s rs2
    let w := b.toNat
    let e := ertGet s d (w % 2 ^ 24)
    let ends : State → BitVec 64 → Host.Outcome State Fault Refusal := fun t v => .next (shDone t d rd v)
    let fails : Nat → Nat → Host.Outcome State Fault Refusal := fun cause insn => .next (shDone (logCause s d cause insn a b) d rd 7#64)
    let good : Prop := (field w 0 16 = 65535 ∨ field w 0 16 < nexp s d) ∧ field w 16 8 ≤ nlay s d
    let fresh : Prop := rrFwd w = true ∨ filterAsk (exOf s d) a.toNat = .fresh
    -- what completing is
    (∀ t v, let h := shOf t d
      shDone t d rd v = setSh t d { (if rd = 0 then h else { h with x := mapSet h.x 0#64 rd v }) with
        pc := (h.pc + 4) % 2 ^ 64, asked := none, answer := none })
    -- GQPOP
    ∧ (a.toNat % 64 = 0 → a.toNat + 64 ≤ 65536 →
        ((exOf s d).gate = [] → exec (.gqpop rd rs1) s = ends s 0#64)
        ∧ ∀ kind rec rest, (exOf s d).gate = (kind, rec) :: rest →
            exec (.gqpop rd rs1) s = (let t := setEx s d { exOf s d with gate := rest }
              ends (setSh t d (putScratch (shOf t d) a.toNat rec)) (BitVec.ofNat 64 kind)))
    ∧ (a.toNat % 64 ≠ 0 → exec (.gqpop rd rs1) s = .next (shException s d 6 a.toNat))
    ∧ (a.toNat % 64 = 0 → 65536 < a.toNat + 64 → exec (.gqpop rd rs1) s = .next (shException s d 7 a.toNat))
    -- RRPUT
    ∧ (¬ good → exec (.rrput rd rs1 rs2) s = fails 0x37 1)
    ∧ (good → field w 0 16 = 65535 →
        exec (.rrput rd rs1 rs2) s = ends (setRoute s d 0x7C6 ((routeReg s d 0x7C6 + 1) % 2 ^ 32)) 5#64)
    ∧ (good → field w 0 16 ≠ 65535 →
        (5 ≤ ertState e → exec (.rrput rd rs1 rs2) s = fails 0x34 1)
        ∧ (ertState e = 0 ∨ ertState e = 3 → exec (.rrput rd rs1 rs2) s = ends s 3#64)
        ∧ (ertState e = 2 → exec (.rrput rd rs1 rs2) s = ends s 2#64)
        ∧ (ertState e = 1 ∨ ertState e = 4 →
            (rrFwd w = false → filterAsk (exOf s d) a.toNat = .duplicate → exec (.rrput rd rs1 rs2) s = ends (dropDuplicate s d) 4#64)
            ∧ (rrFwd w = false → filterAsk (exOf s d) a.toNat = .full → exec (.rrput rd rs1 rs2) s = fails 0x38 1)
            ∧ (rrFwd w = false → filterAsk (exOf s d) a.toNat = .fresh → field e 88 12 ≠ 0 → field e 112 8 = roundOf a.toNat →
                field e 88 12 ≤ field e 100 12 → exec (.rrput rd rs1 rs2) s = ends s 1#64)
            ∧ (fresh → (rrFwd w = true ∨ field e 88 12 = 0 ∨ field e 112 8 ≠ roundOf a.toNat ∨ field e 100 12 < field e 88 12) →
                (∀ t v, placeRow s d a.toNat w = some (t, v) → exec (.rrput rd rs1 rs2) s = ends t (BitVec.ofNat 64 v))
                ∧ (placeRow s d a.toNat w = none → exec (.rrput rd rs1 rs2) s = .next s))))
    -- PARK
    ∧ (¬ good → exec (.park rd rs1 rs2) s = fails 0x37 4)
    ∧ (good → field w 0 16 ≠ 65535 →
        (5 ≤ ertState e → exec (.park rd rs1 rs2) s = fails 0x34 4)
        ∧ (ertState e = 2 → exec (.park rd rs1 rs2) s = ends s 2#64)
        ∧ (ertState e = 0 ∨ ertState e = 3 → 8192 ≤ (exOf s d).drawer.length → exec (.park rd rs1 rs2) s = fails 0x36 4)
        ∧ (ertState e = 0 ∨ ertState e = 3 → (exOf s d).drawer.length < 8192 →
            exec (.park rd rs1 rs2) s = ends (setEx s d { exOf s d with drawer := (exOf s d).drawer ++ [(a, b)] }) 6#64)
        ∧ (ertState e = 1 ∨ ertState e = 4 → fresh → ∀ t v, placeRow s d a.toNat w = some (t, v) →
            exec (.park rd rs1 rs2) s = ends t (BitVec.ofNat 64 v)))
    -- UNPARK and DTILE
    ∧ (let tileAsked : State → Nat → State := fun s n => if (freeRec s d).isSome then spawnTile s d n
         else report (setTile s d n { tileAt s d n with due := true }) 0x22 (2 * d)
       let key := a.toNat % 2 ^ 24
       let k := ertState (ertGet s d key)
       (keyGood s d key = false → exec (.unpark rd rs1) s = ends (logCause s d 0x37 5 a 0#64) 0#64)
       ∧ (keyGood s d key = true → 5 ≤ k → exec (.unpark rd rs1) s = .next (shDone (logCause s d 0x34 5 a 0#64) d rd 7#64))
       ∧ (keyGood s d key = true → k = 0 ∨ k = 2 ∨ k = 3 → exec (.unpark rd rs1) s = ends s 0#64)
       ∧ (keyGood s d key = true → k = 1 ∨ k = 4 → (∀ r ∈ (exOf s d).drawer, rrKey r.2.toNat ≠ key) → (shOf s d).placed = 0 →
            exec (.unpark rd rs1) s = ends (setSh s d { shOf s d with placed := 0 }) 0#64)
       ∧ (let mine := (exOf s d).drawer.filter (fun r => rrKey r.2.toNat == key)
          let new := (mine.filter (fun r => !rrFwd r.2.toNat && filterAsk (exOf s d) r.1.toNat != .duplicate)).length
          let u := unparkRows s d key (mine.length + 1) (shOf s d).placed
          keyGood s d key = true → k = 1 ∨ k = 4 → (new ≠ 0 → 8192 < (exOf s d).keysNew.length + new →
              exec (.unpark rd rs1) s = .next (shDone (logCause s d 0x38 5 a 0#64) d rd 7#64))
            ∧ ((new = 0 ∨ (exOf s d).keysNew.length + new ≤ 8192) → u.2.2 = true →
              exec (.unpark rd rs1) s = ends (setSh u.1 d { shOf u.1 d with placed := 0 }) (BitVec.ofNat 64 u.2.1)))
       ∧ (a ≠ BitVec.allOnes 64 → keyGood s d key = false → exec (.dtile rd rs1) s = ends (logCause s d 0x37 7 a 0#64) 0#64)
       ∧ (a ≠ BitVec.allOnes 64 → keyGood s d key = true → openTile s d key = none → exec (.dtile rd rs1) s = ends s 0#64)
       ∧ (∀ n, a ≠ BitVec.allOnes 64 → keyGood s d key = true → openTile s d key = some n → exec (.dtile rd rs1) s = ends (tileAsked s n) 1#64)
       ∧ (let js := (List.range 64).filter (fun j => tileOpen (tileAt s d j))
          a = BitVec.allOnes 64 → exec (.dtile rd rs1) s = ends (js.foldl tileAsked s) (BitVec.ofNat 64 js.length)))
    -- FWDROW
    ∧ (¬ good → exec (.fwdrow rd rs1 rs2) s = fails 0x37 6)
    ∧ (good → (rrFwd w = true ∨ ertState e ≠ 2) → exec (.fwdrow rd rs1 rs2) s = ends s 3#64)
    ∧ (good → rrFwd w = false → ertState e = 2 →
        let bs := leBytes 8 (sealHeader a.toNat) ++ leBytes 8 (field w 0 24 + 2 ^ 24) ++ readObj s d (rowObj s d) (64 * rrRow w) (rowBytes s d)
        exec (.fwdrow rd rs1 rs2) s = (if field e 3 6 = Config.moduleNumber
          then ends (setEx s d { exOf s d with arriving := (exOf s d).arriving ++ [(field e 3 6, [], bs)] }) 0#64
          else ends (setFab s d { fabOf s d with sendQ := (fabOf s d).sendQ ++ mkFlits s (field e 3 6) 2 7 0 0 0 0 bs }) 0#64))
    -- ERTGET and ERTSET
    ∧ (w % 16 = 0 → w + 16 ≤ 65536 →
        (field a.toNat 24 6 = Config.moduleNumber →
          let v := ertGet s d (a.toNat % 2 ^ 24)
          let t := setSh s d (putScratch (shOf s d) w (leBytes 16 v))
          exec (.ertget rd rs1 rs2) s = ends (if 5 ≤ ertState v then logCause t d 0x34 2 a b else t) (BitVec.ofNat 64 (ertState v)))
        ∧ (field a.toNat 24 6 ≠ Config.moduleNumber →
          ((shOf s d).asked = none → peerDown s d (field a.toNat 24 6) = true → exec (.ertget rd rs1 rs2) s = fails 0x2E 2)
          ∧ (∀ tag bs, (shOf s d).asked = some tag → (shOf s d).answer = some bs → bs.length = 16 →
            let t := setSh s d (putScratch (shOf s d) w (leBytes 16 (leVal bs)))
            exec (.ertget rd rs1 rs2) s =
              ends (if 5 ≤ ertState (leVal bs) then logCause t d 0x34 2 a b else t) (BitVec.ofNat 64 (ertState (leVal bs)))))
        ∧ (let r := ertSet s d (a.toNat % 2 ^ 24) (leVal (getBytes (shOf s d).scratch w 16))
           exec (.ertset rd rs1 rs2) s = ends r.1 (BitVec.ofNat 64 r.2)))
    ∧ (w % 16 ≠ 0 → exec (.ertget rd rs1 rs2) s = .next (shException s d 6 w) ∧ exec (.ertset rd rs1 rs2) s = .next (shException s d 6 w))

/-! ## What happens to the module: the events -/

/-- The issue logic between groups (02 R30, R31, 14 R284, R288): the candidate of highest PRIO, found first upwards from the last issuer, takes
issue, in the last of two exchange cycles where another context left it just before; a cycle without a candidate is IDLE; a candidate
PREEMPT_GAP above the holder ends the stretch at a group boundary, and is held off while the group stalls.
Where it follows a convention of the model and not the spec, the convention is log 44. -/
def Obligations.IssueChoice : Prop :=
  (∀ (s : State) (k x : Nat),
    let away : Nat → Nat := fun y => (y + 8 - ((coreOf s k).lastIssued + 1) % 8) % 8
    (coreOf s k).holder = none → swapping s k = false → x < 8 → isCandidate s k x = true →
    (∀ y, y < 8 → isCandidate s k y = true → prioOf s k y < prioOf s k x ∨ (prioOf s k y = prioOf s k x ∧ away x ≤ away y)) →
    ∃ t, exec (.stretchEndChoice k) s = .next t ∧ (coreOf t k).holder = some x ∧ (coreOf t k).lastIssued = x
      ∧ (coreOf t k).exchLeft = (if (coreOf s k).exchLeft = 4 ∧ x ≠ (coreOf s k).lastIssued then 1 else 0))
  ∧ (∀ (s : State) (k : Nat), (coreOf s k).holder = none → swapping s k = false → (∀ y, y < 8 → isCandidate s k y = false) →
      (coreOf s k).exchLeft = 0 → exec (.stretchEndChoice k) s = .next (countIdle s k))
  ∧ (∀ (s : State) (k x y : Nat),
      let gap := pgap (dieOf s (dieOfCore k))
      (coreOf s k).holder = some x → (coreOf s k).exchLeft ≠ 1 → (coreOf s k).syncWait = none → (ctxOf s k x).sp.hmode = false → isVictim s k x = false →
      gap ≠ 0 → y < 8 → y ≠ x → isCandidate s k y = true → prioOf s k x + gap ≤ prioOf s k y →
      exec (.issuePreemption k) s = .next (if (ctxOf s k x).stalled = 0 then leaveIssue s k x
        else setCore s k { coreOf s k with heldOff := (coreOf s k).heldOff + 1 }))
  ∧ (∀ (s : State) (k x : Nat), (coreOf s k).holder = some x → (ctxOf s k x).sp.hmode = true → isVictim s k x = false →
      exec (.issuePreemption k) s = .next s)

/-- Causes that come to a core from outside its group (22 R376, R378, R379, R382): the lowest pending class-A cause at a group boundary outside
handler mode, 0x27 after 65,536 cycles of hold-off with the stretch at its end, 0x25 of slot 7 after 2^20 cycles at a sync group, and the cause of
a group that does not decode; each is entered with CAUSE, EPC at the group, EINFO and handler mode.
Where it follows a convention of the model and not the spec, the convention is log 43. -/
def Obligations.OutsideCauses : Prop :=
  let entered : Ctx → Nat → Nat → Nat → Nat → Prop := fun c cause pc eslot info =>
    c.sp.cause = cause % 64 ∧ c.sp.epc = pc / 8 * 8 % 2 ^ 48 ∧ c.sp.eslot = eslot ∧ c.sp.einfo = BitVec.ofNat 64 info ∧ c.sp.hmode = true
  (∀ (s : State) (k x : Nat) (p : Nat × Nat), (coreOf s k).holder = some x → (coreOf s k).syncWait = none → (ctxOf s k x).status = .bound →
    (ctxOf s k x).sp.hmode = false →
    (∃ before after, (ctxOf s k x).pendA = before ++ p :: after ∧ (∀ q ∈ before, p.1 < q.1) ∧ (∀ q ∈ after, p.1 ≤ q.1)) →
    ∃ t, exec (.asyncTrapTaken k) s = .next t ∧ entered (ctxOf t k x) p.1 (ctxOf s k x).pc 0 p.2 ∧ (ctxOf t k x).pendA = (ctxOf s k x).pendA.erase p)
  ∧ (∀ (s : State) (k x : Nat), (coreOf s k).holder = some x → 65536 ≤ (coreOf s k).heldOff → (ctxOf s k x).sp.hmode = false →
    ∃ t, exec (.preemptHoldTimeout k) s = .next t ∧ entered (ctxOf t k x) 0x27 (ctxOf s k x).pc 0 0 ∧ (coreOf t k).holder = none)
  ∧ (∀ (s : State) (k x ls since : Nat), (coreOf s k).holder = some x → (coreOf s k).syncWait = some (ls, since) → since + 2 ^ 20 ≤ s.now →
    (ctxOf s k x).sp.hmode = false →
    ∃ t, exec (.syncWatchdog k) s = .next t ∧ entered (ctxOf t k x) 0x25 (ctxOf s k x).pc 15 0)
  ∧ (∀ (s : State) (cause slot info : Nat), (actCtx s).sp.hmode = false →
    ∃ t, exec (.illegalOpcode cause slot info) s = .next t
      ∧ entered (ctxOf t s.core s.cx) cause (actCtx s).pc (if slot < 8 then 8 + slot else 0) info)
  ∧ (∀ (s : State) (source k x info : Nat), source = 1 ∨ source = 3 ∨ source = 5 ∨ source = 7 → x < 8 → (ctxOf s k x).task ≠ none →
    (ctxOf s k x).status ≠ .ending → (ctxOf s k x).status ≠ .parked →
    ∃ t, exec (.machineCheck source (8 * k + x) info) s = .next t
      ∧ entered (ctxOf t k x) 0x3F (ctxOf s k x).pc 0 (source + 256 * x + 65536 * (info % 2 ^ 48)) ∧ (ctxOf t k x).frozen = false)

/-- A core's banks, regions, counts and tables (03 R45, R49, R50, 14 R279, R288, R291, 24 R414): a value lands; a demand exchange ends with the bank the
demanding context's; an image goes to the backing area; the occupancy counts of a phase are added to its job's table; dormant contexts are reported
to every die of the partition; a region of the other partition is exchanged; an object entry arrives.
Where it follows a convention of the model and not the spec, the convention is log 66, log 67, log 70. -/
def Obligations.CoreUpkeep : Prop :=
  (∀ (s : State) (k x n : Nat) (v : BitVec 64) (p : Pend), (ctxOf s k x).status = .bound → n ≠ 0 → (ctxOf s k x).regs.shadow = [p] →
    p.due ≤ (ctxOf s k x).clock → p = { p with what := .scalar n v, waits := none, ring := none, note := none, acq := false, struck := false } →
    ∃ t, exec (.shadowWriteLand k x) s = .next t
      ∧ ctxOf t k x = writeS { ctxOf s k x with regs := { (ctxOf s k x).regs with shadow := [] } } n v)
  ∧ (∀ (s : State) (k : Nat) (e : Exchange), (coreOf s k).vrf.exch = some e → e.fin ≤ s.now →
    ∃ t, exec (.demandExchangeDone k) s = .next t ∧ bankOwner (coreOf t k).vrf e.bank = e.ctx + 1 ∧ (coreOf t k).vrf.exch = none)
  ∧ (∀ (s : State) (k : Nat) (e : Exchange) (i : Image) (rest : List Image), (coreOf s k).vrf.exch = some e → (coreOf s k).vrf.images = i :: rest →
    bankOwner (coreOf s k).vrf e.bank ≠ 0 → 48 ≤ (coreOf s k).vrf.images.length →
    ∃ t f, exec (.bobbinBackingWrite k) s = .next t ∧ (coreOf t k).vrf.images = rest ∧ (coreOf t k).vrf.backing = i :: (coreOf s k).vrf.backing
      ∧ (coreOf t k).vrf.exch = some { e with fin := f } ∧ e.fin ≤ f ∧ s.now + 152 ≤ f)
  ∧ (∀ (s : State) (k p id : Nat) (o : Occ) (j : Job), memWf s.mem = true → (coreOf s k).occ = [(p, o)] → o ≠ Occ.init → s.now < (coreOf s k).counted →
    s.jobs.find? (fun j => j.2.running && j.2.part + (if j.2.standby then 8 else 0) == (coreOf s k).part) = some (id, j) →
    let a := j.occbase + 32 * (256 * k + p)
    let word : State → Nat → Nat → Nat := fun s o n => leVal (getBytes s.mem (a + o) n)
    ∃ t, exec (.occupancyFlush k) s = .next t
      ∧ word t 0 8 = (word s 0 8 + o.busy) % 2 ^ 64 ∧ word t 8 8 = (word s 8 8 + o.stall) % 2 ^ 64 ∧ word t 16 8 = (word s 16 8 + o.idle) % 2 ^ 64
      ∧ word t 24 4 = (word s 24 4 + o.disp) % 2 ^ 32 ∧ word t 28 4 = (word s 28 4 + o.preempt) % 2 ^ 32
      ∧ (∀ b, b < a ∨ a + 32 ≤ b → getByte t.mem b = getByte s.mem b))
  ∧ (∀ (s : State) (k : Nat), dormant s k < 8 →
    ∃ t, exec (.dormantCountReport k) s = .next t ∧ (∀ d ∈ groupDies s (dieOfCore k), viewOf t d k = dormant s k) ∧ t.ctxs = s.ctxs)
  ∧ (∀ (s : State) (k r : Nat), regionForeign s k r = true →
    ∃ t, exec (.regionDemandSwap k r) s = .next t ∧ mapGet (coreOf t k).bufs.region 0 r = (coreOf s k).part + 1)
  ∧ (∀ (s : State) (k r : Nat), spillTarget s k = some r →
    ∃ t, exec (.backgroundSpill k) s = .next t ∧ mapGet (coreOf t k).bufs.region 0 r = (coreOf s k).part + 1)
  ∧ (∀ (s : State) (k obj : Nat), (∃ c, (obj, c) ∈ (coreOf s k).ms.objWait) →
    ∃ t, exec (.objectEntryFetched k obj) s = .next t ∧ (coreOf t k).ms.objCache = (coreOf s k).ms.objCache ++ [obj]
      ∧ (∀ c, (obj, c) ∉ (coreOf t k).ms.objWait))

/-- The task unit (02 R28, R32, R41, 14 R278 to R282): the one eligible record is dispatched to its place; a dispatch that arrives binds its
record to the lowest dormant context, which starts at ENTRY with s1 and s2 its record and die, c1 its ARG and PRIO its priority; a signal counts
or fires its continuation; a continuation whose wait is over is READY; a completed level makes its record READY.
Where it follows a convention of the model and not the spec, the convention is log 23, log 82. -/
def Obligations.TaskUnit : Prop :=
  (∀ (s : State) (d r n : Nat),
    let t := (dieOf s d).tasks
    let v := taskOf s d r
    (∀ p ∈ t.recs, p.2.state = .ready → recCancelled s p.2 = false) → t.recs ≠ [] →
    (∀ l, l < 24 → eligible s d l = (if l = v.prio then [(subqueueOf v, n, r)] else [])) → v.prio < 24 →
    subqueueOf v ∈ (mapGet t.rings Ring.init v.prio).order → n < 2 ^ 80 →
    ∃ u, exec (.dispatch d) s = .next u
      ∧ (dieOf u d).tasks.flights = t.flights ++ [⟨r, placeTask s d v, s.now + Config.unitDelay s.free % 24⟩])
  ∧ (∀ (s : State) (d x : Nat) (f : Flight),
    let v := taskOf s d f.record
    (dieOf s d).tasks.flights = [f] → f.arrive ≤ s.now → v.state = .ready → recCancelled s v = false → lowestDormant s f.core = some x →
    v.rival = none → v.msg = none →
    ∃ u, exec (.taskBind d) s = .next u
      ∧ (let c := ctxOf u f.core x
         c.status = .bound ∧ c.toRun = true ∧ c.pc = v.entry ∧ c.sp.prio = v.prio ∧ c.task = some (d, f.record)
         ∧ readS c 1 = BitVec.ofNat 64 f.record ∧ readS c 2 = BitVec.ofNat 64 d ∧ readC c 1 = v.arg ∧ c.world = v.world
         ∧ (∀ m, 2 < m → readS c m = 0#64) ∧ (∀ m, m ≠ 0 → readP c m = false))
      ∧ (taskOf u d f.record).state = .bound ∧ (taskOf u d f.record).ctx = some (f.core, x))
  ∧ (∀ (s : State) (d j : Nat),
    let c := joinOf s d j
    (c.state = .free → exec (.signalArrival d j) s = .next s)
    ∧ (c.state = .opened ∨ (c.state = .sealed ∧ c.signals + 1 ≠ c.expect) →
        ∃ u, exec (.signalArrival d j) s = .next u ∧ joinOf u d j = { c with signals := c.signals + 1 })
    ∧ (c.state = .sealed → c.signals + 1 = c.expect → (taskOf s d c.cont).state = .held →
        (∀ w ∈ (dieOf s d).tasks.waiting, ∀ e n q, w.act ≠ .seal d e n q) →
        ∃ u, exec (.signalArrival d j) s = .next u
          ∧ (dieOf u d).tasks.waiting = (dieOf s d).tasks.waiting ++ [⟨80 * d, 0, 0, .ready d c.cont⟩]))
  ∧ (∀ (s : State) (d r : Nat) (w : Waiting), w ∈ (dieOf s d).tasks.waiting → w.act = .ready d r → actDue s w = true → (taskOf s d r).state = .held →
    recCancelled s (taskOf s d r) = false →
    ∃ u, exec (.continuationReady d r) s = .next u ∧ (taskOf u d r).state = .ready ∧ (taskOf u d r).entry = (taskOf s d r).entry)
  ∧ (∀ (s : State) (d r key : Nat) (w : Waiting),
    let v := taskOf s d r
    completion s key = some (d, w) → w.act = .complete key d r → r < 16384 → v.state = .held → v.world = 0 →
    (∀ q ∈ levelsOfRec v, (levelOf s q).cancel = false ∧ (levelOf s q).live < 2 ^ 24 - 1) →
    ∃ u, exec (.completionRecordReady key) s = .next u ∧ (taskOf u d r).state = .ready
      ∧ (∀ q ∈ levelsOfRec v, (levelOf u q).live = (levelOf s q).live + 1))

/-- A task's end, slot pre-emption, sync releases and event counters (02 R37, R40, 12 R243, 14 R285, R286): an ending task with nothing open frees
its record; a victim is chosen; its image is written after 128 cycles and the guest bound; after the guest's end it comes back; a released line
toggles PHASE in every core that takes part; a source adds to its counter or sets it.
Where it follows a convention of the model and not the spec, the convention is log 45. -/
def Obligations.TaskEndAndPreemption : Prop :=
  (∀ (s : State) (k x d r : Nat),
    let c := ctxOf s k x
    let m := (coreOf s k).ms
    c.status = .ending → c.task = some (d, r) → (∀ t ∈ m.released ++ m.gated, t.ctx ≠ x) → (∀ a ∈ m.atoms, a.ctx ≠ x) → c.eng = Engines.init →
    (∀ q ∈ c.reqs, q.kind = 0) → (∀ f ∈ s.worlds.releasing, f.core ≠ k ∨ f.ctx ≠ x) →
    c.saves = [] → mxOpen s k x = false →
    ∃ u, exec (.taskEndComplete k x) s = .next u ∧ taskOf u d r = { TaskRec.init with order := s.now + 1 })
  ∧ (∀ (s : State) (d r k x : Nat),
    let v := taskOf s d r
    let open_ : Nat → Nat → Prop := fun k x =>
      k ∈ scopeCores s d v ∧ x < 8 ∧ pgap (dieOf s (dieOfCore k)) ≠ 0 ∧ hasStandby s (dieOfCore k) = false ∧ victimOk s k x v.prio = true
    let less : Nat × Nat × Nat → Nat × Nat × Nat → Prop := fun a b =>
      a.1 < b.1 ∨ (a.1 = b.1 ∧ (a.2.1 < b.2.1 ∨ (a.2.1 = b.2.1 ∧ a.2.2 < b.2.2)))
    starvedTask s d = some r → open_ k x → chosenNow s k x = false → (∀ k' x', open_ k' x' → ¬ less (prioOf s k' x', k', x') (prioOf s k x, k, x)) →
    ∃ u, exec (.slotPreemptChoose d) s = .next u ∧ (dieOf u d).tasks.preempts = (dieOf s d).tasks.preempts ++ [⟨r, k, x, none, s.now + 1⟩])
  ∧ (∀ (s : State) (d k x f : Nat) (p : Preempt), d < 8 →
    (dieOf s d).tasks.preempts = [p] → (∀ e, e < 8 → e ≠ d → ∀ q ∈ (dieOf s e).tasks.preempts, q.core ≠ k ∨ q.ctx ≠ x) → p = ⟨p.record, k, x, some f, p.chosen⟩ →
    p.record < 16384 → f ≤ s.now → (ctxOf s k x).status = .bound → recCancelled s (taskOf s d p.record) = false →
    (taskOf s d p.record).state = .ready →
    ∃ u, exec (.slotPreemptSaveDone k x) s = .next u ∧ mapGet (coreOf u k).vrf.area Ctx.init x = ctxOf s k x
      ∧ (ctxOf u k x).guestOf = true ∧ (ctxOf u k x).task = some (d, p.record) ∧ (ctxOf u k x).pc = (taskOf s d p.record).entry)
  ∧ (∀ (s : State) (k x f n : Nat) (c : Ctx), (dieOf s (dieOfCore k)).tasks.preempts = [⟨16384, k, x, some f, n⟩] → f ≤ s.now →
    mapGet (coreOf s k).vrf.area Ctx.init x = c → c.task ≠ none →
    ∃ u, exec (.guestEndRestore k x) s = .next u ∧ ctxOf u k x = c)
  ∧ (∀ (s : State) (d line seg : Nat),
    let key := releaseKey line seg
    let due := mapGet (dieOf s d).tasks.releases 0 key
    line < 16 → due ≠ 0 → due ≤ s.now → (∀ k ∈ segCores s d line seg, takesPart s line k = true) →
    ∃ u, exec (.syncRelease d line seg) s = .next u
      ∧ ∀ k ∈ segCores s d line seg, (coreOf u k).phase = (coreOf s k).phase ^^^ 2 ^ line ∧ hasArrived u line k = false)
  ∧ (∀ (s : State) (d src amount n : Nat),
    let old := regRaw (dieOf s d) (0x3100 + 8 * n)
    countersOf s d src = [n] → field (regRaw (dieOf s d) (0x3300 + 8 * n)) 33 1 = 0 →
    (src = 1 ∨ src = 3 ∨ src = 5 → 0 < old + amount → old + amount < 2 ^ 32 →
      ∃ u, exec (.eventCounterSource d src amount) s = .next u ∧ regRaw (dieOf u d) (0x3100 + 8 * n) = old + amount)
    ∧ (src = 2 ∨ src = 4 → 0 < amount → amount < 2 ^ 32 →
      ∃ u, exec (.eventCounterSource d src amount) s = .next u ∧ regRaw (dieOf u d) (0x3100 + 8 * n) = amount))

/-- The engines at work (09 R166, R172, R182, R183, R187, 11 R229, 12 R256, 23 R399): a head whose guard is false goes; one never written stops its
engine with 0x2A; a beat begins, and a gate record enters the queue; a finished command leaves and its semaphore counts; ring slots are
transferred; a stream port fetches; matrix operations and weight loads end; a collective writes its result.
Where it follows a convention of the model and not the spec, the convention is log 22, log 23, log 79, log 88. -/
def Obligations.EnginesAtWork : Prop :=
  (∀ (s : State) (k x e p : Nat) (sense : Bool) (m : Cmd) (rest : List Cmd), (ctxOf s k x).eng.queue e = m :: rest →
    (m.guard = some (0, p, sense) → exec (.engineGuardResolved k x e) s = .next (setQueue s k x e rest))
    ∧ (∀ d h, m.guard = some (d, p, sense) → d ≠ 0 → m.headAt = some h →
        exec (.guardNeverWritten k x e) s = .next (if h + 65536 ≤ s.now then
          let t := setQueue s k x e []
          setCtx t k x (raiseA (ctxOf t k x) 0x2A (m.sem + 16 * e)) else s))
    ∧ (m.upc = 2 → (m.desc.dsp = 8 → m.buffer.length < 128) → (ctxOf s k x).world = 0 → (∀ a b c d, m.kind ≠ .send a b c d) →
        exec (.engineCommandComplete k x e) s = .next (creditSem (setQueue s k x e rest) k x m.sem m.desc.scope))
    ∧ (∀ (b : State × Nat) ps,
        let d := m.desc
        let src := m.at_ d.ssp (d.src m.run)
        let dst := m.at_ d.dsp (d.dst m.run)
        let n := m.beatBytes src dst
        let moved := { m with upc := 1, fin := some (Nat.max (m.fin.getD 0) b.2) }
        m.guard = none → m.fault = none → m.upc = 0 → cmdOrdered s k x m = true → (m.kind = .cpy ∨ ∃ a b c d e, m.kind = .sfe a b c d e) →
        d.dsp ≠ 8 → d.ssp ≠ 7 → d.dsp ≠ 7 → m.sent = 0 → (m.word = 0 → checkRun s k x m src dst = .ok ()) →
        (d.ssp = 0 ∨ d.dsp = 0 →
          engSpan s k (x + 8) m.cap ((if d.ssp = 0 then src else dst) + 4 * m.word) n (cmdRights m (if d.ssp = 0 then rLOAD else rSTORE))
            (cmdWorld s k x m) (decide (d.dsp = 0)) = .ok ps
          ∧ farDie k ps = none ∧ bindSlot s k = (b.1, s.now) ∧ b.2 = s.now + (if d.dsp = 0 then 152 else 192)) →
        (d.ssp ≠ 0 → d.dsp ≠ 0 → b = (s, s.now + 1)) →
        exec (.engineBeat k x e) s = .next (setHead b.1 k x e (
          if 4 * m.word + n < d.bytes then moved.goto (m.word + n / 4) m.run else { moved with sent := 1 })))
    ∧ (∀ bs off, e = 7 → m.guard = none → m.fault = none → m.upc = 0 → cmdOrdered s k x m = true → m.kind = .gqpush bs off → (ctxOf s k x).world = 0 →
        gateCount (exOf s (dieOfCore k)) < 1024 →
        exec (.engineBeat k x e) s = .next (
          let y := exOf s (dieOfCore k)
          setHead (setEx s (dieOfCore k) { y with gate := y.gate ++ [(1, bs.take 8 ++ leBytes 8 (off / 64) ++ bs.drop 16)] }) k x e { m with upc := 2 })))
  ∧ (∀ (s : State) (k x n f : Nat) (u : Sub), (ctxOf s k x).eng.subs[n]? = some u → u.cmd.guard = none → u.cmd.fault = none → u.cmd.upc = 1 →
      u.draining = [] → u.cmd.fin = some f → f ≤ s.now → beatsOpen (setSub s k x n u) k u.cmd.seq = false →
      let t := clearBeats (setSub s k x n u) k u.cmd.seq
      (u.store = false → exec (.loaderSlotPublish k x n) s = .next (publishSlot t k x n u))
      ∧ (u.store = true → exec (.storerSlotWritten k x n) s = .next (writeSlot t k x n u)))
  ∧ (∀ (s : State) (k x g : Nat),
      let c := ctxOf s k x
      let p := portOf c g
      let a := ((p.base : Int) + walkOffset p.cnts p.strs p.fpos).toNat
      let v := readBuf s k x p.buf a (32 * 2 ^ p.w)
      p.armed = true → p.write = false → p.swz = false → p.start ≤ s.now → p.got.length < 8 → p.fpos < walkLength p.cnts →
      exec (.streamFetch k x g) s = .next (setCtx s k x (setPort c g { p with
        got := p.got ++ [⟨BitVec.ofNat 1024 (leVal v.1), if v.2 then .corrupt else .clean⟩]
        fpos := p.fpos + 1 })))
  ∧ (∀ (s : State) (k f : Nat) (m : MxOp) (rest : List MxOp), (coreOf s k).mx.q = m :: rest → m.fin = some f → f ≤ s.now →
      exec (.mxOpEnd k) s = .next (let r := finishMx s k m
        setCore r k { coreOf r k with mx := { (coreOf r k).mx with q := (coreOf r k).mx.q.drop 1, lastEnd := s.now } }))
  ∧ (∀ (s : State) (k f : Nat) (l : WLoad), (coreOf s k).mx.wl = [l] → l.done = false → l.fin = some f → f ≤ s.now →
      exec (.weightLoadComplete k) s = .next (setCore s k { coreOf s k with mx := { (coreOf s k).mx with
        wl := if l.waitFor then [{ l with done := true }] else []
        lastLoad := s.now } }))
  ∧ (∀ (s : State) (k x : Nat) (m : Cmd) (rest : List Cmd) (w : List Nat) (sources : List (Nat × List Byte)) (t : State) (mine : Data)
      (ps : List (Nat × Nat × Nat)),
      let members := (List.range 64).filter (fun j => field (w.getD 1 0) j 1 = 1)
      let size := elemBits (field (w.getD 0 0) 4 4) / 8 * field (w.getD 4 0) 0 32
      let ch := collChunks (field (w.getD 0 0) 0 4) members.length
      let rights := rLOAD ||| rSTORE ||| rENGINE
      let of_ : Nat → List Byte := fun j => if j = Config.moduleNumber then mine.map (·.1) else ((sources.find? (fun p => p.1 == j)).map (·.2.drop 64)).getD []
      let out := collResult w ((members.filter (fun j => j < Config.moduleNumber)).length) of_
      (ctxOf s k x).eng.coll = m :: rest → m.kind = .coll w → m.upc = 1 → 0 < ch.1 * size → 0 < ch.2 * size → collCap m = .ok () →
      (∀ p ∈ sources, field (w.getD 1 0) p.1 1 = 1) →
      (∀ j ∈ members, j ≠ Config.moduleNumber → ∃ p ∈ sources, p.1 = j ∧ ch.1 * size + 64 ≤ p.2.length ∧ collKey (words8 (p.2.take 64)) = collKey w) →
      readSide s k (x + 48) 0 0 m.cap (w.getD 2 0 : Nat) (ch.1 * size) 0 rights = .ok (t, mine) → (∀ b ∈ mine, b.2 = false) →
      checkSide t k (x + 48) 0 0 m.cap (w.getD 3 0 : Nat) (ch.2 * size) 0 rights = .ok ps →
      exec (.collectiveComplete k x sources) s = .next (
        creditSem (setQueue (writeSide t k (.command x m.cls m.iss) 0 0 ps (w.getD 3 0 : Nat) 0 (out.map (fun b => (b, false)))) k x 5 rest) k x m.sem 5))

/-- Requests at the stacks (10 R212, 11 R220, R225, 22 R390, 24 R422, R423): a store and an atomic whose cycle has come are performed; a far request
that reaches its die binds a slot; a held one is served when its calendar cycle comes round after the hold; late data is written where its mark
stands; a context at the landing point of held data freezes, and lands it afterwards.
Where it follows a convention of the model and not the spec, the convention is log 18. -/
def Obligations.RequestsPerformed : Prop :=
  (∀ (s : State) (k : Nat) (t : Store), (coreOf s k).ms.released = [t] → reqReady s k t.fin t.view false = true → flagBefore (coreOf s k) t.ctx t.cls t.seq = false →
    exec (.storePerformed k) s =
      .next (performStore (setCore s k { coreOf s k with ms := { (coreOf s k).ms with released := [] } }) k t))
  ∧ (∀ (s : State) (k : Nat) (m : AtomReq), (coreOf s k).ms.atoms = [m] → reqReady s k m.fin m.view (2 ≤ m.ord) = true → (m.op = 18 → flagHeld s k m = false) →
    exec (.atomicPerformed k) s =
      .next (performAtom (setCore s k { coreOf s k with ms := { (coreOf s k).ms with atoms := [] } }) k m))
  ∧ (∀ (s : State) (d k r : Nat) (c : Core) (t : Store), s.cores = [(k, c)] → c.ms.released = [t] → c.ms.atoms = [] → c.ms.loads = [] →
    t.reach = some r → r ≤ s.now → farDie k (storePieces t) = some d →
    let b := (bindBrgSpan s d s.now (storePieces t)).2
    ∃ u, exec (.farAccessArrival d) s = .next u ∧ (coreOf u k).ms.released = [{ t with reach := none, slot := some b, fin := some (b + 152) }]
      ∧ s.now ≤ b ∧ b ∈ (dieOf u d).brg)
  ∧ (∀ (s : State) (st : Nat) (h : HeldReq) (t : Store), stackHeld s st = false → (dieOf s (st / 2)).held = [h] → h.stack = st →
    h.slot % 64 = s.now % 64 → (coreOf s h.core).ms.released = [t] → t.seq = h.seq →
    ∃ u, exec (.heldRequestServed st) s = .next u
      ∧ (coreOf u h.core).ms.released = [{ t with slot := some s.now, fin := some (s.now + 152) }])
  ∧ (∀ (s : State) (k x tag n f : Nat) (l : LoadReq) (bs : List Byte) (g : Bool), (coreOf s k).ms.loads = [l] → l.ctx = x → l.key = tag →
    l.exact = false → l.got = some (bs, false, g) → l.fin = some f → f ≤ s.now → l.dst = .scalar n 0#64 → n ≠ 0 → (ctxOf s k x).status = .bound →
    (∀ r ∈ (ctxOf s k x).reqs, r.tag ≠ tag) → waitsFor (ctxOf s k x) tag = false → sMarkOf (ctxOf s k x) n = .late tag →
    ∃ u, exec (.lateDataArrival k x tag) s = .next u ∧ ctxOf u k x = writeS (ctxOf s k x) n (BitVec.ofNat 64 (leVal bs)))
  ∧ (∀ (s : State) (k x : Nat), mustFreeze s k x = true → (ctxOf s k x).frozen = false →
    exec (.contextFreeze k x) s = .next (let t := leaveIssue s k x; setCtx t k x { ctxOf t k x with frozen := true }))
  ∧ (∀ (s : State) (k x : Nat), mustFreeze s k x = false → (ctxOf s k x).frozen = true →
    exec (.contextUnfreeze k x) s = .next (landDue (setCtx s k x { ctxOf s k x with frozen := false }) k x))

/-- What befalls the memory (10 R201, R211, 24 R416, R420, R422, R424, R425, R426): a sweep lowers the heat of a leaf entry by one in each field; a
fill brings its block; a hold begins at 105 °C and ends at 95 °C; a context whose request is held longer than HOLD_LIMIT is told once; a storage
error is counted, or poisons its granule and is logged; the poll reports and clears.
Where it follows a convention of the model and not the spec, the convention is log 10, log 42, log 43. -/
def Obligations.MemoryCare : Prop :=
  (∀ (s : State) (d ix dir leaf : Nat) (j : Job), s.jobs = [(ix, j)] → jobHolds s j d = true → j.nobj = 1 → objEntry s j d 0 = some (dir, 1) →
    (let e := leVal (getBytes s.mem (dir * 65536) 8); field e 24 1 = 1 ∧ field e 0 24 / 2097152 = d ∧ leaf = field e 0 24 * 65536) →
    let t := (List.range 8192).foldl (fun s i => coolEntry s (leaf + 8 * i)) s
    exec (.heatSweep d) s = .next (if (objEntry t (tableJob t d) d (ertObj t d)).isNone then t else coolErt t d))
  ∧ (∀ (s : State) (la : Nat), memWf s.mem = true →
    let l := leVal (getBytes s.mem la 8)
    leVal (getBytes (coolLeaf s la).mem la 8) = putField (putField l 30 2 (field l 30 2 - 1)) 32 2 (field l 32 2 - 1))
  ∧ (∀ (s : State) (f : Fill) (leaf d pbn info : Nat), s.fills = [f] → f.kind = .extent leaf d pbn info [] → s.ck.frozen = [] →
    memWf s.mem = true → memWf s.tier = true → leaf % 8 = 0 → leaf / 65536 ≠ pbn → pbn < 2 ^ 24 →
    ∃ t, exec .extentFillComplete s = .next t ∧ t.fills = []
      ∧ (∀ o, o < 65536 → getByte t.mem (65536 * pbn + o) = getByte s.tier (65536 * (f.base + f.tblk) + o))
      ∧ leVal (getBytes t.mem leaf 8) = pbn + 2 ^ 34 + 2 ^ 35 * field (leVal (getBytes s.mem leaf 8)) 35 25
      ∧ (∀ a, a / 65536 ≠ pbn → (a < leaf ∨ leaf + 8 ≤ a) → getByte t.mem a = getByte s.mem a))
  ∧ (∀ (s : State) (st temp : Nat), st < 16 →
    (105 ≤ temp → stackHeld s st = false →
      ∃ t, exec (.thermalHoldStart st temp) s = .next t ∧ stackHeld t st = true ∧ t.out.pldm = s.out.pldm ++ [(0x102, st)])
    ∧ (temp ≤ 95 → stackHeld s st = true →
      exec (.thermalHoldEnd st temp) s = .next (
        let v := regRaw (dieOf s (st / 2)) 0x3020
        report (setDie s (st / 2) (setReg (dieOf s (st / 2)) 0x3020 (putField v (16 + st % 2) 1 0))) 0x103 st)))
  ∧ (∀ (s : State) (k x d : Nat) (h : HeldReq), d < 8 → (dieOf s d).held = [h] → h.core = k → h.ctx = x → limitExceeded s h = true →
    (∀ e, e < 8 → e ≠ d → ∀ g ∈ (dieOf s e).held, g.core ≠ k ∨ g.ctx ≠ x) →
    ∃ t, exec (.holdLimitExceeded k x) s = .next t ∧ (ctxOf t k x).pendA = (ctxOf s k x).pendA ++ [(0x1B, 0)] ∧ (ctxOf t k x).frozen = false
      ∧ (dieOf t d).held = [{ h with told := true }])
  ∧ (∀ (s : State) (gran : Nat), gran < 2 ^ 34 →
    let d := gran / 2 ^ 31
    let i := gran / 2 ^ 30 % 2
    let cnt := regRaw (dieOf s d) (0x3028 + 8 * i)
    (∃ t, exec (.memoryEccError gran 0) s = .next t ∧ regRaw (dieOf t d) (0x3028 + 8 * i) = Nat.min (2 ^ 32 - 1) (cnt + 1) ∧ t.poison = s.poison)
    ∧ (∀ kind, kind = 1 ∨ 5 < kind → field (regRaw (dieOf s d) (0x3038 + 8 * i)) 34 1 = 0 →
        ∃ t, exec (.memoryEccError gran kind) s = .next t ∧ mapGet t.poison false gran = true
          ∧ regRaw (dieOf t d) (0x3038 + 8 * i) = gran + 2 ^ 34 ∧ t.mem = s.mem))
  ∧ (∀ (s : State) (d : Nat),
    let poll : State → Nat → State := fun s i =>
      let v := hwStart s d (0x3038 + 8 * i) (regRaw (dieOf s d) (0x3038 + 8 * i))
      let t := if field v 34 1 = 1 then report (logRow s (rowKeyOf (field v 0 34))) 0x101 v else s
      let t := reportRows t (2 * d + i)
      setDie t d (setReg (setReg (dieOf t d) (0x3038 + 8 * i) (hwLeft s d (0x3038 + 8 * i))) (0x3028 + 8 * i) (hwLeft s d (0x3028 + 8 * i)))
    exec (.errorLogPoll d) s = .next (poll (poll s 0) 1))
  ∧ (∀ (s : State) (st : Nat),
    let die := dieOf s (st / 2)
    let x := mapGet die.y 0 (st % 2)
    let a := x ^^^ (x * 2 ^ 13 % 2 ^ 32)
    let b := a ^^^ (a / 2 ^ 17)
    (field (regRaw die 0x3010) 8 1 = 1 →
      exec (.neighbourRefresh st) s = .next (setDie s (st / 2) { die with y := mapSet die.y 0 (st % 2) (b ^^^ (b * 2 ^ 5 % 2 ^ 32)) }))
    ∧ (field (regRaw die 0x3010) 8 1 = 0 → exec (.neighbourRefresh st) s = .next { s with free := s.free + 1 }))

/-- The host's accesses (18 R350, R351): bytes of device memory read and written in order, and words of the register page.
Where it follows a convention of the model and not the spec, the convention is log 41. -/
def Obligations.HostAccesses : Prop :=
  (∀ (s : State) (addr len data : Nat), s.ga.power = true → 0 < len → addr + len ≤ 2 ^ 40 → s.ga.hostQ = [] → hdmHeld s addr len = false →
    exec (.hostCxlAccess 0 addr len data) s = .next { s with out := { s.out with reads := s.out.reads ++ [getBytes s.mem addr len] } }
    ∧ (addr % 256 + len ≤ 256 → exec (.hostCxlAccess 1 addr len data) s = .next (writeBase s addr 0 (leBytes len data) false false)))
  ∧ (∀ (s : State) (data : Nat), s.ga.power = true →
    let reads : Nat → Nat → Prop := fun off v =>
      exec (.hostCxlAccess 2 off 8 data) s = .next { s with out := { s.out with reads := s.out.reads ++ [leBytes 8 v] } }
    reads 0x048 s.ga.arg0.toNat ∧ reads 0x050 s.ga.arg1.toNat
    ∧ reads 0x058 ((if s.ga.busy then 1 else 0) + (if s.ga.ovr then 2 else 0) + 256 * s.ga.result + 65536 * s.ga.last)
    ∧ reads 0x060 (2 * s.ga.boot + 2 ^ 32 * s.ga.imglen) ∧ reads 0x068 s.ga.mibaddr ∧ reads 0x078 s.ck.complete.toNat
    ∧ reads 0x070 ((if s.ck.active.isSome then 1 else 0) + (if s.ga.stale then 2 else 0) + (if s.ga.fail then 4 else 0))
    ∧ (data < 2 ^ 64 →
      exec (.hostCxlAccess 3 0x048 8 data) s = .next { s with ga := { s.ga with arg0 := BitVec.ofNat 64 data } }
      ∧ exec (.hostCxlAccess 3 0x050 8 data) s = .next { s with ga := { s.ga with arg1 := BitVec.ofNat 64 data } }
      ∧ exec (.hostCxlAccess 3 0x058 8 data) s = .next { s with ga := { s.ga with ovr := s.ga.ovr && clearingBits s 8 0x058 data / 2 % 2 = 0 } }
      ∧ exec (.hostCxlAccess 3 0x070 8 data) s = .next { s with ga := { s.ga with
          stale := s.ga.stale && clearingBits s 8 0x070 data / 2 % 2 = 0
          fail := s.ga.fail && clearingBits s 8 0x070 data / 4 % 2 = 0 } }))

/-- Worlds, fills and rows (16 R326, R328, 17 R331, R340, R346, 26 R447, R448): a released gate record enters the queue; a discarded world without
tasks is FREE; an expert fill brings its blocks, makes the entry LOCAL and tells every die; the third failure of a tier read ends it; a forwarded
row takes the lowest free inbound slot and is queued as kind 3, and one whose header is damaged is lost.
Where it follows a convention of the model and not the spec, the convention is log 23. -/
def Obligations.WorldsFillsAndRows : Prop :=
  (∀ (s : State) (e : Effect) (rest : List Effect), s.worlds.releasing = e :: rest → e.kind = 16 →
    let d := dieOfCore e.core
    gateCount (exOf s d) < 1024 →
    exec .effectRelease s = .next (
      let y := exOf s d
      let t := setEx s d { y with gate := y.gate ++ [(1, e.data.take 8 ++ leBytes 8 (e.off / 64) ++ e.data.drop 16)] }
      { t with worlds := { t.worlds with releasing := rest } }))
  ∧ (∀ (s : State) (w : Nat), (worldOf s w).state = .discarded →
    ((worldOf s w).live = 0 → exec (.worldFreed w) s = .next (
        let t := dropWorldLines s w
        { t with worlds := { t.worlds with ents := mapSet t.worlds.ents World.init w World.init } }))
    ∧ ((worldOf s w).live ≠ 0 → exec (.worldFreed w) s = .next s))
  ∧ (∀ (s : State) (f : Fill) (key d tblk nblk obj : Nat), s.fills = [f] → f.kind = .expert key d tblk nblk obj →
    let t := { s with fills := [] }
    ((∀ b, b < nblk → (objByte t d obj (65536 * b)).isSome = true) →
      exec .expertFillComplete s = .next (
        let u := (List.range nblk).foldl (fun u b => match objByte u d obj (65536 * b) with
          | some q => fillBlock u f.base (tblk + b) (q.1 / 65536)
          | none => u) t
        fillEvent (ertPut u d key (putField (ertGet u d key) 0 3 1)) d key false))
    ∧ (∀ b, b < nblk → (objByte t d obj (65536 * b)).isNone = true → (∀ c, c < b → (objByte t d obj (65536 * c)).isSome = true) →
      exec .expertFillComplete s = .next (report (expertFailed t key d) 0x35 (b + 2 ^ 24 * key))))
  ∧ (∀ (s : State) (f : Fill) (rest : List Fill), s.fills = f :: rest →
    (f.tries < 2 → exec .tierReadFailure s = .next { s with fills := { f with tries := f.tries + 1 } :: rest })
    ∧ (∀ key d tblk nblk obj, 2 ≤ f.tries → f.kind = .expert key d tblk nblk obj →
        exec .tierReadFailure s = .next (report (expertFailed { s with fills := rest } key d) 0x35 (f.tblk + 2 ^ 24 * key)))
    ∧ (∀ leaf d pbn info k x, 2 ≤ f.tries → f.kind = .extent leaf d pbn info [(k, x)] → x < 8 → (ctxOf s k x).status = .filling →
        (ctxOf s k x).sp.hmode = false →
        ∃ t, exec .tierReadFailure s = .next t ∧ (ctxOf t k x).sp.cause = 0x14 ∧ (ctxOf t k x).status = .bound
          ∧ (ctxOf t k x).sp.einfo = BitVec.ofNat 64 (info % 2 ^ 63 + 2 ^ 63)))
  ∧ (∀ (s : State) (d src n : Nat) (ports : List Nat) (bs : List Byte) (rest : List (Nat × List Nat × List Byte)),
    let h := leVal (bs.take 8)
    let r := routeReg s d 0x7C2
    let off := field r 0 40 + rowBytes s d * n
    let w := leVal ((bs.drop 8).take 8)
    (exOf s d).arriving = (src, ports, bs) :: rest → r ≠ 0 →
    (headerGood h = true → filterAsk (exOf s d) h = .fresh → n ≤ field r 40 16 → mapGet (exOf s d).inbound false n = false →
      (∀ m, m < n → mapGet (exOf s d).inbound false m = true) → gateCount (exOf s d) < 1024 →
      ∃ t, exec (.forwardedRowArrival d) s = .next t ∧ (exOf t d).arriving = rest ∧ mapGet (exOf t d).inbound false n = true
        ∧ (exOf t d).gate = (exOf s d).gate ++ [(3, leBytes 8 h ++ leBytes 8 (field w 0 24 + 2 ^ 24 + 2 ^ 26 * (off / 64)) ++ List.replicate 48 0#8)])
    ∧ (headerGood h = false →
      ∃ t, exec (.forwardedRowArrival d) s = .next t ∧ t.out.pldm = s.out.pldm ++ [(0x2C, d)]
        ∧ field (regRaw (dieOf t d) 0x0750) 48 16 = Nat.min 65535 (field (regRaw (dieOf s d) 0x0750) 48 16 + 1)))

/-- Saves, swaps and answers (02 R35, 12 R260, 14 R290, 15 R308, 25 R434, 26 R443): a save whose image is performed counts its semaphore, and a
stopped context is parked; a swap ends its command; a request without an answer for TMO takes 0x2B; a message is written to the ring of its
core, its sender told, and its task made; without a FREE record the die tries again 64 cycles later.
Where it follows a convention of the model and not the spec, the convention is log 32, log 38. -/
def Obligations.SavesAndMessages : Prop :=
  (∀ (s : State) (k x : Nat) (r : SaveReq) (rest : List SaveReq), (ctxOf s k x).saves = r :: rest → (ctxOf s k x).status = .bound → r.due ≤ s.now →
    (∀ n, r.image = some n → exec (.ctxsaveImagePerformed k x) s = .next (
      let t := setCtx s k x { ctxOf s k x with saves := rest }
      creditSem t k x r.sem 4))
    ∧ (r.image = none → r.stop = true → stoppable s k r.target = true →
      ∃ t v, exec (.ctxsaveImagePerformed k x) s = .next t ∧ (ctxOf t k r.target).status = .parked ∧ (ctxOf t k r.target).toRun = false
        ∧ t.images = s.images ++ [v] ∧ v.task = (ctxOf s k r.target).task))
  ∧ (∀ (s : State) (g fin : Nat), s.ga.swap = some (g, fin) → fin ≠ 0 → fin ≤ s.now →
    let t := { (coresOfGroup s g).foldl swapCore s with ga := { ((coresOfGroup s g).foldl swapCore s).ga with swap := none } }
    exec (.swapComplete g) s = .next (finishCommand (match jobAt t (residentSide t g) with
      | some (id, j) => if j.running then t else runJob t id
      | none => t) 0))
  ∧ (∀ (s : State) (d ix c k x : Nat) (r : FarReq),
    let t := tagAt' (fabOf s d) ix
    let name := tagName d ix t.inc
    ix < 512 → (fabOf s d).replies = [] → t.busy = true → t.sent = some c → c + tagLimit s d ≤ s.now → t.eng = none → t.core = k → k ≠ 640 →
    t.ctx = x → (ctxOf s k x).status = .bound → (ctxOf s k x).reqs = [r] → r.tag = name → r.peer = t.peer → r.kind ≠ 0 → r.push = false →
    ∃ u, exec (.tagTimeout d ix) s = .next u ∧ (ctxOf u k x).reqs = []
      ∧ (ctxOf u k x).pendA = (ctxOf s k x).pendA ++ [(0x2B, name + 2 ^ 14 * t.peer + 2 ^ 20 * r.kind + 2 ^ 24)]
      ∧ (tagAt' (fabOf u d) ix).busy = false)
  ∧ (∀ (s : State) (d : Nat) (m : Msg), (fabOf s d).messages = [m] → m.placed = none → m.die = d → m.src ≠ Config.moduleNumber →
    (dieOf s d).regs ≠ [] →
    (∀ why, refusalOf s m = some why →
      ∃ t, exec (.messageArrival d) s = .next t ∧ (fabOf t d).messages = []
        ∧ (fabOf t d).sendQ = (fabOf s d).sendQ ++ mkFlits s m.src 1 3 0 m.tag m.inc 0 (leBytes 1 0x26 ++ leBytes 1 why))
    ∧ (∀ r, refusalOf s m = none → (hdrAt s m.core 3 (mrqBase s m.core % 2 ^ 20)).free ≠ 0 → freeRec s d = some r → dieOfCore m.core = d →
      ∃ t, exec (.messageArrival d) s = .next t ∧ (fabOf t d).messages = []
        ∧ (fabOf t d).sendQ = (fabOf s d).sendQ ++ mkFlits s m.src 1 3 0 m.tag m.inc 0 []))
  ∧ (∀ (s : State) (d addr at_ : Nat) (m : Msg), (fabOf s d).messages = [m] → m.placed = some (addr, at_) → at_ ≤ s.now →
    (dieOf s d).regs ≠ [] →
    (freeRec s d = none → ∃ t, exec (.messageCreateRetry d) s = .next t
      ∧ (fabOf t d).messages = [{ m with ports := [], placed := some (addr, s.now + 64) }] ∧ t.out = s.out)
    ∧ (∀ r, freeRec s d = some r → ∃ t, exec (.messageCreateRetry d) s = .next t ∧ (fabOf t d).messages = []))

/-- The rotation clock and the optics (15 R294, R296, R310, 25 R437 to R440): the first strobe begins rotation 0, later ones the next; one that is
missing or more than 4 cycles away desynchronises every fabric unit; what was written takes effect at slots and rotations; a ring in lock
keeps its level; a repair arms every die's other bank.
Where it follows a convention of the model and not the spec, the convention is log 69. -/
def Obligations.ClockAndOptics : Prop :=
  (∀ (s : State) (away : Nat),
    let t := { s with rotAt := s.now, ga := { s.ga with strobed := true } }
    let u := { t with rot := (s.rot + 1) % 2 ^ 32 }
    (isUp s = false → exec (.rotationStart away) s = .next s)
    ∧ (isUp s = true → s.ga.strobed = false → exec (.rotationStart away) s = .next (enterRotation t))
    ∧ (isUp s = true → s.ga.strobed = true → away ≤ 4 → 2560 ≤ s.now - s.rotAt → exec (.rotationStart away) s = .next (enterRotation u))
    ∧ (isUp s = true → s.ga.strobed = true → away ≤ 4 → s.now - s.rotAt < 2560 → exec (.rotationStart away) s = .next t)
    ∧ (isUp s = true → s.ga.strobed = true → 4 < away → s.now - s.rotAt < 2560 → (fabOf s 0).desync = none → exec (.rotationStart away) s = .next (desynchronise t)))
  ∧ (∀ (s : State) (d : Nat), (fabOf s d).desync = none →
    ∃ t, exec (.strobeMissing d) s = .next t ∧ (∀ e, e < 8 → (fabOf t e).desync ≠ none) ∧ (0x32, 0) ∈ t.out.pldm)
  ∧ (∀ s : State, slotCycle s = 0 → exec .slotBoundary s = .next ((s.dies.map (·.1)).foldl (fun t d => refreshPeers (stageRings t d) d) s))
  ∧ (∀ (s : State) (d n : Nat), n < 64 →
    exec (.heaterEffect d n) s = .next (setDie s d (setEff (dieOf s d) (8 * n) (regRaw (dieOf s d) (8 * n)))))
  ∧ (∀ (s : State) (src k : Nat), src < 2 → k < 8 →
    let off := 0x0600 + 8 * (8 * src + k)
    let v := regRaw (dieOf s (4 * src)) off
    field v 6 1 = 1 → field v 7 1 = 0 →
    exec (.spareLineLocked src k) s = .next (
      let ch := field v 0 6
      let t := (sourceDies src).foldl (fun t d => setDie t d (setReg (dieOf t d) off (regRaw (dieOf t d) off ||| 128))) s
      (sourceDies src).foldl (fun t d =>
        let lost := (sourceDies src).any (fun e => field (regRaw (dieOf t e) (0x0768 + 8 * src)) ch 1 = 1)
        ((List.range 64).filter (fun n => isTx n && (ringChannels t d n).contains ch && !mapGet (fabOf t d).retired false n
          && (lost || mapGet (fabOf t d).recover 0 n ≠ 0))).foldl (fun t n => overrideRing t d n ch (64 + k)) t) t))
  ∧ (∀ (s : State) (d n c : Nat), n < 64 → mapGet (fabOf s d).recover 0 n = c + 1 → c + 65536 ≤ s.now →
    ∃ t, exec (.opticsRecoveryTimeout d n) s = .next t ∧ mapGet (fabOf t d).retired false n = true ∧ t.out.pldm = s.out.pldm ++ [(0x31, d + 8 * n)])
  ∧ (∀ (s : State) (d level : Nat), field (regRaw (dieOf s d) 0x0740) 12 12 ≤ level % 4096 → level % 4096 ≠ 0 →
    ∃ t, exec (.mpdRefresh d [level] []) s = .next t ∧ regRaw (dieOf t d) 0x0200 = level % 4096)
  ∧ (∀ (s : State) (rotation : Nat) (pattern : List Nat), s.rot + 16 ≤ rotation →
    patternLegal s (fun sl k m => maskTo (pattern.getD (256 * sl + 8 * k + m) 0) 0x7F7F) = true →
    ∃ t, exec (.patternRepairStart rotation pattern) s = .next t ∧ t.ga.repair = some rotation
      ∧ ∀ d, d < 8 → field (regRaw (dieOf t d) 0x0708) 1 1 = 1 ∧ field (regRaw (dieOf t d) 0x0708) 32 32 = rotation % 2 ^ 32
          ∧ field (regRaw (dieOf t d) 0x0708) 0 1 = field (regRaw (dieOf s d) 0x0708) 0 1)

/-- The fabric unit (15 R302, R303, R306, R307, 25 R428 to R435): a resend, or the flit of the highest channel, leaves in its position; a position
is taken once, and a failed one is kept; requests are released and performed in their order; replies reach their requests; slots are returned,
waits expire, positions are given up, the replay store ages, incarnations return.
Where it follows a convention of the model and not the spec, the convention is log 32. -/
def Obligations.FabricUnit : Prop :=
  (∀ (s : State) (d port pair k : Nat),
    let ch := txChan (patEntry (dieOf s d) (slotNow s) port pair)
    let peer := (Config.moduleNumber + ch) % 64
    let pos : FlitPos := ⟨s.rot % 4, slotNow s, port, pair, k⟩
    let f := fabOf s d
    port < 4 → pair < 8 → flitNow s = some k → k ≠ 0 → ch ≠ 0 → ringServes s d (slotNow s) port pair = true → fabricSpeaks s d = true →
    mapGet f.lastTx 0 (8 * port + pair) ≠ s.now + 1 →
    (∀ r, f.resend.find? (fun r => hopOf r.flit == peer) = some r →
      ∃ t, exec (.flitTransmit d port pair) s = .next t ∧ t.out.flits = s.out.flits ++ [(d, r.pos, r.flit)])
    ∧ (∀ g, f.resend = [] → pickFlit s d peer = some (.own g) →
      exec (.flitTransmit d port pair) s = .next (
        let p := payFlit f g
        emit (markSent (setFab s d { noteWay p peer g with sendQ := p.sendQ.erase g, rr := mapSet p.rr 0 g.vc (flitCtx p g) }) d g) d peer pos g))
    ∧ (f.resend = [] → pickFlit s d peer = none → exec (.flitTransmit d port pair) s = .next s))
  ∧ (∀ (s : State) (d src : Nat) (q : FlitPos) (g : Flit),
    let w := windowNow s d q.port
    let f := fabOf s d
    let p : FlitPos := { q with rot := w.1 - (w.1 + 4 - q.rot % 4) % 4 }
    windowOpen s d q.port = true → heardFrom s d p = some src → w.1 % 4 = q.rot % 4 → w.2 = q.slot → (∀ x ∈ f.failed, x.src ≠ src ∨ x.pos ≠ p) →
    ((src, p) ∈ f.taken → ∀ good, exec (.flitReceive d q g good) s = .next s)
    ∧ ((src, p) ∉ f.taken → exec (.flitReceive d q g false) s = .next (failPosition s d src p g false))
    ∧ ((src, p) ∉ f.taken → astray g = false → (g.kind = 12 ∨ heldAt f q.port src < 128) →
      exec (.flitReceive d q g true) s = .next (acceptFlit (setFab s d { f with taken := f.taken ++ [(src, p)] }) d q.port g)))
  ∧ (∀ (s : State) (d : Nat) (r : Served) (ps : List (Nat × Nat × Nat)), (fabOf s d).served = [r] → resolveServed s d r = .here ps →
    (r.at_ = none → r.away = none → r.ports = [] → (∀ p ∈ ps, dieOfAddr p.1 = d) →
      ∃ t, exec (.remoteRequestRelease d) s = .next t ∧ (fabOf t d).served = [{ r with at_ := some (s.now + 96), filling := false }])
    ∧ (∀ c, r.at_ = some c → c ≤ s.now → (∀ p ∈ ps, stackHeld s (stackOf p.1) = false) →
      exec (.remoteRequestRelease d) s = .next (performServed (setFab s d { fabOf s d with served := [] }) d r ps)))
  ∧ (∀ (s : State) (d : Nat) (g : Flit) (bs : List Byte),
    let f := fabOf s d
    let ix := g.tag % 512
    f.replies = [(g, bs)] → (tagAt' f ix).busy = true → (tagAt' f ix).inc = g.inc →
    exec (.remoteReplyArrival d) s = .next (
      answerTag (setTag (setFab s d { f with replies := [] }) d ix { tagAt' f ix with busy := false }) (tagName d ix g.inc) (tagAt' f ix) (answerOf g.kind bs)))
  ∧ (∀ (s : State) (d peer t : Nat), peer < 64 → mapGet (fabOf s d).returnAt 0 peer = t → t ≠ 0 → t ≤ s.now →
    (∀ g ∈ (fabOf s d).sendQ, g.dst ≠ peer ∨ g.kind ≠ 12) →
    ∃ u g, exec (.slotReturnTimer d peer) s = .next u ∧ (fabOf u d).sendQ = (fabOf s d).sendQ ++ [g] ∧ g.dst = peer ∧ g.kind = 12 ∧ g.len = 0)
  ∧ (∀ (s : State) (d : Nat),
    exec (.resendWaitExpiry d) s = .next (setFab s d { fabOf s d with failed := (fabOf s d).failed.map (fun x =>
      match x.asked with
      | some c => if c + 10240 ≤ s.now then { x with tries := x.tries + 1, asked := none } else x
      | none => x) }))
  ∧ (∀ (s : State) (d : Nat) (x : Failed), (fabOf s d).failed = [x] → (3 ≤ x.tries ∨ x.pos.rot + 4 < s.rot) →
    exec (.positionAbandon d) s = .next (abandonOne s d x))
  ∧ (∀ (s : State) (d : Nat),
    exec (.replayStoreExpiry d) s = .next (setFab s d { fabOf s d with
      sent := (fabOf s d).sent.filter (fun x => s.now < x.left + 3 * 5120)
      resend := (fabOf s d).resend.filter (fun x => s.now < x.left + 3 * 5120) }))
  ∧ (∀ (s : State) (d peer : Nat), peer < 64 → peer ∉ (fabOf s d).audits →
    exec (.slotAudit d peer) s = .next (setFab s d { fabOf s d with audits := (fabOf s d).audits ++ [peer] }))
  ∧ (∀ (s : State) (d ix : Nat), ix < 512 → (∃ k ∈ (tagAt' (fabOf s d) ix).skips, k.2.2 ≤ s.now) →
    exec (.incarnationRelease d ix) s = .next (setTag s d ix { tagAt' (fabOf s d) ix with
      skips := (tagAt' (fabOf s d) ix).skips.filter (fun k => s.now < k.2.2) }))

/-- The Shuttle's events (16 R312, 26 R446): an exception saves the pc and the cause and goes to the vector; an entry of the gate queue ends WFI; the
cause log is reported, and its reads clear it.
Where it follows a convention of the model and not the spec, the convention is log 13, log 90. -/
def Obligations.ShuttleEvents : Prop :=
  ∀ (s : State) (d : Nat),
    (∀ cause tval, mapWf (shOf s d).csrs 0#64 = true → 0 < cause → cause < 2 ^ 64 →
      ∃ t, exec (.shuttleException d cause tval) s = .next t ∧ (shOf t d).pc = (csrGet (shOf s d) 0x305).toNat / 4 * 4
        ∧ csrGet (shOf t d) 0x342 = BitVec.ofNat 64 cause)
    ∧ ((exOf s d).gate ≠ [] → ∃ t, exec (.wfiWake d) s = .next t ∧ (shOf t d).wfi = false ∧ (exOf t d).gate = (exOf s d).gate)
    ∧ exec (.sclogcRead d) s = .next (setEx s d { exOf s d with logCount := Nat.min 65535 (hwLeft s d causeCountKey) })
    ∧ exec (.sclog0Read d) s = .next (if hwLeft s d causeKey = 1 then s else setEx s d { exOf s d with logValid := false })
    ∧ ((exOf s d).logCount ≠ 0 → exec (.shuttleCauseLogReport d) s = .next (report s 0x34 (d + 16 * (exOf s d).logCount)))

/-- Writes and reads of a die's register object (15 R294, R299, R304, R310, R311, 24 R425, R426, 25 R438, R441, 27 R453, R454): each write stores the
register's writable bits, with its clamps; a store to what only Garod writes does nothing; a read-to-clear register is 0 after its read but for what hardware set in
its cycle.
Where it follows a convention of the model and not the spec, the convention is log 81, log 86. -/
def Obligations.RegisterObject : Prop :=
  ∀ (s : State) (d val : Nat),
    let die := dieOf s d
    let stores : Instr → Nat → Nat → Prop := fun i off v => exec i s = .next (setDie s d (setReg die off v))
    (∀ n, n < 64 → regRaw die (8 * n) < 4096 → stores (.htrWrite d n val) (8 * n) (val % 4096))
    ∧ (∀ n, n < 64 → regRaw die (0x0400 + 8 * n) < 2 ^ 14 →
        exec (.ringmapWrite d n val) s = .next (
          let e := setReg die (0x0400 + 8 * n) (val % 2 ^ 14)
          let v := regRaw e (0x0400 + 8 * n) + 1
          setDie s d (if slotCycle s < 20 then setEff e (0x20400 + 8 * n) v else setEff (setEff e (0x20400 + 8 * n) 0) (0x10400 + 8 * n) v)))
    ∧ (∀ n, n < 64 → field (regRaw die (0x3300 + 8 * n)) 33 1 = 0 → stores (.evcntWrite d n val) (0x3100 + 8 * n) (val % 2 ^ 32))
    ∧ exec (.syncspanWrite d val) s = .next (writeSpan s d val)
    ∧ (field val 8 1 = 0 →
        stores (.nrfcfgWrite d val) 0x3010 (without (regRaw die 0x3010) 0x11F + (if val % 32 < 6 then 6 else if 16 < val % 32 then 16 else val % 32)))
    ∧ (regRaw die 0x3018 < 2 ^ 32 → field (regRaw die 0x3010) 8 1 = 0 → val % 2 ^ 32 ≠ 0 → stores (.nrfseedWrite d val) 0x3018 (val % 2 ^ 32))
    ∧ (regRaw die 0x3018 < 2 ^ 32 → field (regRaw die 0x3010) 8 1 = 1 → val % 2 ^ 32 ≠ 0 →
        ∃ t, exec (.nrfseedWrite d val) s = .next t ∧ mapGet (dieOf t d).y 0 0 = val % 2 ^ 32 ∧ mapGet (dieOf t d).y 0 1 = val % 2 ^ 32)
    ∧ (regRaw die 0x3008 < 2 ^ 16 → stores (.fpcntWrite d val) 0x3008 (val % 2 ^ 16))
    ∧ (∀ n, n < 80 → regRaw die (0x3900 + 8 * n) < 2 ^ 21 → stores (.registerWrite d (0x3900 + 8 * n) val) (0x3900 + 8 * n) (val % 2 ^ 21))
    ∧ (∀ off, off % 8 = 0 → off < 16384 → garodOnly off = true →
        regWrite s d off val = s
        ∧ (0x1000 ≤ off → off < 0x3000 → (off - 0x1000) / 0x1000 = bankNow die → exec (.registerWrite d off val) s = .next s)
        ∧ (0x1000 ≤ off → off < 0x3000 → (off - 0x1000) / 0x1000 ≠ bankNow die →
            ∃ t, exec (.registerWrite d off val) s = .next t ∧ regRaw (dieOf t d) off &&& 0x7F7F7F7F7F7F7F7F = val &&& 0x7F7F7F7F7F7F7F7F)
        ∧ (off = 0x3810 → ∃ t, exec (.registerWrite d off val) s = .next t
            ∧ pgap (dieOf t d) = Nat.min 23 (val % 32) ∧ floorOn (dieOf t d) = decide (field val 8 1 = 1)))
    ∧ (∀ n, n < 2 → stores (.ecccntRead d n) (0x3028 + 8 * n) (hwLeft s d (0x3028 + 8 * n))
        ∧ stores (.uelogRead d n) (0x3038 + 8 * n) (hwLeft s d (0x3038 + 8 * n)))
    ∧ stores (.faberrRead d) 0x0750 (hwLeft s d 0x0750)
    ∧ (field val 2 1 = 0 → patternLegal s (bankEntry die (1 - bankNow die)) = true →
        ∃ t, exec (.patctlWrite d val) s = .next t ∧ (field val 1 1 = 1 → field (regRaw (dieOf t d) 0x0708) 1 1 = 1
          ∧ field (regRaw (dieOf t d) 0x0708) 32 32 = field val 32 32))
    ∧ (field s.ga.modFeatures 0 1 = 1 → exec (.vcsecWrite val) s = .next { s with ga := { s.ga with vcsecNext := val % 65536 } })
    ∧ (field s.ga.modFeatures 0 1 = 0 → exec (.vcsecWrite val) s = .next s)
    ∧ (∀ n, n < 16 → regRaw die (0x0600 + 8 * n) % 128 ≠ val % 128 → stores (.splockWrite d n val) (0x0600 + 8 * n) (val % 128))

/-- Power and bring-up (18 R361 to R363, 24 R427): GO starts the verification in states 0 and 4; a good image brings state 2, another state 4; the
end of bring-up state 3, or 5 with its shortfall told; power off and on leave the module as after reset; a PLDM request is answered.
Where it follows a convention of the model and not the spec, the convention is log 42, log 43. -/
def Obligations.PowerAndBringUp : Prop :=
  ∀ s : State,
    (s.ga.power = true → s.ga.boot = 0 ∨ s.ga.boot = 4 → exec .bootstatGo s = .next { s with ga := { s.ga with boot := 1 } })
    ∧ (s.ga.boot = 1 → exec .imageVerified s = .next { s with ga := { s.ga with boot := if imageGood s then 2 else 4 } })
    ∧ (∀ shortfall, s.ga.boot = 2 → ∃ t, exec (.bringupDone shortfall) s = .next t
        ∧ t.ga.boot = (if shortfall % 2 ^ 34 = 0 then 3 else 5) ∧ t.ga.shortfall = shortfall % 2 ^ 34
        ∧ t.out.pldm = s.out.pldm ++ (if shortfall % 2 ^ 34 = 0 then [] else [(0x100, shortfall % 2 ^ 34)]))
    ∧ (∃ t, exec .powerOff s = .next t ∧ t.ga.power = false ∧ t.mem = [] ∧ t.ctxs = [] ∧ t.cores = [] ∧ t.dies = [] ∧ t.jobs = [] ∧ t.now = 0)
    ∧ (s.ga.power = false → ∃ t, exec .powerOn s = .next t ∧ t.ga = Garod.init ∧ t.mem = [] ∧ t.ctxs = [] ∧ t.cores = [] ∧ t.dies = [] ∧ t.now = 0)
    ∧ (∀ kind, exec (.pldmRequest kind) s = .next { s with out := { s.out with pldm := s.out.pldm ++ [(0x104, kind)] } })

/-- The mailbox (07 R143, 14 R289, R290, 15 R305, 18 R353, R355, R359, R360): a command while one is held sets OVR and nothing else; in state 3 it is
taken: SWAP begins, RESUME makes a halted context a candidate, RESTORE, PART, CKLOG and KEY answer with their result, MAINT restarts, an unknown
code answers 2; a finished job is reported; ACCEPT keeps to what is offered.
Where it follows a convention of the model and not the spec, the convention is log 38, log 39, log 43. -/
def Obligations.Mailbox : Prop :=
  (∀ (s : State) (a0 a1 code : Nat), a0 < 2 ^ 64 → a1 < 2 ^ 64 → s.ga.cleared ≠ s.now + 1 → s.ga.boot = 3 →
    let args : Nat → Nat → State := fun x y => { s with ga := { s.ga with arg0 := BitVec.ofNat 64 x, arg1 := BitVec.ofNat 64 y } }
    let taken : Nat → Nat → Nat → State := fun c x y => { args x y with ga := { (args x y).ga with busy := true, last := c, cmd := some c } }
    let refuses : Instr → Nat → Nat → Prop := fun i x y => exec i s = .next (noteHw { args x y with ga := { (args x y).ga with ovr := true } } 8 0x058 0 (fun n => n ||| 2))
    let ends : State → Nat → State := fun t r => { t with ga := { t.ga with busy := false, result := r, cmd := none, cleared := t.now + 1 } }
    (s.ga.busy = true → refuses (.mboxJob a0 a1) a0 a1 ∧ refuses (.mboxSwap a1) 0 a1 ∧ refuses (.mboxResume a0) a0 0
      ∧ refuses (.mboxResumeStep a0) a0 1 ∧ refuses (.mboxRestore a0 a1) a0 a1 ∧ refuses (.mboxPart a0) a0 0 ∧ refuses (.mboxCklog a0 a1) a0 a1
      ∧ refuses (.mboxKey a0) a0 0)
    ∧ (s.ga.busy = false →
      exec (.mboxJob a0 a1) s = .next (takeJob (taken 1 a0 a1) a0 a1)
      ∧ (a1 % 8 < s.ga.parts → field s.ga.standby (a1 % 8) 1 = 1 →
          exec (.mboxSwap a1) s = .next { taken 2 0 a1 with ga := { (taken 2 0 a1).ga with swap := some (a1 % 8, 0) } })
      ∧ (let k := field a0 0 10
         let x := field a0 10 3
         k < 640 → (ctxOf s k x).status = .halted →
          exec (.mboxResume a0) s = .next (ends (setCtx (taken 3 a0 0) k x { ctxOf s k x with status := .bound, toRun := true, stepMark := false }) 0)
          ∧ exec (.mboxResumeStep a0) s = .next (setCtx (taken 3 a0 1) k x { ctxOf s k x with status := .bound, toRun := true, stepMark := true }))
      ∧ (let n := a0 % 16
         n = 1 ∨ n = 2 ∨ n = 4 ∨ n = 8 → a0 / 256 % 256 = 0 → s.ga.firstJob = false →
          ∃ t, exec (.mboxPart a0) s = .next t ∧ t.ga.parts = n ∧ t.ga.standby = 0 ∧ t.ga.result = 0 ∧ t.ga.busy = false)
      ∧ (∀ side id j, namedSide s a1 = some side → s.ck.active = none → jobAt s side = some (id, j) → a0 % 64 = 0 → a0 ≤ areaSize j →
          exec (.mboxCklog a0 a1) s = .next (ends { taken 7 a0 a1 with ck := { s.ck with pos := mapSet s.ck.pos 0 side a0 } } 0))
      ∧ (∀ side, namedSide s a1 = some side → jobAt s side = none → a1 / 64 * 64 + 128 ≤ 2 ^ 40 →
          let t := taken 4 a0 a1
          areaReadable t (readJob t (a1 / 64 * 64)) = true →
          let r := restoreTo t { readJob t (a1 / 64 * 64) with part := a1 % 8 } (groupFirst t (a1 % 8)) a0
          exec (.mboxRestore a0 a1) s = .next (ends r.1 r.2))
      ∧ (let w := fun k => leVal (getBytes s.mem (a0 + 8 * k) 8)
         let vc := field (w 4) 0 3
         let peer := field (w 4) 3 6
         let rot := field (w 5) 0 32
         a0 % 64 = 0 → a0 + 64 ≤ 2 ^ 40 → field (w 4) 9 55 = 0 → field (w 5) 32 32 = 0 → w 6 = 0 → w 7 = 0 → peer ≠ Config.moduleNumber → s.rot + 2 ≤ rot →
          ∃ t, exec (.mboxKey a0) s = .next t ∧ t.ga.result = 0 ∧ t.ga.busy = false
            ∧ (∀ d, d < 8 → (fabKey (fabOf t d) vc peer).nextAt = some rot
                ∧ (fabKey (fabOf t d) vc peer).next = BitVec.ofNat 256 (leVal (getBytes s.mem a0 32))))
      ∧ (code < 256 → exec (.mboxUnknownCode code) s = .next (ends (taken code s.ga.arg0.toNat s.ga.arg1.toNat) 2))
      ∧ exec .mboxMaint s = .next (maintain (taken 5 s.ga.arg0.toNat s.ga.arg1.toNat))))
  ∧ (∀ (s : State) (a0 a1 : Nat),
      let side := sideOf s (a1 % 8) (field a1 3 1 = 1)
      let j := { readJob s a0 with part := a1 % 8, standby := decide (8 ≤ side), features := maskTo (acceptSampled s 0) 0x58 + s.ga.modFeatures }
      a0 % 64 = 0 → a0 + 128 ≤ 2 ^ 40 → a1 % 8 < s.ga.parts → field a1 3 1 = 1 → field s.ga.standby (a1 % 8) 1 = 1 → jobAt s side = none →
      jobReserved s a0 = false → j.baste ≤ 10239 → j.cksz ≠ 0 → tableInside s (a1 % 8) (readJob s a0) = true → s.jobs ≠ [] → ∀ id, freeJob s = some id →
      ∃ t, takeJob s a0 a1 = t ∧ t.ga.result = 0 ∧ t.ga.busy = false ∧ t.ga.firstJob = true ∧ jobOf t id = j)
  ∧ (∀ (s : State) (id : Nat) (w : Waiting), id < 8 → jobDone s id = some w →
      ∃ t, exec (.jobCompleteReport id) s = .next t ∧ t.out.msix = s.out.msix ++ [0])
  ∧ (∀ (s : State) (k val : Nat), k < 4 → val &&& featureOffer k ≠ 0 →
      ∃ t, exec (.acceptWrite k val) s = .next t ∧ acceptWord t k = val &&& featureOffer k)

/-- Checkpoints (12 R257, 18 R357, R358, R360): a freeze takes the partition's dirty blocks and clears their bits; a mark that is not newer is stale; a
frozen block goes out as one record behind the write position, and after the last one the end record makes the number complete.
Where it follows a convention of the model and not the spec, the convention is log 37. -/
def Obligations.Checkpoints : Prop :=
  (∀ (s : State) (k x sem : Nat) (seq : BitVec 64) (rest : List (Nat × Nat × Nat × BitVec 64)), s.ck.active = none → s.ck.marks = (k, x, sem, seq) :: rest →
    let side := (coreOf s k).part
    let j := match jobAt s side with | some j => j.2 | none => Job.init
    ((∀ q, s.ck.lastSeq = some q → q < seq) →
      ∃ t, exec .checkpointFreeze s = .next t ∧ t.ck.active = some (seq, side) ∧ t.ck.marks = rest ∧ t.ck.lastSeq = some seq
        ∧ t.ck.frozen = dirtySet s j (dieOfCore k) ∧ t.ck.streamed = [] ∧ t.ck.preserved = [])
    ∧ (∀ q, s.ck.lastSeq = some q → seq ≤ q →
      ∃ t, exec .checkpointFreeze s = .next t ∧ t.ga.stale = true ∧ t.ck.active = none ∧ t.ck.marks = rest))
  ∧ (∀ (s : State) (seq : BitVec 64) (side pbn obj x leaf : Nat) (rest : List (Nat × Nat × Nat × Nat)), s.ck.active = some (seq, side) →
    s.ck.frozen = (pbn, obj, x, leaf) :: rest → preserveFull s s.ck.job = false → stackHeld s (stackOf (pbn * 65536)) = false →
    let j := s.ck.job
    let pos := mapGet s.ck.pos 0 side
    let bs := recordHeader seq.toNat obj x 0 0 ++ blockImage s pbn
    j.ckkind = 0 → pos + bs.length ≤ areaSize j →
    ∃ t, exec .checkpointBlockStream s = .next t ∧ t.ck.frozen = rest ∧ t.ck.streamed = s.ck.streamed ++ [leaf]
      ∧ mapGet t.ck.pos 0 side = pos + bs.length ∧ (areaBase j + pos, bs) ∈ t.ck.out ∧ t.mem = s.mem)
  ∧ (∀ (s : State) (seq : BitVec 64) (side : Nat), s.ck.active = some (seq, side) → s.ck.frozen = [] →
    let j := s.ck.job
    let pos := mapGet s.ck.pos 0 side
    let bs := recordHeader seq.toNat 0 0 1 s.ck.streamed.length
    j.ckkind = 0 → pos + bs.length ≤ areaSize j →
    ∃ t, exec .checkpointComplete s = .next t ∧ t.ck.active = none ∧ t.ck.complete = seq ∧ (areaBase j + pos, bs) ∈ t.ck.out)

/-! ## Decoding, fetching, resetting, and what is left alone -/

/-- Words written out from the encodings of 05 R83, R84, R90, R93, R100, R102 and 16 R318, and what they stand for. -/
def Obligations.DecodeWords : Prop :=
  -- SC slot, STOP: ADD s5, s6, s7 with PATH 7, predicate 0
  decodeTableWord 128 ((0x101 : Nat) + (0x00 * 2 ^ 48 + 7 * 2 ^ 45 + 5 * 2 ^ 32 + 6 * 2 ^ 26 + 7 * 2 ^ 20) * 2 ^ 64)
    = some (.add ⟨7, 0, false⟩ ⟨5, 6, 7, 0, 0⟩)
  -- the shift by an immediate 9, guarded by the complement of p3
  ∧ decodeTableWord 128 ((0x101 : Nat) + (0x14 * 2 ^ 48 + 7 * 2 ^ 45 + 3 * 2 ^ 39 + 1 * 2 ^ 38 + 1 * 2 ^ 32 + 2 * 2 ^ 26 + (64 + 9)) * 2 ^ 64)
    = some (.shlImm ⟨7, 3, true⟩ ⟨1, 2, 0, 0, 73⟩)
  -- VA and VB slots: VADD of 512 bits, T 1
  ∧ decodeTableWord 128 ((0x102 : Nat) + (0x00 * 2 ^ 48 + 7 * 2 ^ 45 + 1 * 2 ^ 36 + 1 * 2 ^ 32 + 16 * 2 ^ 23 + 9 * 2 ^ 16 + 10 * 2 ^ 8 + 11) * 2 ^ 64)
    = some (.vadd ⟨7, 0, false⟩ false ⟨1, 1, 0, 0, 16, 9, 10, 11⟩)
  ∧ decodeTableWord 128 ((0x104 : Nat) + (0x00 * 2 ^ 48 + 7 * 2 ^ 45 + 1 * 2 ^ 36 + 1 * 2 ^ 32 + 16 * 2 ^ 23 + 9 * 2 ^ 16 + 10 * 2 ^ 8 + 11) * 2 ^ 64)
    = some (.vadd ⟨7, 0, false⟩ true ⟨1, 1, 0, 0, 16, 9, 10, 11⟩)
  -- LD and ST slots: LDS and STS of 8 bytes
  ∧ decodeTableWord 128 ((0x110 : Nat) + (0x00 * 2 ^ 48 + 7 * 2 ^ 45 + 12 * 2 ^ 30 + 2 * 2 ^ 26 + 3 * 2 ^ 20 + 1 * 2 ^ 16 + 3 * 2 ^ 12 + 4) * 2 ^ 64)
    = some (.lds ⟨7, 0, false⟩ ⟨12, 2, 3, 1, 0, 3, 4⟩)
  ∧ decodeTableWord 128 ((0x120 : Nat) + (0x00 * 2 ^ 48 + 7 * 2 ^ 45 + 12 * 2 ^ 30 + 2 * 2 ^ 26 + 3 * 2 ^ 20 + 1 * 2 ^ 16 + 3 * 2 ^ 12 + 4) * 2 ^ 64)
    = some (.sts ⟨7, 0, false⟩ ⟨12, 2, 3, 1, 0, 3, 4⟩)
  -- SY slot: TEXIT, SYNC (with the bundle's SYNC bit), a two-way tree and a hint
  ∧ decodeTableWord 128 ((0x180 : Nat) + (0x14 * 2 ^ 48 + 7 * 2 ^ 45) * 2 ^ 64) = some (.texit ⟨7, 0, false⟩ ⟨0, 0, 0, 0⟩)
  ∧ decodeTableWord 128 ((0x1180 : Nat) + (0x08 * 2 ^ 48 + 5) * 2 ^ 64) = some (.sync 5)
  ∧ decodeTableWord 128 ((0x10180 + 70 * 2 ^ 20 : Nat) + 8190 * 2 ^ 64) = some (.brt 1 70 0 0 0 8190 0 0 0)
  ∧ decodeTableWord 128 ((0x101 : Nat) + (0xF3 * 2 ^ 48 + 77) * 2 ^ 64) = some (.hint 0 3 77)
  -- an empty bundle with STOP and YIELD; RRPUT x3, x4, x5 and DTILE x3, x4 of the Shuttle
  ∧ decodeTableWord 64 0x500 = some (.emptyBundle false true false)
  ∧ decodeTableWord 32 (0x0B + 3 * 2 ^ 7 + 1 * 2 ^ 12 + 4 * 2 ^ 15 + 5 * 2 ^ 20) = some (.rrput 3 4 5)
  ∧ decodeTableWord 32 (0x2B + 3 * 2 ^ 7 + 3 * 2 ^ 12 + 4 * 2 ^ 15) = some (.dtile 3 4)
  -- an opcode its class does not list (0x0F of SC), and a set reserved bit of ADD, are no instruction
  ∧ decodeTableWord 128 ((0x101 : Nat) + (0x0F * 2 ^ 48 + 7 * 2 ^ 45) * 2 ^ 64) = none
  ∧ decodeTableWord 128 ((0x101 : Nat) + (0x00 * 2 ^ 48 + 7 * 2 ^ 45 + 1) * 2 ^ 64) = none

/-- Decoding an encoded instruction gives it back (05 R83, R84, R100 to R106, 16 R318): for every well-formed syllable of every class, every
tree, hint, SYNC and empty bundle, and every custom instruction, no bit of an operand is dropped. A syllable that stands alone has no tree
beside it, so its PATH is 0 or 7 (05 R91). -/
def Obligations.EncodeRoundTrip : Prop :=
  ∀ i : Instr, i.wellFormed = true → (encode i).1 ≠ 0 → (i.guard.path = 0 ∨ i.guard.path = 7) →
    decodeTableWord (encode i).1 (encode i).2 = some i

/-- What is decoded stands for its word and no other (05 R90, R100, R102, R107, 16 R318): a syllable that decodes is well-formed, belongs to its
slot, and its encoding is the syllable's 56 bits (SYNC has no guard, its reserved bits are 0); a custom instruction's encoding is its word. -/
def Obligations.DecodeIsExact : Prop :=
  (∀ (slot leaves w : Nat) (i : Instr), slot < 8 → leaves ≤ 5 → w < 2 ^ 56 → decodeSyllable slot leaves w = .ok i →
    i.wellFormed = true ∧ i.slot = slot ∧ i.syllable = w)
  ∧ (∀ (w : Nat) (i : Instr), w < 2 ^ 32 → decodeShuttle w = some i → i.wellFormed = true ∧ encode i = (32, w))
  ∧ ∀ (slot leaves w : Nat), w / 2 ^ 48 % 256 < 240 → w / 2 ^ 45 % 8 ≠ 7 → leaves ≤ w / 2 ^ 45 % 8 → decodeSyllable slot leaves w = .bad 0x0C

/-- A step runs the decoded instruction (05 R81 to R87, log 4, log 11): in the turn of a core whose context holds issue with nothing to do before
the group, the bytes at the pc are decoded and the group's one instruction runs, or its syllables together; in a Shuttle's turn the word at its
pc runs; what the surroundings bring comes first; and where no turn is left the next cycle's turns are set out.
Where it follows a convention of the model and not the spec, the convention is log 4, log 11, log 84. -/
def Obligations.StepRunsDecoded : Prop :=
  (∀ (s : State) (k x : Nat) (rest : List Turn) (g : Group),
    let u := actAs { s with turns := rest } k x
    let c := ctxOf s k x
    let is : List Syl := g.syls.map (fun i => ⟨i, microOf i⟩)
    let v := keepBundles u g.len
    s.inbox = [] → s.turns = .core k :: rest → (coreOf s k).holder = some x → (coreOf s k).exchLeft ≠ 1 → (coreOf s k).heldOff < 65536 →
    swapping s k = false → wantsPreempt s k x = false → mustFreeze s k x = false → c.hold = 0 → asyncReady s k x = false → watchdogDue s k = false →
    c.pc + g.len ≤ 2 ^ 40 → c.pc < 2 ^ 40 → (c.stalled = 0 ∨ c.sp.hmode = true ∨ taskCancelled u c = false) →
    decodeBytes (fetchBytes u) = .ok g →
    (c.regs.armed = [] → fetchBytes u = getBytes s.mem c.pc 512 ∧ (c.regs.loopBuf = [] → v = u))
    ∧ (∀ i, g.syls = [i] → isSolo g = true → (∀ m y j, i ≠ .emptyBundle m y j) → step s = exec i v)
    ∧ (∀ m y j, g.syls = [.emptyBundle m y j] → g.len = 8 → step s = exec (.emptyBundle m y j) v)
    ∧ ((∀ m y j, g.syls ≠ [.emptyBundle m y j]) → isSolo g = false → step s = .next (issueGroup v (groupInfo c.pc g) is)))
  ∧ (∀ (s : State) (d : Nat) (rest : List Turn) (i : Instr) (w : Nat), s.inbox = [] → s.turns = .shuttle d :: rest →
    let t : State := { s with turns := rest, die := d }
    shFetch t d = .word w 4 → decodeShuttle w = some i → step s = exec i (countSh t d true))
  ∧ (∀ (s : State) (i : Instr) (rest : List Instr), s.inbox = i :: rest → step s = exec i { s with inbox := rest })
  ∧ ∀ s : State, s.inbox = [] → s.turns = [] → step s = .next (newCycle s)

/-- What reset leaves, where the spec gives a value (00 R4, R11, 02 R28, R31, R36, R39, 03 R48, R49, 04 R71, 12 R243, 14 R283, R289, 15 R295, 24 R426,
25 R441): a fresh module has no job, no bound context and no listed byte of memory; the registers that have a reset value hold it. -/
def Obligations.ResetState : Prop :=
  let s := State.reset
  (∀ k x, (ctxOf s k x).status = .dormant ∧ (ctxOf s k x).clock = 0 ∧ (ctxOf s k x).sp.hmode = false ∧ (ctxOf s k x).sp.cause = 0
    ∧ (ctxOf s k x).sp.felog = none ∧ (ctxOf s k x).regs.shadow = [] ∧ (∀ n, readS (ctxOf s k x) n = 0#64) ∧ readP (ctxOf s k x) 0 = true
    ∧ (∀ n, n ≠ 0 → readP (ctxOf s k x) n = false) ∧ (∀ n, readC (ctxOf s k x) n = Cap.zero) ∧ (∀ n, readE (ctxOf s k x) n = 0#128)
    ∧ (∀ n, semOf (ctxOf s k x) n = 0) ∧ (∀ n, (portOf (ctxOf s k x) n).armed = false))
  ∧ (∀ k, (coreOf s k).lastIssued = 7 ∧ (coreOf s k).holder = none ∧ (coreOf s k).gen = 0x9E3779B97F4A7C15#64 ∧ (coreOf s k).seed = 0#64
    ∧ (coreOf s k).lines = 0 ∧ (coreOf s k).phase = 0 ∧ (∀ b, bankOwner (coreOf s k).vrf b = 0) ∧ (coreOf s k).ms.gated = []
    ∧ (coreOf s k).mx.q = [] ∧ (coreOf s k).tagstale = 0)
  ∧ (∀ d, regRaw (dieOf s d) 0x3810 = 4 ∧ (∀ r, (taskOf s d r).state = .free) ∧ (∀ j, (joinOf s d j).state = .free)
    ∧ (dieOf s d).dupcnt = 0 ∧ regRaw (dieOf s d) 0x3010 = 10 ∧ regRaw (dieOf s d) 0x3020 = 1024
    ∧ regRaw (dieOf s d) 0x0740 = 256 + 1024 * 2 ^ 12 + 4 * 2 ^ 24 ∧ regRaw (dieOf s d) 0x0758 = 64
    ∧ (∀ n, n < 64 → regRaw (dieOf s d) (0x3300 + 8 * n) = 0xFFFFFFFF))
  ∧ s.mem = [] ∧ s.tags = [] ∧ s.poison = [] ∧ s.jobs = [] ∧ s.ga.parts = 1 ∧ s.ga.standby = 0 ∧ s.ga.busy = false ∧ s.now = 0

/-- What an instruction whose one effect is a value for a register leaves alone (03 R43 to R46, 05 R86, 10 R214, 14 R288): its context moves on by
one group and one cycle, and the value is in its register, or waits in the shadow record; every other register, flag, special register,
accumulator and queue of the context, every other context, the core's register file, buffers, matrix unit and special registers, all of memory
with its tags and poison, the worlds, the jobs and what has left the module are as before. -/
def Obligations.RegisterOnlyFrame : Prop :=
  ∀ (s : State) (i : Instr) (lat : Nat) (v : Land),
    let k := s.core
    let x := s.cx
    let c := ctxOf s k x
    let t := retired s i ((began s i).add lat v none 0)
    let e := ctxOf t k x
    let on : Ctx := { c with pc := e.pc, clock := e.clock, stalled := 0, ringWait := 0, slotWait := 0 }
    marksBefore i = false → marksAfter i = false → gateFull (settleObjects s) i = false → (∀ g f, i ≠ .mcvt g f) → i.slot < 8 → 0 < lat →
    c.regs.shadow = [] → c.regs.armed = [] → c.stepMark = false →
    e.pc = (c.pc + 16) % 2 ^ 48 ∧ e.clock = c.clock + 1 ∧ e.stalled = 0
    ∧ (1 < lat → e = { on with regs := { c.regs with
        shadow := [{ due := c.clock + lat, iss := c.clock, what := v, ring := none, waits := none, note := none, src := none, acq := false,
                     check := none, struck := false }] } })
    ∧ (lat = 1 → ∀ n w, v = .scalar n w → e = writeS on n w)
    ∧ (lat = 1 → ∀ n w, v = .cap n w → e = writeC on n w)
    ∧ (lat = 1 → ∀ n w, v = .mask n w → e = writeE on n w)
    ∧ (lat = 1 → ∀ n w, v = .pred n w → e = resolveGuards (writeP on n w) (c.clock + 1) n w)
    ∧ ((1 < lat ∨ (∃ n w, v = .scalar n w) ∨ (∃ n w, v = .cap n w) ∨ (∃ n w, v = .mask n w) ∨ (∃ n w, v = .pred n w)) →
      (∀ k' x', 8 * k' + x' ≠ 8 * k + x → ctxOf t k' x' = ctxOf s k' x')
      ∧ (let m := coreOf s k
         let n := coreOf t k
         n.vrf = m.vrf ∧ n.bufs = m.bufs ∧ n.mx = m.mx ∧ n.tvec = m.tvec ∧ n.replayv = m.replayv ∧ n.gen = m.gen ∧ n.seed = m.seed
         ∧ n.lines = m.lines ∧ n.phase = m.phase ∧ n.tagstale = m.tagstale ∧ n.calown = m.calown ∧ n.holder = m.holder
         ∧ n.ms.gated = m.ms.gated ∧ n.ms.released = m.ms.released ∧ n.ms.loads = m.ms.loads ∧ n.ms.atoms = m.ms.atoms ∧ n.ms.lines = m.ms.lines)
      ∧ (∀ k', k' ≠ k → coreOf t k' = coreOf s k')
      ∧ t = { s with cores := t.cores, ctxs := t.ctxs })

/-- What a store that is performed does to memory, and to nothing else of it (10 R195, R199, 11 R216, R220, 24 R420): a span within one 256-byte line
takes the bytes, and every other byte of memory keeps its value but the DIRTY bit of the leaf entry; the granules the span touches take its
tag, and the leaf entry's own loses its tag; a wholly covered granule takes its poison, a partly covered one keeps what it had. A store to a typed buffer changes that buffer's bytes. The
canonical form of memory (strictly rising addresses, no entry equal to what an unlisted address reads as) is kept wherever memory is written.
Where it follows a convention of the model and not the spec, the convention is log 27. -/
def Obligations.MemoryWrites : Prop :=
  ((∀ (s : State) (k : Nat) (t : Store) (p leaf n : Nat),
      memWf s.mem = true → mapWf s.tags false = true → mapWf s.poison false = true → s.worlds.overlays = [] →
      isLeafPage s (p / 65536) = false → t.tgt = .mem 0 [(p, leaf, n)] → t.data.length = n → 0 < n → p % 256 + n ≤ 256 → (leaf + 4 < p ∨ p + n ≤ leaf + 4) →
      let u := performStore s k t
      (∀ a, p ≤ a → a < p + n → getByte u.mem a = t.data.getD (a - p) 0#8)
      ∧ (∀ a, (a < p ∨ p + n ≤ a) → (leaf = 0 ∨ a ≠ leaf + 4) → getByte u.mem a = getByte s.mem a)
      ∧ (leaf ≠ 0 → getByte u.mem (leaf + 4) = getByte s.mem (leaf + 4) ||| 4#8)
      ∧ (∀ a, tagAt u a = if leaf ≠ 0 ∧ a / 16 = (leaf + 4) / 16 then false else if p < a / 16 * 16 + 16 ∧ a / 16 * 16 < p + n then t.tag else tagAt s a)
      ∧ (∀ a, badAt u a = if p < a / 64 * 64 + 64 ∧ a / 64 * 64 < p + n
          then t.bad || (badAt s a && !(decide (p ≤ a / 64 * 64) && decide (a / 64 * 64 + 64 ≤ p + n))) else badAt s a)
      ∧ u.worlds = s.worlds ∧ u.dies = s.dies ∧ u.ctxs = s.ctxs ∧ u.jobs = s.jobs)
    ∧ (∀ (s : State) (k code a : Nat) (t : Store), t.tgt = .buf code a → memWf (coreOf s k).bufs.bytes = true →
      let u := performStore s k t
      (∀ b, b < t.data.length → getByte (coreOf u k).bufs.bytes (bufKey code a + b) = t.data.getD b 0#8)
      ∧ (∀ b, (b < bufKey code a ∨ bufKey code a + t.data.length ≤ b) → getByte (coreOf u k).bufs.bytes b = getByte (coreOf s k).bufs.bytes b)
      ∧ u.mem = s.mem ∧ u.tags = s.tags ∧ u.poison = s.poison)
    ∧ (∀ (j k : Iss) (ci off n al right sz : Nat) (write : Bool) (rc : Nat) (far : Option Nat) (p : Place),
      j.locate ci off n al right sz write rc far = .ok (k, p) →
      k.st.mem = j.st.mem
      ∧ (∃ ls, k.st.raises = j.st.raises ++ ls ∧ ∀ r ∈ ls, r.1 = j.st.now + 40 ∧ r.2.2 = write ∧ ∀ ps, p = .mem ps → ∃ q ∈ ps, q.2.1 = r.2.1)
      ∧ k.st.tags = j.st.tags ∧ k.st.poison = j.st.poison ∧ k.ctx.regs = j.ctx.regs ∧ k.pends = j.pends))
  ∧ (let canonical : State → Prop := fun s => memWf s.mem = true ∧ mapWf s.tags false = true ∧ mapWf s.poison false = true
    canonical State.reset
    ∧ (∀ (s : State) (k : Nat) (t : Store), canonical s → canonical (performStore s k t))
    ∧ (∀ (s : State) (leaf n : Nat) (write : Bool), canonical s → canonical (heat s leaf write) ∧ canonical (setWov s leaf n) ∧ canonical (applyRaises s))
    ∧ (∀ (s : State) (w phys leaf : Nat) (bs : List Byte) (tag bad : Bool), canonical s → canonical (writeIn s w phys leaf bs tag bad))
    ∧ ∀ (s t : State) (i : Instr), canonical s → exec i s = .next t →
      (∃ k, i = .storePerformed k ∨ i = .atomicPerformed k) → canonical t)

/-- What syllables leave alone, whether they issue, stall or trap (03 R42, R48, 10 R192, 11 R216, 22 R379). One that names no place in memory,
writes no context image and ends no world leaves all of memory as it is, with its tags, its poison and its overlay records: memory is written only where
a store or an atomic is performed, by a context image, and where a world ends; the heat of a walk is raised 40 cycles on. One of the classes SC, VA, VB and MX, but a
write of SYNCPART, changes no other context and no other core, and nothing else of the module but a die's counters, the free-value counter, what has
left the module, and the command of a single step. -/
def Obligations.SyllablesLeaveAlone : Prop :=
  (∀ (s t : State) (i : Instr), i.slot < 8 → usesMemory i = false → exec i s = .next t →
    t.mem = s.mem ∧ t.tags = s.tags ∧ t.poison = s.poison ∧ t.worlds.overlays = s.worlds.overlays ∧ t.tier = s.tier)
  ∧ ∀ (s t : State) (i : Instr), i.slot < 4 → (∀ g f, i ≠ .syncpartWrite g f) →
    (s.ctxs.map (·.1)).Pairwise (· < ·) → (s.cores.map (·.1)).Pairwise (· < ·) → exec i s = .next t →
    (∀ k x, 8 * k + x ≠ 8 * s.core + s.cx → ctxOf t k x = ctxOf s k x) ∧ (∀ k, k ≠ s.core → coreOf t k = coreOf s k)
    ∧ t = { s with cores := t.cores, ctxs := t.ctxs, dies := t.dies, free := t.free, out := t.out, ga := t.ga }

/-- 03 R46: s0 reads as zero and p0 as true, writes to them are discarded, a guard or condition test that names p0 with sense 1 is false; every other
scalar and predicate holds what was last written to it, and a write changes no other. -/
def Obligations.HardwiredRegisters : Prop :=
  ∀ c : Ctx,
    readS c 0 = 0#64 ∧ (∀ v, writeS c 0 v = c) ∧ readP c 0 = true ∧ (∀ v, writeP c 0 v = c)
    ∧ (∀ leaf path, executes c leaf ⟨path, 0, true⟩ = false) ∧ testOf c 64 = false
    ∧ (mapWf c.regs.s 0#64 = true → ∀ n m v, n ≠ 0 → readS (writeS c n v) m = if m = n then v else readS c m)
    ∧ (mapWf c.regs.p false = true → ∀ n m v, n ≠ 0 → readP (writeP c n v) m = if m = n then v else readP c m)

/-- 05 R92: with the leaf 0 alone, PATH 1 to 4 raises 0x0C; PATH 5 and 6 raise it in every group; beside a tree, a PATH that names a leaf the shape does
not have. Checked of the syllable where it is decoded, and of a group that holds nothing else, which then takes 0x0C at its slot. -/
def Obligations.PathRule : Prop :=
  (∀ slot w, slot < 8 → w / 2 ^ 48 % 256 < 240 →
    let path := w / 2 ^ 45 % 8
    (1 ≤ path → path ≤ 6 → decodeSyllable slot 1 w = .bad 0x0C)
    ∧ (path = 5 ∨ path = 6 → ∀ shape, decodeSyllable slot (treeLeaves shape) w = .bad 0x0C)
    ∧ (∀ shape, path ≠ 7 → treeLeaves shape ≤ path → decodeSyllable slot (treeLeaves shape) w = .bad 0x0C)
    ∧ (path = 0 ∨ path = 7 → decodeSyllable slot 1 w ≠ .bad 0x0C))
  ∧ ∀ slot w, slot < 7 → w < 2 ^ 56 → w / 2 ^ 48 < 240 → 1 ≤ w / 2 ^ 45 % 8 → w / 2 ^ 45 % 8 ≤ 6 →
    decodeGroup (2 ^ slot + 256 + w * 2 ^ 64) = .bad 0x0C (some slot) w

/-- 05 R102: every opcode from 0xF0 is a hint in every class, whatever its bits [47:0]; it issues as a no-op, and stalls where a structural condition
holds its group. -/
def Obligations.HintRule : Prop :=
  (∀ slot leaves w, 240 ≤ w / 2 ^ 48 % 256 → decodeSyllable slot leaves w = .ok (.hint slot (w / 2 ^ 48 % 256 - 240) (w % 2 ^ 48)))
  ∧ (∀ slot n imm, Completes (.hint slot n imm) (fun _ => True) (fun j => j))
  ∧ ∀ (s : State) (slot n imm : Nat), let t := settleObjects s
    gateFull t (.hint slot n imm) = false → structural t (soloGroup (actCtx s).pc (.hint slot n imm)) [.hint slot n imm] = true →
    exec (.hint slot n imm) s = .next (stallCycle t)
end

