-- ==== Sys2Proof/Laws/State.lean ====
section
/-! SUPPORT. Laws/State.lean: what storing one context, one core or one die leaves of the other fields of the state. -/

namespace Sys2Proof.Machine

@[simp] theorem setCtx_now (s : State) (k x : Nat) (c : Ctx) : (setCtx s k x c).now = s.now := rfl
@[simp] theorem setCtx_rot (s : State) (k x : Nat) (c : Ctx) : (setCtx s k x c).rot = s.rot := rfl
@[simp] theorem setCtx_rotAt (s : State) (k x : Nat) (c : Ctx) : (setCtx s k x c).rotAt = s.rotAt := rfl
@[simp] theorem setCtx_core (s : State) (k x : Nat) (c : Ctx) : (setCtx s k x c).core = s.core := rfl
@[simp] theorem setCtx_cx (s : State) (k x : Nat) (c : Ctx) : (setCtx s k x c).cx = s.cx := rfl
@[simp] theorem setCtx_die (s : State) (k x : Nat) (c : Ctx) : (setCtx s k x c).die = s.die := rfl
@[simp] theorem setCtx_free (s : State) (k x : Nat) (c : Ctx) : (setCtx s k x c).free = s.free := rfl
@[simp] theorem setCtx_inbox (s : State) (k x : Nat) (c : Ctx) : (setCtx s k x c).inbox = s.inbox := rfl
@[simp] theorem setCtx_turns (s : State) (k x : Nat) (c : Ctx) : (setCtx s k x c).turns = s.turns := rfl
@[simp] theorem setCtx_mem (s : State) (k x : Nat) (c : Ctx) : (setCtx s k x c).mem = s.mem := rfl
@[simp] theorem setCtx_tags (s : State) (k x : Nat) (c : Ctx) : (setCtx s k x c).tags = s.tags := rfl
@[simp] theorem setCtx_poison (s : State) (k x : Nat) (c : Ctx) : (setCtx s k x c).poison = s.poison := rfl
@[simp] theorem setCtx_tier (s : State) (k x : Nat) (c : Ctx) : (setCtx s k x c).tier = s.tier := rfl
@[simp] theorem setCtx_raises (s : State) (k x : Nat) (c : Ctx) : (setCtx s k x c).raises = s.raises := rfl
@[simp] theorem setCtx_stored (s : State) (k x : Nat) (c : Ctx) : (setCtx s k x c).stored = s.stored := rfl
@[simp] theorem setCtx_hwSets (s : State) (k x : Nat) (c : Ctx) : (setCtx s k x c).hwSets = s.hwSets := rfl
@[simp] theorem setCtx_repairs (s : State) (k x : Nat) (c : Ctx) : (setCtx s k x c).repairs = s.repairs := rfl
@[simp] theorem setCtx_cores (s : State) (k x : Nat) (c : Ctx) : (setCtx s k x c).cores = s.cores := rfl
@[simp] theorem setCtx_dies (s : State) (k x : Nat) (c : Ctx) : (setCtx s k x c).dies = s.dies := rfl
@[simp] theorem setCtx_levels (s : State) (k x : Nat) (c : Ctx) : (setCtx s k x c).levels = s.levels := rfl
@[simp] theorem setCtx_jobs (s : State) (k x : Nat) (c : Ctx) : (setCtx s k x c).jobs = s.jobs := rfl
@[simp] theorem setCtx_worlds (s : State) (k x : Nat) (c : Ctx) : (setCtx s k x c).worlds = s.worlds := rfl
@[simp] theorem setCtx_fills (s : State) (k x : Nat) (c : Ctx) : (setCtx s k x c).fills = s.fills := rfl
@[simp] theorem setCtx_ck (s : State) (k x : Nat) (c : Ctx) : (setCtx s k x c).ck = s.ck := rfl
@[simp] theorem setCtx_images (s : State) (k x : Nat) (c : Ctx) : (setCtx s k x c).images = s.images := rfl
@[simp] theorem setCtx_ga (s : State) (k x : Nat) (c : Ctx) : (setCtx s k x c).ga = s.ga := rfl
@[simp] theorem setCtx_out (s : State) (k x : Nat) (c : Ctx) : (setCtx s k x c).out = s.out := rfl

@[simp] theorem setCore_now (s : State) (k : Nat) (c : Core) : (setCore s k c).now = s.now := rfl
@[simp] theorem setCore_rot (s : State) (k : Nat) (c : Core) : (setCore s k c).rot = s.rot := rfl
@[simp] theorem setCore_rotAt (s : State) (k : Nat) (c : Core) : (setCore s k c).rotAt = s.rotAt := rfl
@[simp] theorem setCore_core (s : State) (k : Nat) (c : Core) : (setCore s k c).core = s.core := rfl
@[simp] theorem setCore_cx (s : State) (k : Nat) (c : Core) : (setCore s k c).cx = s.cx := rfl
@[simp] theorem setCore_die (s : State) (k : Nat) (c : Core) : (setCore s k c).die = s.die := rfl
@[simp] theorem setCore_free (s : State) (k : Nat) (c : Core) : (setCore s k c).free = s.free := rfl
@[simp] theorem setCore_inbox (s : State) (k : Nat) (c : Core) : (setCore s k c).inbox = s.inbox := rfl
@[simp] theorem setCore_turns (s : State) (k : Nat) (c : Core) : (setCore s k c).turns = s.turns := rfl
@[simp] theorem setCore_mem (s : State) (k : Nat) (c : Core) : (setCore s k c).mem = s.mem := rfl
@[simp] theorem setCore_tags (s : State) (k : Nat) (c : Core) : (setCore s k c).tags = s.tags := rfl
@[simp] theorem setCore_poison (s : State) (k : Nat) (c : Core) : (setCore s k c).poison = s.poison := rfl
@[simp] theorem setCore_tier (s : State) (k : Nat) (c : Core) : (setCore s k c).tier = s.tier := rfl
@[simp] theorem setCore_raises (s : State) (k : Nat) (c : Core) : (setCore s k c).raises = s.raises := rfl
@[simp] theorem setCore_stored (s : State) (k : Nat) (c : Core) : (setCore s k c).stored = s.stored := rfl
@[simp] theorem setCore_hwSets (s : State) (k : Nat) (c : Core) : (setCore s k c).hwSets = s.hwSets := rfl
@[simp] theorem setCore_repairs (s : State) (k : Nat) (c : Core) : (setCore s k c).repairs = s.repairs := rfl
@[simp] theorem setCore_ctxs (s : State) (k : Nat) (c : Core) : (setCore s k c).ctxs = s.ctxs := rfl
@[simp] theorem setCore_dies (s : State) (k : Nat) (c : Core) : (setCore s k c).dies = s.dies := rfl
@[simp] theorem setCore_levels (s : State) (k : Nat) (c : Core) : (setCore s k c).levels = s.levels := rfl
@[simp] theorem setCore_jobs (s : State) (k : Nat) (c : Core) : (setCore s k c).jobs = s.jobs := rfl
@[simp] theorem setCore_worlds (s : State) (k : Nat) (c : Core) : (setCore s k c).worlds = s.worlds := rfl
@[simp] theorem setCore_fills (s : State) (k : Nat) (c : Core) : (setCore s k c).fills = s.fills := rfl
@[simp] theorem setCore_ck (s : State) (k : Nat) (c : Core) : (setCore s k c).ck = s.ck := rfl
@[simp] theorem setCore_images (s : State) (k : Nat) (c : Core) : (setCore s k c).images = s.images := rfl
@[simp] theorem setCore_ga (s : State) (k : Nat) (c : Core) : (setCore s k c).ga = s.ga := rfl
@[simp] theorem setCore_out (s : State) (k : Nat) (c : Core) : (setCore s k c).out = s.out := rfl

@[simp] theorem setDie_now (s : State) (d : Nat) (v : Die) : (setDie s d v).now = s.now := rfl
@[simp] theorem setDie_rot (s : State) (d : Nat) (v : Die) : (setDie s d v).rot = s.rot := rfl
@[simp] theorem setDie_rotAt (s : State) (d : Nat) (v : Die) : (setDie s d v).rotAt = s.rotAt := rfl
@[simp] theorem setDie_core (s : State) (d : Nat) (v : Die) : (setDie s d v).core = s.core := rfl
@[simp] theorem setDie_cx (s : State) (d : Nat) (v : Die) : (setDie s d v).cx = s.cx := rfl
@[simp] theorem setDie_die (s : State) (d : Nat) (v : Die) : (setDie s d v).die = s.die := rfl
@[simp] theorem setDie_free (s : State) (d : Nat) (v : Die) : (setDie s d v).free = s.free := rfl
@[simp] theorem setDie_inbox (s : State) (d : Nat) (v : Die) : (setDie s d v).inbox = s.inbox := rfl
@[simp] theorem setDie_turns (s : State) (d : Nat) (v : Die) : (setDie s d v).turns = s.turns := rfl
@[simp] theorem setDie_mem (s : State) (d : Nat) (v : Die) : (setDie s d v).mem = s.mem := rfl
@[simp] theorem setDie_tags (s : State) (d : Nat) (v : Die) : (setDie s d v).tags = s.tags := rfl
@[simp] theorem setDie_poison (s : State) (d : Nat) (v : Die) : (setDie s d v).poison = s.poison := rfl
@[simp] theorem setDie_tier (s : State) (d : Nat) (v : Die) : (setDie s d v).tier = s.tier := rfl
@[simp] theorem setDie_raises (s : State) (d : Nat) (v : Die) : (setDie s d v).raises = s.raises := rfl
@[simp] theorem setDie_stored (s : State) (d : Nat) (v : Die) : (setDie s d v).stored = s.stored := rfl
@[simp] theorem setDie_hwSets (s : State) (d : Nat) (v : Die) : (setDie s d v).hwSets = s.hwSets := rfl
@[simp] theorem setDie_repairs (s : State) (d : Nat) (v : Die) : (setDie s d v).repairs = s.repairs := rfl
@[simp] theorem setDie_ctxs (s : State) (d : Nat) (v : Die) : (setDie s d v).ctxs = s.ctxs := rfl
@[simp] theorem setDie_cores (s : State) (d : Nat) (v : Die) : (setDie s d v).cores = s.cores := rfl
@[simp] theorem setDie_levels (s : State) (d : Nat) (v : Die) : (setDie s d v).levels = s.levels := rfl
@[simp] theorem setDie_jobs (s : State) (d : Nat) (v : Die) : (setDie s d v).jobs = s.jobs := rfl
@[simp] theorem setDie_worlds (s : State) (d : Nat) (v : Die) : (setDie s d v).worlds = s.worlds := rfl
@[simp] theorem setDie_fills (s : State) (d : Nat) (v : Die) : (setDie s d v).fills = s.fills := rfl
@[simp] theorem setDie_ck (s : State) (d : Nat) (v : Die) : (setDie s d v).ck = s.ck := rfl
@[simp] theorem setDie_images (s : State) (d : Nat) (v : Die) : (setDie s d v).images = s.images := rfl
@[simp] theorem setDie_ga (s : State) (d : Nat) (v : Die) : (setDie s d v).ga = s.ga := rfl
@[simp] theorem setDie_out (s : State) (d : Nat) (v : Die) : (setDie s d v).out = s.out := rfl

@[simp] theorem setAct_now (s : State) (c : Ctx) : (setAct s c).now = s.now := rfl
@[simp] theorem setAct_rot (s : State) (c : Ctx) : (setAct s c).rot = s.rot := rfl
@[simp] theorem setAct_rotAt (s : State) (c : Ctx) : (setAct s c).rotAt = s.rotAt := rfl
@[simp] theorem setAct_core (s : State) (c : Ctx) : (setAct s c).core = s.core := rfl
@[simp] theorem setAct_cx (s : State) (c : Ctx) : (setAct s c).cx = s.cx := rfl
@[simp] theorem setAct_die (s : State) (c : Ctx) : (setAct s c).die = s.die := rfl
@[simp] theorem setAct_free (s : State) (c : Ctx) : (setAct s c).free = s.free := rfl
@[simp] theorem setAct_inbox (s : State) (c : Ctx) : (setAct s c).inbox = s.inbox := rfl
@[simp] theorem setAct_turns (s : State) (c : Ctx) : (setAct s c).turns = s.turns := rfl
@[simp] theorem setAct_mem (s : State) (c : Ctx) : (setAct s c).mem = s.mem := rfl
@[simp] theorem setAct_tags (s : State) (c : Ctx) : (setAct s c).tags = s.tags := rfl
@[simp] theorem setAct_poison (s : State) (c : Ctx) : (setAct s c).poison = s.poison := rfl
@[simp] theorem setAct_tier (s : State) (c : Ctx) : (setAct s c).tier = s.tier := rfl
@[simp] theorem setAct_raises (s : State) (c : Ctx) : (setAct s c).raises = s.raises := rfl
@[simp] theorem setAct_stored (s : State) (c : Ctx) : (setAct s c).stored = s.stored := rfl
@[simp] theorem setAct_hwSets (s : State) (c : Ctx) : (setAct s c).hwSets = s.hwSets := rfl
@[simp] theorem setAct_repairs (s : State) (c : Ctx) : (setAct s c).repairs = s.repairs := rfl
@[simp] theorem setAct_cores (s : State) (c : Ctx) : (setAct s c).cores = s.cores := rfl
@[simp] theorem setAct_dies (s : State) (c : Ctx) : (setAct s c).dies = s.dies := rfl
@[simp] theorem setAct_levels (s : State) (c : Ctx) : (setAct s c).levels = s.levels := rfl
@[simp] theorem setAct_jobs (s : State) (c : Ctx) : (setAct s c).jobs = s.jobs := rfl
@[simp] theorem setAct_worlds (s : State) (c : Ctx) : (setAct s c).worlds = s.worlds := rfl
@[simp] theorem setAct_fills (s : State) (c : Ctx) : (setAct s c).fills = s.fills := rfl
@[simp] theorem setAct_ck (s : State) (c : Ctx) : (setAct s c).ck = s.ck := rfl
@[simp] theorem setAct_images (s : State) (c : Ctx) : (setAct s c).images = s.images := rfl
@[simp] theorem setAct_ga (s : State) (c : Ctx) : (setAct s c).ga = s.ga := rfl
@[simp] theorem setAct_out (s : State) (c : Ctx) : (setAct s c).out = s.out := rfl

@[simp] theorem setActCore_now (s : State) (c : Core) : (setActCore s c).now = s.now := rfl
@[simp] theorem setActCore_rot (s : State) (c : Core) : (setActCore s c).rot = s.rot := rfl
@[simp] theorem setActCore_rotAt (s : State) (c : Core) : (setActCore s c).rotAt = s.rotAt := rfl
@[simp] theorem setActCore_core (s : State) (c : Core) : (setActCore s c).core = s.core := rfl
@[simp] theorem setActCore_cx (s : State) (c : Core) : (setActCore s c).cx = s.cx := rfl
@[simp] theorem setActCore_die (s : State) (c : Core) : (setActCore s c).die = s.die := rfl
@[simp] theorem setActCore_free (s : State) (c : Core) : (setActCore s c).free = s.free := rfl
@[simp] theorem setActCore_inbox (s : State) (c : Core) : (setActCore s c).inbox = s.inbox := rfl
@[simp] theorem setActCore_turns (s : State) (c : Core) : (setActCore s c).turns = s.turns := rfl
@[simp] theorem setActCore_mem (s : State) (c : Core) : (setActCore s c).mem = s.mem := rfl
@[simp] theorem setActCore_tags (s : State) (c : Core) : (setActCore s c).tags = s.tags := rfl
@[simp] theorem setActCore_poison (s : State) (c : Core) : (setActCore s c).poison = s.poison := rfl
@[simp] theorem setActCore_tier (s : State) (c : Core) : (setActCore s c).tier = s.tier := rfl
@[simp] theorem setActCore_raises (s : State) (c : Core) : (setActCore s c).raises = s.raises := rfl
@[simp] theorem setActCore_stored (s : State) (c : Core) : (setActCore s c).stored = s.stored := rfl
@[simp] theorem setActCore_hwSets (s : State) (c : Core) : (setActCore s c).hwSets = s.hwSets := rfl
@[simp] theorem setActCore_repairs (s : State) (c : Core) : (setActCore s c).repairs = s.repairs := rfl
@[simp] theorem setActCore_ctxs (s : State) (c : Core) : (setActCore s c).ctxs = s.ctxs := rfl
@[simp] theorem setActCore_dies (s : State) (c : Core) : (setActCore s c).dies = s.dies := rfl
@[simp] theorem setActCore_levels (s : State) (c : Core) : (setActCore s c).levels = s.levels := rfl
@[simp] theorem setActCore_jobs (s : State) (c : Core) : (setActCore s c).jobs = s.jobs := rfl
@[simp] theorem setActCore_worlds (s : State) (c : Core) : (setActCore s c).worlds = s.worlds := rfl
@[simp] theorem setActCore_fills (s : State) (c : Core) : (setActCore s c).fills = s.fills := rfl
@[simp] theorem setActCore_ck (s : State) (c : Core) : (setActCore s c).ck = s.ck := rfl
@[simp] theorem setActCore_images (s : State) (c : Core) : (setActCore s c).images = s.images := rfl
@[simp] theorem setActCore_ga (s : State) (c : Core) : (setActCore s c).ga = s.ga := rfl
@[simp] theorem setActCore_out (s : State) (c : Core) : (setActCore s c).out = s.out := rfl

end Sys2Proof.Machine
end

