-- ==== Sys2Proof/Laws/Frame.lean ====
section
/-! SUPPORT. Laws/Frame.lean: what the shared operations of the memory side leave alone: binding slots, numbering requests and releasing
stores change the records of a core and nothing else (10 R207, R214, 11 R220). -/

namespace Sys2Proof.Machine

/-- Only the cores' records differ. -/
def CoresOnly (s t : State) : Prop := t = { s with cores := t.cores }

theorem CoresOnly.refl (s : State) : CoresOnly s s := rfl
theorem CoresOnly.trans {s t u : State} (h : CoresOnly s t) (g : CoresOnly t u) : CoresOnly s u := by
  unfold CoresOnly at *; rw [g, h]
theorem setCore_coresOnly (s : State) (k : Nat) (c : Core) : CoresOnly s (setCore s k c) := rfl
theorem takeSeq_coresOnly (s : State) (k : Nat) : CoresOnly s (takeSeq s k).1 := rfl
theorem bindSlot_coresOnly (s : State) (k : Nat) : CoresOnly s (bindSlot s k).1 := rfl
theorem bindSpan_coresOnly (s : State) (k : Nat) (ps : List (Nat × Nat × Nat)) : CoresOnly s (bindSpan s k ps).1 := by
  unfold bindSpan
  have h := (bindSlot_coresOnly s k).trans (bindSlot_coresOnly (bindSlot s k).1 k)
  cases ps with
  | nil => exact h
  | cons p t =>
    cases t with
    | nil => simp only; split
             · exact bindSlot_coresOnly s k
             · exact h
    | cons _ _ => exact h
theorem releaseOne_coresOnly (s : State) (k : Nat) (st : Store) : CoresOnly s (releaseOne s k st) := by
  unfold releaseOne releaseAs
  refine CoresOnly.trans ?_ (setCore_coresOnly _ _ _)
  cases h : st.tgt with
  | mem w ps =>
    simp only
    cases hf : farDie k ps with
    | some d => exact takeSeq_coresOnly s k
    | none => exact (takeSeq_coresOnly s k).trans (bindSpan_coresOnly _ _ _)
  | buf _ _ => exact takeSeq_coresOnly s k
  | swz _ _ => exact takeSeq_coresOnly s k
  | reg _ _ => exact takeSeq_coresOnly s k
  | remote _ _ _ => exact takeSeq_coresOnly s k
theorem foldl_coresOnly {α : Type} {f : State → α → State} (hf : ∀ t a, CoresOnly t (f t a)) (l : List α) (t : State) :
    CoresOnly t (l.foldl f t) := by
  induction l generalizing t with
  | nil => exact CoresOnly.refl t
  | cons a l ih => exact (hf t a).trans (ih _)
theorem releaseStores_coresOnly (s : State) (k x : Nat) : CoresOnly s (releaseStores s k x) := by
  have h : ∀ (c : Core) (l : List Store), CoresOnly s (l.foldl (fun s t => releaseOne s k t) (setCore s k c)) := fun c l =>
    (setCore_coresOnly s k c).trans (foldl_coresOnly (fun t a => releaseOne_coresOnly t k a) l _)
  exact h _ _

theorem CoresOnly.core {s t : State} (h : CoresOnly s t) : t.core = s.core := by rw [h]
theorem CoresOnly.cx {s t : State} (h : CoresOnly s t) : t.cx = s.cx := by rw [h]
theorem CoresOnly.mem {s t : State} (h : CoresOnly s t) : t.mem = s.mem := by rw [h]
theorem CoresOnly.ctxs {s t : State} (h : CoresOnly s t) : t.ctxs = s.ctxs := by rw [h]

@[simp] theorem markHere_core (s : State) (k x : Nat) : (markHere s k x).core = s.core := (releaseStores_coresOnly s k x).core
@[simp] theorem markHere_cx (s : State) (k x : Nat) : (markHere s k x).cx = s.cx := (releaseStores_coresOnly s k x).cx

theorem settleObjects_coresOnly (s : State) : CoresOnly s (settleObjects s) := by
  unfold settleObjects; simp only; split
  · exact CoresOnly.refl s
  · exact setCore_coresOnly _ _ _
@[simp] theorem settleObjects_core (s : State) : (settleObjects s).core = s.core := (settleObjects_coresOnly s).core
@[simp] theorem settleObjects_cx (s : State) : (settleObjects s).cx = s.cx := (settleObjects_coresOnly s).cx
@[simp] theorem issueState_core (s : State) (i : Instr) : (issueState s i).core = s.core := by
  unfold issueState; simp only; split <;> simp only [markHere_core, settleObjects_core]
@[simp] theorem issueState_cx (s : State) (i : Instr) : (issueState s i).cx = s.cx := by
  unfold issueState; simp only; split <;> simp only [markHere_cx, settleObjects_cx]

end Sys2Proof.Machine
end

