-- ==== Sys2Proof/Laws/Issue.lean ====
section
/-! SUPPORT. Laws/Issue.lean: what the issue of a group of one instruction can do, said once (05 R85, R86, 23 R396). -/

namespace Sys2Proof.Machine

/-- No armed level ends strictly inside a group of one bundle. -/
theorem brokenLevel_solo (c : Ctx) (pc : Nat) (i : Instr) : brokenLevel c (soloGroup pc i) = none := by
  rw [brokenLevel, List.find?_eq_none]
  intro l _
  simp only [soloGroup, Bool.and_eq_true]
  rintro ⟨h1, h2⟩
  exact absurd (of_decide_eq_true h2) (Nat.not_lt.mpr (of_decide_eq_true h1))

@[simp] theorem settleObjects_pc (s : State) : (actCtx (settleObjects s)).pc = (actCtx s).pc := by
  unfold settleObjects; simp only; split <;> rfl

/-- A ready syllable is evaluated on what its group finds. -/
theorem evalSyls_ready {s : State} {i : Instr} (op : Op) (h : Ready s i) :
    evalSyls { began s i with slot := 0, syl := 0, checked := false } (leafOf (actCtx (issueState s i)) [i]) [⟨i, op⟩] =
      match op (began s i) with
      | .error e => .error (i.slot, e)
      | .ok j =>
        match j.corrupt, j.late with
        | some c, _ => .error (i.slot, .trap 0x19 c)
        | none, some t => .error (i.slot, .late t)
        | none, none => .ok j := by
  obtain ⟨-, -, -, he, hg, hb, hp⟩ := h
  have h2 : executes (actCtx (issueState s i)) (leafOf (actCtx (issueState s i)) [i]) i.guard = true := he
  have hpath : (i.guard.path == 7 || i.guard.path == leafOf (actCtx (issueState s i)) [i]) = true := by
    simp only [executes, Bool.and_eq_true] at he; exact he.1
  have hc0 : (began s i).c0 = actCtx (issueState s i) := rfl
  have hps : (began s i).pends = [] := rfl
  have hpend : (if i.slot = 6 then pendingPred (actCtx (issueState s i)) [] i.guard.pred else none) = none := by
    split
    · exact hp ‹_›
    · rfl
  simp only [evalSyls, hc0, hps, List.map_nil, hpend, hpath, h2, hg, hb, Option.isSome_none, Option.isNone_none, Bool.false_or, Bool.and_self,
    Bool.and_false, Bool.not_true, Bool.false_eq_true, if_false, Option.map_none]
  rfl

/-- The issue of a ready instruction is the evaluation of its syllable and what follows from it. -/
theorem issueSyl_ready {s : State} {i : Instr} (op : Op) (h : Ready s i) :
    issueSyl i op s =
      match (match op (began s i) with
        | .error e => (.error (i.slot, e) : Except (Nat × Halt) Iss)
        | .ok j =>
          match j.corrupt, j.late with
          | some c, _ => .error (i.slot, .trap 0x19 c)
          | none, some t => .error (i.slot, .late t)
          | none, none => .ok j) with
      | .error (slot, e) => takeHalt (issueState s i) (actCtx s).pc slot e
      | .ok j =>
        match j.wait, j.port with
        | some f, _ => stallCycle (f (issueState s i))
        | none, some (cause, info, fill) => takeRollback (issueState s i) s.core s.cx cause (actCtx s).pc info fill
        | none, none => retired s i j := by
  rw [← evalSyls_ready op h]
  obtain ⟨hf, hm, hs, he, -, -, -⟩ := h
  have hstate : (if (false || (marksBefore i || false)) || bufferFull (settleObjects s) [i]
      then markHere (settleObjects s) s.core s.cx else settleObjects s) = issueState s i := by
    simp [issueState, gateFull]
  have hhold : ((((false || (marksBefore i || false)) || bufferFull (settleObjects s) [i]) || false
      || (marksAfter i || false)) && decide ((settleObjects s).now < (actCtx (settleObjects s)).resolved)) = false := by
    by_cases hq : (marksBefore i || gateFull (settleObjects s) i || marksAfter i) = true
    · have := hm hq
      have hn : decide ((settleObjects s).now < (actCtx (settleObjects s)).resolved) = false := decide_eq_false (by omega)
      rw [hn, Bool.and_false]
    · simp only [gateFull, Bool.not_eq_true] at hq
      simp only [Bool.or_eq_false_iff] at hq
      simp only [hq.1.1, hq.1.2, hq.2, Bool.or_false, Bool.false_and]
  simp only [issueSyl, issueGroup, List.map_cons, List.map_nil, hf, List.any_cons, List.any_nil,
    show (soloGroup (actCtx s).pc i).join = false from rfl, show (soloGroup (actCtx s).pc i).mark = false from rfl]
  rw [hhold]
  simp only [Bool.false_eq_true, if_false, hstate, hs, brokenLevel_solo]
  have hfilter : List.filter (fun j => executes (actCtx (issueState s i)) (leafOf (actCtx (issueState s i)) [i]) j.guard) [i] = [i] := by
    simp [he]
  simp only [hfilter, List.flatMap_cons, List.flatMap_nil, List.append_nil]
  rfl

/-- A ready instruction whose syllable is sound issues. -/
theorem issueSyl_completes {s : State} {i : Instr} {op : Op} {j : Iss} (h : Ready s i) (ho : op (began s i) = .ok j) (hj : j.Sound) :
    issueSyl i op s = retired s i j := by
  obtain ⟨h1, h2, h3, h4⟩ := hj
  rw [issueSyl_ready op h, ho]
  simp only [h1, h2, h3, h4]

/-- A ready instruction whose syllable traps takes the trap at its slot. -/
theorem issueSyl_traps {s : State} {i : Instr} {op : Op} {c n : Nat} (h : Ready s i) (ho : op (began s i) = .error (.trap c n)) :
    issueSyl i op s = takeTrap (issueState s i) (issueState s i).core (issueState s i).cx c (actCtx s).pc (some i.slot) n := by
  rw [issueSyl_ready op h, ho]
  rfl

/-- A ready instruction whose syllable stalls passes a cycle at issue. -/
theorem issueSyl_stalls {s : State} {i : Instr} {op : Op} {f : State → State} (h : Ready s i) (ho : op (began s i) = .error (.stall f)) :
    issueSyl i op s = stallCycle (f (issueState s i)) := by
  rw [issueSyl_ready op h, ho]
  rfl

/-! ## From a syllable's meaning to its instruction -/

theorem completesTo_of {i : Instr} {op : Op} {r : Iss → Iss → Prop} (he : ∀ s, exec i s = .next (issueSyl i op s))
    (ho : ∀ s j, r (began s i) j → op (began s i) = .ok j) : CompletesTo i r := by
  intro s j h hr hj
  rw [he, issueSyl_completes h (ho s j hr) hj]
theorem completes_of {i : Instr} {op : Op} {h : Iss → Prop} {r : Iss → Iss} (he : ∀ s, exec i s = .next (issueSyl i op s))
    (ho : ∀ s, h (began s i) → op (began s i) = .ok (r (began s i))) (hs : ∀ s, h (began s i) → (r (began s i)).Sound) : Completes i h r := by
  intro s h1 h2
  rw [he, issueSyl_completes h1 (ho s h2) (hs s h2)]
theorem completesWith_of {i : Instr} {op : Op} {h : Iss → Prop} {e : Iss → Iss → Prop} (he : ∀ s, exec i s = .next (issueSyl i op s))
    (ho : ∀ s, h (began s i) → ∃ k, op (began s i) = .ok k ∧ e (began s i) k ∧ k.Sound) : CompletesWith i h e := by
  intro s h1 h2
  obtain ⟨k, h3, h4, h5⟩ := ho s h2
  exact ⟨k, h4, by rw [he, issueSyl_completes h1 h3 h5]⟩
theorem waits_of {i : Instr} {op : Op} {h : Iss → Prop} {f : Iss → State → State} (he : ∀ s, exec i s = .next (issueSyl i op s))
    (ho : ∀ s, h (began s i) → op (began s i) = .error (.stall (f (began s i)))) : Waits i h f := by
  intro s h1 h2
  rw [he, issueSyl_stalls h1 (ho s h2)]
theorem traps_of {i : Instr} {op : Op} {h : Iss → Prop} {c : Nat} {n : Iss → Nat} (he : ∀ s, exec i s = .next (issueSyl i op s))
    (ho : ∀ s, h (began s i) → op (began s i) = .error (.trap c (n (began s i)))) : Traps i h c n := by
  intro s h1 h2
  rw [he, issueSyl_traps h1 (ho s h2), issueState_core, issueState_cx]

/-- Reading a clean scalar changes nothing gathered. -/
theorem s_clean {j : Iss} {n : Nat} (h : sMarkOf j.ctx n = .clean) : j.s n = (j, readS j.ctx n) := by
  simp only [Iss.s, h, Iss.consumes]

@[simp] theorem began_corrupt (s : State) (i : Instr) : (began s i).corrupt = none := rfl
@[simp] theorem began_late (s : State) (i : Instr) : (began s i).late = none := rfl
@[simp] theorem began_port (s : State) (i : Instr) : (began s i).port = none := rfl
@[simp] theorem began_wait (s : State) (i : Instr) : (began s i).wait = none := rfl
@[simp] theorem began_guard (s : State) (i : Instr) : (began s i).guard = none := rfl
theorem began_sound (s : State) (i : Instr) : (began s i).Sound := ⟨rfl, rfl, rfl, rfl⟩

end Sys2Proof.Machine
end

