-- ==== Sys2Proof/Laws/Map.lean ====
section
/-! SUPPORT. Laws/Map.lean: what the operations of sparse stores do: reads after writes, and the canonical form kept. -/

namespace Sys2Proof.Machine

section
variable {α : Type} [DecidableEq α]

theorem mapWfFrom_mono {m : List (Nat × α)} {d : α} {a b : Nat} (h : mapWfFrom m d b = true) (hab : a ≤ b) : mapWfFrom m d a = true := by
  cases m with
  | nil => rfl
  | cons p t =>
    obtain ⟨j, v⟩ := p
    simp only [mapWfFrom, Bool.and_eq_true, decide_eq_true_eq] at h ⊢
    exact ⟨⟨Nat.le_trans hab h.1.1, h.1.2⟩, h.2⟩

theorem mapGet_below {m : List (Nat × α)} {d : α} {lo k : Nat} (h : mapWfFrom m d lo = true) (hk : k < lo) : mapGet m d k = d := by
  cases m with
  | nil => rfl
  | cons p t =>
    obtain ⟨j, v⟩ := p
    simp only [mapWfFrom, Bool.and_eq_true, decide_eq_true_eq] at h
    have : k < j := Nat.lt_of_lt_of_le hk h.1.1
    simp only [mapGet, if_neg (Nat.ne_of_lt this), if_pos this]

theorem mapSet_wfFrom {m : List (Nat × α)} {d : α} {lo k : Nat} {v : α} (h : mapWfFrom m d lo = true) (hk : lo ≤ k) :
    mapWfFrom (mapSet m d k v) d lo = true := by
  induction m generalizing lo with
  | nil =>
    simp only [mapSet]
    split
    · rfl
    · simp [mapWfFrom, *]
  | cons p t ih =>
    obtain ⟨j, u⟩ := p
    have h' := h
    simp only [mapWfFrom, Bool.and_eq_true, decide_eq_true_eq] at h'
    obtain ⟨⟨hj, hu⟩, ht⟩ := h'
    simp only [mapSet]
    split
    · split
      · exact h
      · simp only [mapWfFrom, Bool.and_eq_true, decide_eq_true_eq]
        exact ⟨⟨hk, ‹_›⟩, ⟨by omega, hu⟩, ht⟩
    · split
      · split
        · exact mapWfFrom_mono ht (by omega)
        · simp only [mapWfFrom, Bool.and_eq_true, decide_eq_true_eq]
          subst_vars
          exact ⟨⟨hk, ‹_›⟩, ht⟩
      · simp only [mapWfFrom, Bool.and_eq_true, decide_eq_true_eq]
        exact ⟨⟨hj, hu⟩, ih ht (by omega)⟩

/-- Storing keeps the canonical form. -/
theorem mapSet_wf {m : List (Nat × α)} {d : α} {k : Nat} {v : α} (h : mapWf m d = true) : mapWf (mapSet m d k v) d = true :=
  mapSet_wfFrom h (Nat.zero_le k)

theorem mapGet_mapSet_from {m : List (Nat × α)} {d : α} {lo k : Nat} {v : α} (h : mapWfFrom m d lo = true) (a : Nat) :
    mapGet (mapSet m d k v) d a = if a = k then v else mapGet m d a := by
  induction m generalizing lo with
  | nil =>
    simp only [mapSet]
    split
    · split <;> simp_all [mapGet]
    · simp only [mapGet]; split <;> simp
  | cons p t ih =>
    obtain ⟨j, u⟩ := p
    simp only [mapWfFrom, Bool.and_eq_true, decide_eq_true_eq] at h
    obtain ⟨⟨hj, hu⟩, ht⟩ := h
    simp only [mapSet]
    split
    · split
      · by_cases hak : a = k
        · subst hak; rw [if_pos rfl]; simp only [mapGet]; rw [if_neg (by omega), if_pos (by omega)]; symm; assumption
        · rw [if_neg hak]
      · by_cases hak : a = k
        · subst hak; simp [mapGet]
        · rw [if_neg hak]
          by_cases hlt : a < k
          · simp only [mapGet]; rw [if_neg hak, if_pos hlt, if_neg (by omega), if_pos (by omega)]
          · conv => lhs; rw [mapGet]
            rw [if_neg hak, if_neg hlt]
    · split
      · rename_i hkj
        subst hkj
        split
        · by_cases hak : a = k
          · subst hak; rw [if_pos rfl, mapGet_below ht (by omega)]; symm; assumption
          · rw [if_neg hak]
            by_cases hlt : a < k
            · rw [mapGet_below ht (by omega)]; simp only [mapGet]; rw [if_neg hak, if_pos hlt]
            · conv => rhs; rw [mapGet]
              rw [if_neg hak, if_neg hlt]
        · by_cases hak : a = k
          · subst hak; simp [mapGet]
          · rw [if_neg hak]; simp only [mapGet]; rw [if_neg hak, if_neg hak]
      · simp only [mapGet]
        by_cases haj : a = j
        · rw [if_pos haj, if_neg (by omega), if_pos haj]
        · rw [if_neg haj, if_neg haj]
          by_cases hlt : a < j
          · rw [if_pos hlt, if_neg (by omega), if_pos hlt]
          · rw [if_neg hlt, if_neg hlt, ih ht]

/-- A read after a store. -/
theorem mapGet_mapSet {m : List (Nat × α)} {d : α} {k : Nat} {v : α} (h : mapWf m d = true) (a : Nat) :
    mapGet (mapSet m d k v) d a = if a = k then v else mapGet m d a := mapGet_mapSet_from h a

/-- A read of what was just stored, when it is not the default. -/
theorem mapGet_mapSet_same (m : List (Nat × α)) {d : α} (k : Nat) {v : α} (hv : v ≠ d) : mapGet (mapSet m d k v) d k = v := by
  induction m with
  | nil => simp [mapSet, hv, mapGet]
  | cons p t ih =>
    obtain ⟨j, u⟩ := p
    simp only [mapSet, if_neg hv]
    split
    · simp [mapGet]
    · split
      · simp [mapGet]
      · simp only [mapGet]; rw [if_neg ‹_›, if_neg ‹_›]; exact ih

end

/-! ## Bytes -/

theorem setByte_wf {m : List Host.Cell} {a : Nat} {v : Byte} (h : memWf m = true) : memWf (setByte m a v) = true := mapSet_wf h
theorem getByte_setByte {m : List Host.Cell} {a : Nat} {v : Byte} (h : memWf m = true) (b : Nat) :
    getByte (setByte m a v) b = if b = a then v else getByte m b := mapGet_mapSet h b
theorem setBytes_wf {m : List Host.Cell} {a : Nat} {bs : List Byte} (h : memWf m = true) : memWf (setBytes m a bs) = true := by
  induction bs generalizing m a with
  | nil => exact h
  | cons b rest ih => exact ih (setByte_wf h)
/-- A byte after a write of several. -/
theorem getByte_setBytes {m : List Host.Cell} {a : Nat} {bs : List Byte} (h : memWf m = true) (b : Nat) :
    getByte (setBytes m a bs) b = if a ≤ b ∧ b < a + bs.length then bs.getD (b - a) memDefault else getByte m b := by
  induction bs generalizing m a with
  | nil => rw [if_neg (by simp)]; rfl
  | cons c rest ih =>
    rw [setBytes, ih (setByte_wf h), getByte_setByte h, List.length_cons]
    by_cases h1 : a + 1 ≤ b ∧ b < a + 1 + rest.length
    · rw [if_pos h1, if_pos (by omega), show b - a = (b - (a + 1)) + 1 by omega, List.getD_cons_succ]
    · rw [if_neg h1]
      by_cases h2 : b = a
      · rw [if_pos h2, if_pos (by omega), h2, Nat.sub_self, List.getD_cons_zero]
      · rw [if_neg h2, if_neg (by omega)]

end Sys2Proof.Machine
end

