-- ==== Sys2Proof/Tests/Slice0.lean ====
section
/-! SUPPORT. Tests/Slice0.lean: the checks of WellFormed refused one by one, words decoded as the spec encodes them, single steps, and for every
obligation with hypotheses a state and operands that meet them. -/

open Sys2Proof Sys2Proof.Machine

namespace Sys2Proof.Tests

-- One theorem after the other: each kernel check takes a thread of its own otherwise.
set_option Elab.async false

/-! ## What WellFormed refuses: each pair is an admitted term and one a single check refuses -/

def G : Guard := ⟨7, 0, false⟩
def refuses (ps : List (Instr × Instr)) : Bool := ps.all (fun p => p.1.wellFormed && !p.2.wellFormed)

/-- Guard.ok: PATH 5 and 6, and predicates above 63. -/
theorem test_wf_guard : refuses [(.add ⟨4, 63, true⟩ ⟨1, 2, 3, 0, 0⟩, .add ⟨5, 63, true⟩ ⟨1, 2, 3, 0, 0⟩),
    (.add ⟨7, 63, true⟩ ⟨1, 2, 3, 0, 0⟩, .add ⟨6, 63, true⟩ ⟨1, 2, 3, 0, 0⟩),
    (.add ⟨0, 63, true⟩ ⟨1, 2, 3, 0, 0⟩, .add ⟨0, 64, true⟩ ⟨1, 2, 3, 0, 0⟩)] = true := by decide

/-- A field too wide for its bits, in each format. -/
theorem test_wf_fits : refuses [(.add G ⟨63, 2, 3, 0, 0⟩, .add G ⟨64, 2, 3, 0, 0⟩), (.addi G ⟨1, 2, 67108863⟩, .addi G ⟨1, 2, 67108864⟩),
    (.li G ⟨1, 4294967295⟩, .li G ⟨1, 4294967296⟩), (.pmov G ⟨63, 0, 0, 0, 0⟩, .pmov G ⟨64, 0, 0, 0, 0⟩),
    (.csetb G ⟨15, 2, 3, 4, 0⟩, .csetb G ⟨16, 2, 3, 4, 0⟩), (.movsp G ⟨63, 4⟩, .movsp G ⟨64, 4⟩),
    (.vadd G false ⟨2, 1, 0, 0, 0, 1, 2, 255⟩, .vadd G false ⟨2, 1, 0, 0, 0, 1, 2, 256⟩),
    (.vfma G false ⟨2, 3, 0, 1, 2, 3, 4⟩, .vfma G false ⟨2, 4, 0, 1, 2, 3, 4⟩),
    (.vcvt G false ⟨2, 1, 0, 0, 0, 0, 0, 1, 255⟩, .vcvt G false ⟨2, 1, 0, 0, 0, 0, 0, 1, 256⟩),
    (.vbcast G false ⟨2, 1, 1, 255, 0⟩, .vbcast G false ⟨2, 1, 1, 256, 0⟩), (.vmor G false ⟨2, 15, 1, 2, 0, 0⟩, .vmor G false ⟨2, 16, 1, 2, 0, 0⟩),
    (.qadv G false ⟨63, 1⟩, .qadv G false ⟨64, 1⟩), (.mma G ⟨15, 1, 2, 3, 0, 0, 2, 0⟩, .mma G ⟨16, 1, 2, 3, 0, 0, 2, 0⟩),
    (.mwld G ⟨1, 63, 0, 2, 0⟩, .mwld G ⟨1, 64, 0, 2, 0⟩), (.mtrn G ⟨1, 15, 0, 0, 1, 0⟩, .mtrn G ⟨1, 16, 0, 0, 1, 0⟩),
    (.mcfg G ⟨63, 2⟩, .mcfg G ⟨64, 2⟩), (.lds G ⟨1, 15, 2, 3, 0, 3, 4⟩, .lds G ⟨1, 16, 2, 3, 0, 3, 4⟩),
    (.atom G ⟨2, 15, 3, 4, 0⟩, .atom G ⟨2, 16, 3, 4, 0⟩), (.sparm G ⟨7, 4, 1, 0⟩, .sparm G ⟨8, 4, 1, 0⟩),
    (.fscq G ⟨0, 63, 1⟩, .fscq G ⟨0, 64, 1⟩), (.cpy G ⟨15, 0, 0, 1, 2, 0⟩, .cpy G ⟨16, 0, 0, 1, 2, 0⟩),
    (.call G ⟨1, 4294967295⟩, .call G ⟨1, 4294967296⟩), (.ret G ⟨63, 0, 0, 0⟩, .ret G ⟨64, 0, 0, 0⟩)] = true := by decide

/-- 07: RM and FN of three operands, shift counts, unary forms, widths, SEL, floating types, conversions, comparisons, capabilities. -/
theorem test_wf_scalar : refuses [(.add G ⟨1, 2, 3, 0, 0⟩, .add G ⟨1, 2, 3, 1, 0⟩), (.shlImm G ⟨1, 2, 0, 0, 127⟩, .shlImm G ⟨1, 2, 0, 0, 63⟩),
    (.clz G ⟨1, 2, 0, 0, 0⟩, .clz G ⟨1, 2, 3, 0, 0⟩), (.sext G ⟨1, 2, 0, 0, 63⟩, .sext G ⟨1, 2, 0, 0, 64⟩),
    (.sel G ⟨1, 2, 3, 0, 127⟩, .sel G ⟨1, 2, 3, 0, 128⟩), (.sfadd G ⟨1, 2, 3, 3, 1⟩, .sfadd G ⟨1, 2, 3, 3, 2⟩),
    (.sfma G ⟨1, 2, 3, 3, 2048 * 63 + 1⟩, .sfma G ⟨1, 2, 3, 3, 16⟩), (.sfcvt G ⟨1, 2, 0, 4, 16⟩, .sfcvt G ⟨1, 2, 0, 4, 1⟩),
    (.sfcvt G ⟨1, 2, 0, 0, 6 + 16⟩, .sfcvt G ⟨1, 2, 0, 0, 6 + 16 * 7⟩), (.cmpReg G ⟨1, 2, 3, 9, 0⟩, .cmpReg G ⟨1, 2, 3, 10, 0⟩),
    (.cmpImm G ⟨1, 2, 0, 9, 36863⟩, .cmpImm G ⟨1, 2, 0, 9, 32767⟩), (.tstbReg G ⟨1, 2, 3, 0, 0⟩, .tstbReg G ⟨1, 2, 3, 1, 0⟩),
    (.tstbImm G ⟨1, 2, 0, 0, 127⟩, .tstbImm G ⟨1, 2, 0, 0, 128⟩), (.pand G ⟨1, 2, 3, 0, 3⟩, .pand G ⟨1, 2, 3, 0, 4⟩),
    (.pnot G ⟨1, 2, 0, 0, 1⟩, .pnot G ⟨1, 2, 0, 0, 2⟩), (.sfcmp G ⟨1, 2, 3, 11, 1⟩, .sfcmp G ⟨1, 2, 3, 8, 1⟩),
    (.cderive G ⟨1, 2, 3, 4, 0⟩, .cderive G ⟨1, 2, 3, 4, 1⟩), (.crights G ⟨1, 2, 0, 0, 255⟩, .crights G ⟨1, 2, 0, 0, 256⟩),
    (.cget G ⟨0, 2, 3, 0, 5⟩, .cget G ⟨0, 2, 3, 0, 6⟩), (.ctest G ⟨0, 2, 3, 4, 4096 + 255⟩, .ctest G ⟨0, 2, 3, 4, 256⟩),
    (.movsp G ⟨1, 5⟩, .movsp G ⟨1, 6⟩), (.movts G ⟨1, 10⟩, .movts G ⟨1, 9⟩), (.qcfgWrite G ⟨1, 127⟩, .qcfgWrite G ⟨1, 128⟩),
    (.syncpartWrite G ⟨1, 22⟩, .syncpartWrite G ⟨1, 21⟩), (.feclrWrite G ⟨1, 9⟩, .feclrWrite G ⟨1, 8⟩),
    (.srseedWrite G ⟨1, 11⟩, .srseedWrite G ⟨1, 10⟩)] = true := by decide

/-- 08: widths, types, rounding, masks, selectors, ring depths, immediates. -/
theorem test_wf_vector : refuses [(.vadd G false ⟨2, 13, 3, 1, 16, 71, 151, 192⟩, .vadd G false ⟨3, 13, 3, 1, 16, 71, 151, 192⟩),
    (.vadd G true ⟨2, 1, 0, 0, 0, 1, 151, 3⟩, .vadd G true ⟨2, 1, 0, 0, 0, 1, 152, 3⟩),
    (.vadd G false ⟨2, 1, 0, 1, 16, 1, 2, 3⟩, .vadd G false ⟨2, 1, 0, 1, 0, 1, 2, 3⟩),
    (.vadd G false ⟨2, 4, 0, 0, 0, 127, 2, 3⟩, .vadd G false ⟨2, 4, 1, 0, 0, 127, 2, 3⟩),
    (.vsub G false ⟨2, 1, 0, 0, 0, 71, 2, 3⟩, .vsub G false ⟨2, 1, 0, 0, 0, 72, 2, 3⟩),
    (.vmul G false ⟨2, 11, 0, 0, 0, 1, 2, 3⟩, .vmul G false ⟨2, 12, 0, 0, 0, 1, 2, 3⟩),
    (.vmin G false ⟨2, 0, 0, 0, 0, 1, 2, 3⟩, .vmin G false ⟨2, 0, 1, 0, 0, 1, 2, 3⟩),
    (.vabs G false ⟨2, 0, 0, 0, 0, 1, 2, 0⟩, .vabs G false ⟨2, 0, 0, 0, 0, 1, 2, 3⟩),
    (.vshl G false ⟨2, 4, 0, 0, 0, 1, 2, 3⟩, .vshl G false ⟨2, 3, 0, 0, 0, 1, 2, 3⟩),
    (.vrnd G false ⟨2, 3, 3, 0, 0, 1, 2, 0⟩, .vrnd G false ⟨2, 4, 0, 0, 0, 1, 2, 0⟩),
    (.vscl G false ⟨2, 3, 3, 0, 0, 1, 2, 3⟩, .vscl G false ⟨2, 3, 4, 0, 0, 1, 2, 3⟩),
    (.vcmp G false ⟨2, 1, 5, 1, 0, 15, 2, 3⟩, .vcmp G false ⟨2, 1, 4, 1, 0, 15, 2, 3⟩),
    (.vrcp G ⟨2, 0, 3, 0, 0, 1, 2, 0⟩, .vrcp G ⟨2, 4, 3, 0, 0, 1, 2, 0⟩),
    (.vexp2 G ⟨2, 1, 3, 0, 0, 1, 2, 0⟩, .vexp2 G ⟨2, 0, 3, 0, 0, 1, 2, 0⟩),
    (.vsum G false ⟨2, 11, 0, 0, 16, 1, 2, 0⟩, .vsum G false ⟨2, 9, 0, 0, 16, 1, 2, 0⟩),
    (.vmaxr G false ⟨2, 11, 0, 0, 16, 1, 2, 0⟩, .vmaxr G false ⟨2, 11, 0, 1, 16, 1, 2, 0⟩),
    (.vdot G false ⟨2, 7, 0, 0, 0, 1, 2, 3⟩, .vdot G false ⟨2, 8, 0, 0, 0, 1, 2, 3⟩),
    (.vcmul G false ⟨2, 13, 3, 0, 0, 1, 2, 3⟩, .vcmul G false ⟨2, 11, 0, 0, 0, 1, 2, 3⟩),
    (.vconj G false ⟨2, 12, 0, 0, 0, 1, 2, 0⟩, .vconj G false ⟨2, 12, 1, 0, 0, 1, 2, 0⟩),
    (.vperm G ⟨2, 13, 0, 0, 0, 1, 2, 3⟩, .vperm G ⟨2, 14, 0, 0, 0, 1, 2, 3⟩),
    (.vsel G false ⟨2, 13, 0, 0, 16, 1, 2, 3⟩, .vsel G false ⟨2, 13, 0, 0, 0, 1, 2, 3⟩),
    (.vmov G false ⟨2, 13, 0, 0, 16, 1, 2, 3⟩, .vmov G false ⟨2, 13, 0, 0, 0, 1, 2, 3⟩),
    (.vfma G false ⟨2, 0, 3, 1, 2, 3, 151⟩, .vfma G false ⟨2, 0, 3, 1, 2, 3, 160⟩),
    (.vfms G false ⟨2, 0, 3, 1, 2, 3, 4⟩, .vfms G false ⟨2, 0, 4, 1, 2, 3, 4⟩),
    (.vcma G false ⟨2, 1, 3, 1, 2, 3, 4⟩, .vcma G false ⟨2, 2, 3, 1, 2, 3, 4⟩),
    (.vimad G false ⟨2, 1, 0, 1, 2, 3, 4⟩, .vimad G false ⟨2, 1, 1, 1, 2, 3, 4⟩),
    (.vcvt G false ⟨2, 1, 2, 4, 0, 1, 16, 1, 2⟩, .vcvt G false ⟨2, 2, 1, 4, 0, 1, 16, 1, 2⟩),
    (.vcvt G false ⟨2, 1, 2, 0, 0, 1, 16, 1, 2⟩, .vcvt G false ⟨2, 1, 2, 0, 0, 0, 16, 1, 2⟩),
    (.vsat G false ⟨2, 4, 5, 0, 0, 0, 0, 1, 2⟩, .vsat G false ⟨2, 4, 1, 0, 0, 0, 0, 1, 2⟩),
    (.vpack G ⟨2, 1, 18, 4, 0, 0, 0, 1, 2⟩, .vpack G ⟨1, 1, 18, 4, 0, 0, 0, 1, 2⟩),
    (.vunpk G ⟨1, 18, 2, 3, 0, 0, 0, 1, 2⟩, .vunpk G ⟨1, 18, 2, 4, 0, 0, 0, 1, 2⟩),
    (.vshuf G ⟨2, 1, 1, 2, 8192 + 31⟩, .vshuf G ⟨2, 1, 1, 2, 8192 + 32⟩),
    (.vbcast G false ⟨2, 1, 1, 2, 31⟩, .vbcast G false ⟨2, 1, 1, 2, 32⟩),
    (.vmset G false ⟨2, 1, 0, 0, 3, 3⟩, .vmset G false ⟨2, 1, 0, 0, 3, 4⟩), (.vmand G false ⟨2, 1, 2, 3, 0, 0⟩, .vmand G false ⟨2, 1, 2, 3, 1, 0⟩),
    (.vmnot G false ⟨2, 1, 2, 0, 0, 0⟩, .vmnot G false ⟨2, 1, 2, 1, 0, 0⟩), (.vmcnt G false ⟨2, 0, 2, 0, 1, 3⟩, .vmcnt G false ⟨2, 1, 2, 0, 1, 3⟩),
    (.qadv G false ⟨1, 1023⟩, .qadv G false ⟨1, 0⟩)] = true := by decide

/-- 09: formats, partners, stages, tile operations, the wait and the configuration. -/
theorem test_wf_matrix : refuses [(.mma G ⟨1, 2, 3, 4, 0, 0, 15, 1⟩, .mma G ⟨1, 2, 3, 4, 0, 0, 13, 1⟩),
    (.mma G ⟨1, 2, 3, 4, 0, 0, 12, 0⟩, .mma G ⟨1, 2, 3, 4, 0, 0, 12, 1⟩), (.mmaz G ⟨1, 2, 3, 4, 5, 1, 2, 0⟩, .mmaz G ⟨1, 2, 3, 4, 5, 0, 2, 0⟩),
    (.mmas G ⟨1, 2, 3, 4, 0, 0, 8, 0⟩, .mmas G ⟨1, 2, 3, 4, 0, 0, 12, 0⟩), (.mwld G ⟨1, 2, 0, 2, 1⟩, .mwld G ⟨2, 2, 0, 2, 1⟩),
    (.mwpf G ⟨1, 2, 0, 12, 0⟩, .mwpf G ⟨1, 2, 0, 12, 1⟩), (.mtrn G ⟨1, 2, 0, 0, 6, 0⟩, .mtrn G ⟨1, 2, 0, 0, 2, 0⟩),
    (.macc G ⟨1, 2, 0, 3, 1, 0⟩, .macc G ⟨1, 2, 0, 3, 6, 0⟩), (.mred G ⟨1, 2, 3, 0, 6, 1⟩, .mred G ⟨1, 2, 3, 1, 6, 0⟩),
    (.mzero G ⟨1, 0, 0, 0, 1, 0⟩, .mzero G ⟨1, 2, 0, 0, 1, 0⟩), (.mcvt G ⟨1, 2, 0, 4, 2, 1⟩, .mcvt G ⟨1, 2, 0, 4, 4, 1⟩),
    (.mwait G ⟨0, 0, 0, 0, 0, 65535⟩, .mwait G ⟨0, 0, 0, 0, 0, 65536⟩), (.mcfg G ⟨1, 2⟩, .mcfg G ⟨1, 3⟩),
    (.mnest G ⟨1, 15⟩, .mnest G ⟨1, 13⟩)] = true := by decide

/-- 11 and 12: sizes, destinations, reserved fields. -/
theorem test_wf_memory : refuses [(.lds G ⟨63, 1, 2, 3, 0, 3, 4⟩, .lds G ⟨63, 1, 2, 3, 0, 4, 4⟩), (.ldv G ⟨63, 1, 2, 3, 0, 6, 4⟩, .ldv G ⟨63, 1, 2, 3, 0, 7, 4⟩),
    (.ldb G ⟨1, 4, 2, 3, 0, 6, 4⟩, .ldb G ⟨1, 5, 2, 3, 0, 6, 4⟩), (.ldx G ⟨15, 1, 2, 3, 0, 0, 4⟩, .ldx G ⟨16, 1, 2, 3, 0, 0, 4⟩),
    (.ldf G ⟨1, 1, 2, 3, 0, 6, 1⟩, .ldf G ⟨1, 1, 2, 3, 0, 6, 0⟩), (.pref G ⟨0, 1, 2, 0, 0, 0, 4⟩, .pref G ⟨0, 1, 2, 1, 0, 0, 4⟩),
    (.sts G ⟨63, 1, 2, 3, 0, 3, 4⟩, .sts G ⟨64, 1, 2, 3, 0, 3, 4⟩), (.stv G ⟨151, 1, 2, 3, 0, 4, 4⟩, .stv G ⟨160, 1, 2, 3, 0, 4, 4⟩),
    (.stb G ⟨255, 12, 2, 3, 0, 6, 4⟩, .stb G ⟨255, 12, 2, 3, 0, 3, 4⟩), (.stx G ⟨15, 1, 2, 3, 0, 0, 4⟩, .stx G ⟨15, 1, 2, 3, 1, 0, 4⟩),
    (.ldr G ⟨63, 1, 2, 3, 1⟩, .ldr G ⟨63, 1, 2, 3, 0⟩), (.ldrw G ⟨63, 1, 2, 3, 0⟩, .ldrw G ⟨63, 1, 2, 3, 1⟩),
    (.str G ⟨255, 1, 2, 3, 16384⟩, .str G ⟨255, 1, 2, 3, 12288⟩), (.atom G ⟨2, 1, 2, 3, 10 + 5 * 128⟩, .atom G ⟨2, 1, 2, 3, 11⟩),
    (.atom G ⟨2, 1, 2, 3, 9⟩, .atom G ⟨3, 1, 2, 3, 9⟩), (.atomr G ⟨127, 1, 2, 3, 64⟩, .atomr G ⟨127, 1, 2, 3, 32⟩),
    (.sparm G ⟨1, 12, 2, 8⟩, .sparm G ⟨1, 12, 2, 12⟩), (.spstop G ⟨1, 0, 0, 0⟩, .spstop G ⟨1, 0, 1, 0⟩),
    (.rngwait G ⟨1, 2, 4095⟩, .rngwait G ⟨1, 2, 4096⟩), (.rngwaitProd G ⟨1, 2, 4096⟩, .rngwaitProd G ⟨1, 2, 8192⟩),
    (.rngadv G ⟨1, 0, 16777216⟩, .rngadv G ⟨1, 2, 16777216⟩), (.fscq G ⟨0, 1, 63⟩, .fscq G ⟨1, 1, 63⟩), (.fscqReg G ⟨2, 1, 64⟩, .fscqReg G ⟨2, 1, 65⟩),
    (.fscqWait G ⟨0, 1, 128 + 256⟩, .fscqWait G ⟨0, 1, 128⟩), (.fence G ⟨0, 0, 5 * 65536⟩, .fence G ⟨0, 0, 6 * 65536⟩),
    (.fencef G ⟨1, 2, 1048575⟩, .fencef G ⟨1, 2, 1048576⟩), (.arrexp G ⟨1, 2, 4194304⟩, .arrexp G ⟨1, 2, 1⟩),
    (.arrive G ⟨1, 2, 5 * 524288⟩, .arrive G ⟨1, 2, 6 * 524288⟩), (.arriveWait G ⟨1, 2, 262144⟩, .arriveWait G ⟨1, 2, 0⟩)] = true := by decide

/-- 09, 12, 16: engine commands. -/
theorem test_wf_engine : refuses [(.cpy G ⟨1, 2, 3, 4, 5, 0⟩, .cpy G ⟨1, 2, 3, 4, 5, 1⟩), (.cpyrGet G ⟨1, 2, 3, 4, 5, 0⟩, .cpyrGet G ⟨1, 2, 3, 4, 5, 1⟩),
    (.cpyrPut G ⟨1, 2, 3, 4, 5, 1⟩, .cpyrPut G ⟨1, 2, 3, 4, 5, 0⟩), (.unsub G ⟨1, 2, 12, 4, 0, 0⟩, .unsub G ⟨1, 2, 13, 4, 0, 0⟩),
    (.sfe G ⟨1, 2, 0, 4, 5, 7 + 2 * 16 + 2 * 64⟩, .sfe G ⟨1, 2, 0, 4, 5, 8⟩), (.coll G ⟨1, 2, 3, 4, 0, 0⟩, .coll G ⟨1, 2, 3, 4, 5, 0⟩),
    (.send G ⟨1, 2, 0, 4, 5, 0⟩, .send G ⟨1, 2, 3, 4, 5, 0⟩), (.ckmark G ⟨1, 2, 0, 4, 0, 0⟩, .ckmark G ⟨1, 2, 0, 4, 5, 0⟩),
    (.subsLd G ⟨1, 2, 3, 4, 5, 0⟩, .subsLd G ⟨1, 2, 3, 4, 5, 1⟩), (.subsSt G ⟨1, 2, 3, 4, 5, 1⟩, .subsSt G ⟨1, 2, 3, 4, 5, 0⟩),
    (.gqpush G ⟨1, 2, 3, 4, 5, 0⟩, .gqpush G ⟨1, 2, 3, 4, 5, 1⟩)] = true := by decide

/-- 05, 07, 12, 17: control, synchronisation, tasks and worlds. -/
theorem test_wf_control : refuses [(.ret G ⟨1, 0, 0, 0⟩, .ret G ⟨1, 2, 0, 0⟩), (.jmpi G ⟨1, 0, 0, 9⟩, .jmpi G ⟨1, 2, 0, 9⟩),
    (.loopReg G ⟨1, 0, 0, 255 - 2⟩, .loopReg G ⟨1, 0, 0, 6⟩), (.loopImm G ⟨0, 0, 0, 256 + 5⟩, .loopImm G ⟨0, 0, 0, 5⟩),
    (.brt 1 127 0 0 0 1 0 0 0, .brt 1 127 1 0 0 1 0 0 0), (.brt 6 1 2 3 4 1 2 3 4, .brt 7 1 2 3 4 1 2 3 4), (.brt 2 1 2 0 0 1 8191 0 0, .brt 2 1 2 0 0 1 8192 0 0),
    (.hint 6 15 1, .hint 6 16 1), (.sync 65535, .sync 65536), (.waitsImm G ⟨0, 0, 0, 32⟩, .waitsImm G ⟨0, 0, 0, 31⟩),
    (.waitsReg G ⟨1, 0, 0, 31⟩, .waitsReg G ⟨1, 0, 0, 32⟩), (.tspawn G ⟨1, 2, 47, 0⟩, .tspawn G ⟨1, 2, 48, 0⟩), (.tjoin G ⟨1, 0, 0, 0⟩, .tjoin G ⟨1, 2, 0, 0⟩),
    (.tsealImm G ⟨1, 2, 0, 65535⟩, .tsealImm G ⟨1, 2, 0, 65536⟩), (.tsealReg G ⟨1, 2, 0, 65599⟩, .tsealReg G ⟨1, 2, 0, 65600⟩),
    (.tcancelImm G ⟨0, 0, 0, 262143⟩, .tcancelImm G ⟨0, 0, 0, 262144⟩), (.tcancelReg G ⟨1, 0, 0, 262144⟩, .tcancelReg G ⟨1, 0, 0, 262145⟩),
    (.tprioImm G ⟨0, 0, 0, 23⟩, .tprioImm G ⟨0, 0, 0, 24⟩), (.tprioReg G ⟨1, 0, 0, 32⟩, .tprioReg G ⟨1, 0, 0, 31⟩),
    (.tlvrecImm G ⟨0, 2, 0, 0⟩, .tlvrecImm G ⟨1, 2, 0, 0⟩), (.tlvrecReg G ⟨1, 2, 0, 262144⟩, .tlvrecReg G ⟨1, 2, 0, 0⟩),
    (.wfork G ⟨1, 0, 0, 2⟩, .wfork G ⟨1, 0, 0, 3⟩), (.wchooseImm G ⟨1, 0, 0, 4⟩, .wchooseImm G ⟨1, 0, 0, 5⟩), (.wchooseReg G ⟨1, 2, 0, 8⟩, .wchooseReg G ⟨1, 2, 0, 9⟩),
    (.wdone G ⟨1, 0, 0, 0⟩, .wdone G ⟨1, 0, 0, 1⟩), (.wdiscard G ⟨0, 0, 0, 0⟩, .wdiscard G ⟨1, 0, 0, 0⟩), (.wtagQuery G ⟨1, 2, 0, 12⟩, .wtagQuery G ⟨1, 2, 0, 13⟩),
    (.trap G ⟨0, 0, 0, 4095⟩, .trap G ⟨0, 0, 0, 4096⟩), (.ctxsave G ⟨1, 0, 0, 8⟩, .ctxsave G ⟨1, 0, 0, 9⟩), (.restore G ⟨1, 0, 0, 16⟩, .restore G ⟨1, 0, 0, 17⟩),
    (.otinv G ⟨1, 2, 0, 0⟩, .otinv G ⟨1, 2, 1, 0⟩), (.ertq G ⟨1, 2, 0, 0⟩, .ertq G ⟨1, 2, 0, 1⟩)] = true := by decide

/-- 16 and 01: registers of the Shuttle, and numbers of units the module has. -/
theorem test_wf_rest : refuses [(.rrput 31 31 31, .rrput 32 31 31), (.gqpop 1 31, .gqpop 1 32), (.stretchEndChoice 639, .stretchEndChoice 640),
    (.dispatch 7, .dispatch 8), (.shadowWriteLand 0 7, .shadowWriteLand 0 8)] = true := by decide

/-! ## States for single steps and for the witnesses -/

/-- The premise `Ready` as a test, and what the test says. -/
def readyB (s : State) (i : Instr) : Bool :=
  (stateFault s [i]).isNone
  && (!(marksBefore i || gateFull (settleObjects s) i || marksAfter i) || decide ((actCtx (settleObjects s)).resolved ≤ (settleObjects s).now))
  && !structural (issueState s i) (soloGroup (actCtx s).pc i) [i]
  && executes (actCtx (issueState s i)) (leafOf (actCtx (issueState s i)) [i]) i.guard
  && !brokenGuard (actCtx (issueState s i)) i && !brokenRead (actCtx (issueState s i)) i
  && (i.slot != 6 || (pendingPred (actCtx (issueState s i)) [] i.guard.pred).isNone)
theorem ready_of {s : State} {i : Instr} (h : readyB s i = true) : Ready s i := by
  simp only [readyB, Bool.and_eq_true, Option.isNone_iff_eq_none, Bool.or_eq_true, Bool.not_eq_true', decide_eq_true_eq, bne_iff_ne] at h
  obtain ⟨⟨⟨⟨⟨⟨h1, h2⟩, h3⟩, h4⟩, h6⟩, h7⟩, h5⟩ := h
  exact ⟨h1, fun hm => h2.resolve_left (by simp [hm]), h3, h4, h6, h7, fun hs => h5.resolve_left (not_not_intro hs)⟩
/-- Every instruction of a list is ready and finds its scalars clean. -/
theorem all_clean {s : State} {ns : List Nat} {l : List Instr}
    (h : l.all (fun i => readyB s i && ns.all (fun n => sMarkOf (began s i).ctx n == .clean)) = true) :
    ∀ i ∈ l, Ready s i ∧ Clean ns (began s i) := by
  intro i hi
  have := List.all_eq_true.mp h i hi
  simp only [Bool.and_eq_true, List.all_eq_true, beq_iff_eq] at this
  exact ⟨ready_of this.1, this.2⟩

/-- A context that holds issue, bound to record 0 of die 0, in handler mode; s1 = 5, s2 = 3, s3 the most negative word, s4 = 64, s10 = 64. -/
def C0 : Ctx := { Ctx.init with
  status := .bound, toRun := true, pc := 4096, task := some (0, 0), sp := { Special.init with hmode := true }
  regs := { Regs.init with s := [(1, 5#64), (2, 3#64), (3, 0x8000000000000000#64), (4, 64#64), (10, 64#64)], p := [(1, true)] } }
def K0 : Core := { Core.init 0 with holder := some 0 }
/-- A job with every feature, its object table in block 1. -/
def J0 : Job := { Job.init with running := true, features := 255, otbase := 65536, nobj := 4, cksz := 16 }
def st (c : Ctx) (k : Core) : State :=
  setCore (setCtx { State.reset with jobs := [(0, J0)], ga := { Garod.init with boot := 3 } } 0 0 c) 0 k
def S0 : State := st C0 K0

/-- One queue of each class with a row, an armed read port and two ring entries. -/
def C1 : Ctx := { C0 with
  qcfg := [(0, ⟨0, 4, 1⟩), (1, ⟨128, 4, 1⟩), (2, ⟨256, 4, 2⟩)]
  regs := { C0.regs with
    q := [(0, ⟨0, 2⟩), (1, ⟨3, 1⟩), (2, ⟨0, 1⟩)], ka := [⟨7#1024, .clean⟩, Row.zero], kb := [⟨8#1024, .clean⟩], e := [(1, 3#128)]
    ports := [(0, { Port.init with armed := true, cnts := [1], strs := [32], got := [⟨9#1024, .clean⟩] })] } }
def K1 : Core := { K0 with vrf := { K0.vrf with owner := [(0, 1), (1, 1), (2, 1)], rows := [(0, ⟨0x3F800000#1024, .clean⟩), (1, ⟨0x40000000#1024, .clean⟩),
  (131, ⟨0x40400000#1024, .clean⟩), (256, ⟨5#1024, .clean⟩)] } }
def S1 : State := st C1 K1

/-! ### Scalar and vector results -/

def intForms (f : SX) : List Instr := [.add G f, .sub G f, .mul G f, .mulh G f, .mulhu G f, .and G f, .or G f, .xor G f, .andn G f, .shlReg G f,
  .shrReg G f, .sraReg G f, .rotReg G f, .shlImm G f, .shrImm G f, .sraImm G f, .rotImm G f, .sext G f, .zext G f, .min G f, .max G f, .minu G f,
  .maxu G f, .sel G f, .div G f, .divu G f, .rem G f, .remu G f, .clz G f, .ctz G f, .popc G f, .bext G f, .bdep G f]
theorem witness_IntegerResults :
    (∀ i ∈ intForms ⟨63, 3, 0, 0, 63⟩ ++ [.addi G ⟨5, 1, 67108863⟩, .li G ⟨5, 4294967295⟩, .lih G ⟨1, 4294967295⟩],
      Ready S0 i ∧ Clean [3, 0, 1] (began S0 i)) := all_clean (by decide)
theorem witness_BitCounts :
    (∀ i ∈ intForms ⟨5, 0, 3, 0, 0⟩, Ready S0 i ∧ Clean [0, 3] (began S0 i))
    ∧ (0x8000000000000000#64).getLsbD 63 = true ∧ (0#64).getLsbD 63 = false
    ∧ ((List.range 64).filter (fun i => (BitVec.allOnes 64).getLsbD i)).length ≤ 64 := ⟨all_clean (by decide), by decide, by decide, by decide⟩
theorem witness_PredicateResults :
    ∀ i ∈ [Instr.cmpReg G ⟨63, 1, 0, 9, 0⟩, .cmpImm G ⟨1, 1, 0, 0, 4095⟩, .tstbReg G ⟨2, 1, 0, 0, 0⟩, .tstbImm G ⟨2, 1, 0, 0, 127⟩, .pand G ⟨2, 1, 0, 0, 3⟩,
      .por G ⟨2, 1, 0, 0, 3⟩, .pxor G ⟨2, 1, 0, 0, 3⟩, .pnot G ⟨2, 1, 0, 0, 1⟩, .pmov G ⟨2, 1, 0, 0, 1⟩, .sfcmp G ⟨2, 1, 0, 11, 1⟩],
      Ready S0 i ∧ Clean [1, 0] (began S0 i) := all_clean (by decide)
theorem witness_ScalarFloatResults :
    (∀ i ∈ [Instr.sfadd G ⟨5, 1, 2, 3, 1⟩, .sfmul G ⟨5, 1, 2, 0, 0⟩, .sfma G ⟨5, 1, 2, 0, 2048 * 3 + 1⟩, .sfcvt G ⟨5, 1, 0, 4, 1 + 16 * 2⟩,
      .sfcvt G ⟨5, 1, 0, 0, 1 + 16 * 6⟩, .sfcvt G ⟨5, 1, 0, 0, 7 + 16 * 0⟩], Ready S0 i ∧ Clean [1, 2, 3] (began S0 i))
    ∧ isFloatT 1 = true ∧ isFloatT 2 = true ∧ isFloatT 6 = false ∧ isFloatT 7 = false := ⟨all_clean (by decide), by decide⟩
theorem witness_CapabilityResults :
    ∀ i ∈ [Instr.cderive G ⟨15, 1, 1, 2, 0⟩, .csetb G ⟨15, 1, 1, 2, 0⟩, .crights G ⟨15, 1, 0, 0, 255⟩, .cget G ⟨0, 1, 5, 0, 5⟩, .ctest G ⟨0, 1, 1, 2, 4096 + 255⟩],
      Ready S0 i ∧ Clean [1, 2] (began S0 i) := all_clean (by decide)
theorem witness_SpecialReads :
    (∀ n ∈ [0, 5, 0x14, 0x15, 0x16, 0x80, 0xBF], Ready S0 (.movsp G ⟨5, n⟩))
    ∧ (actCtx (setAct S0 { C0 with sp := { C0.sp with felog := some ⟨1, 4096, 2⟩ } })).sp.felog = some ⟨1, 4096, 2⟩ ∧ (actCtx S0).sp.felog = none :=
  ⟨fun n hn => (all_clean (ns := []) (l := [0, 5, 0x14, 0x15, 0x16, 0x80, 0xBF].map (fun n => .movsp G ⟨5, n⟩)) (by decide) _
    (List.mem_map_of_mem hn)).1, by decide, by decide⟩
theorem witness_SpecialWrites :
    (∀ i ∈ [Instr.movts G ⟨1, 0⟩, .movts G ⟨1, 1⟩, .movts G ⟨1, 2⟩, .movts G ⟨1, 3⟩, .movts G ⟨1, 10⟩, .movts G ⟨1, 4⟩, .movts G ⟨1, 5⟩, .movts G ⟨1, 0x13⟩,
      .syncpartWrite G ⟨1, 0x16⟩, .feclrWrite G ⟨1, 9⟩, .srseedWrite G ⟨1, 11⟩], Ready S0 i ∧ Clean [1] (began S0 i))
    ∧ (let j := began (setAct S0 { C0 with regs := { C0.regs with s := [(1, 6143#64 + 0x4010000#64)] } }) (.qcfgWrite G ⟨1, 0x7F⟩)
      Ready (setAct S0 { C0 with regs := { C0.regs with s := [(1, 6143#64 + 0x4010000#64)] } }) (.qcfgWrite G ⟨1, 0x7F⟩)
      ∧ sMarkOf j.ctx 1 = .clean ∧ queueTargeted j.ctx 63 = false ∧ banksOf (qcfgWord (readS j.ctx 1).toNat) = [47]
      ∧ ∀ b ∈ banksOf (qcfgWord (readS j.ctx 1).toNat), bankFree j.core.vrf j.st.cx b = true) :=
  ⟨all_clean (by decide), ready_of (by decide), by decide⟩

/-- The sources of an instruction can be read, from a state in which nothing has been consumed. -/
def rowsB (s : State) (i : Instr) (b n : Nat) (sels : List Nat) : Bool :=
  readyB s i && (match (began s i).sources b n sels [] with
    | .ok (j, _) => j.corrupt.isNone && j.late.isNone && j.port.isNone && j.wait.isNone
    | .error _ => false)
/-- Then, with the ring alone as destination, the premise of `GivesRow` is met whatever the result. -/
theorem gives_row {s : State} {i : Instr} {b n : Nat} {sels : List Nat} (h : rowsB s i b n sels = true) (lat eb : Nat)
    (res : Ctx → (Nat → BitVec 1024) → List FRes) :
    Ready s i ∧ ∃ k, (∃ j' rows, (began s i).sources b n sels [] = .ok (j', rows)
      ∧ j'.vectorOut 127 lat eb (res (began s i).ctx (rowBits rows)) rows = .ok k) ∧ k.Sound := by
  simp only [rowsB, Bool.and_eq_true] at h
  refine ⟨ready_of h.1, ?_⟩
  have h2 := h.2
  split at h2
  · rename_i j rows hs
    simp only [Bool.and_eq_true, Option.isNone_iff_eq_none] at h2
    exact ⟨_, ⟨j, rows, hs, rfl⟩, h2.1.1.1, h2.1.1.2, h2.1.2, h2.2⟩
  · cases h2
theorem all_rows {s : State} {l : List (Instr × Nat × Nat × List Nat)} (h : l.all (fun p => rowsB s p.1 p.2.1 p.2.2.1 p.2.2.2) = true) :
    ∀ p ∈ l, ∀ (lat eb : Nat) (res : Ctx → (Nat → BitVec 1024) → List FRes), Ready s p.1 ∧ ∃ k,
      (∃ j' rows, (began s p.1).sources p.2.1 p.2.2.1 p.2.2.2 [] = .ok (j', rows)
        ∧ j'.vectorOut 127 lat eb (res (began s p.1).ctx (rowBits rows)) rows = .ok k) ∧ k.Sound :=
  fun p hp => gives_row (List.all_eq_true.mp h p hp)

/-- The element size, the number of elements and the sources of a form on one source or two. -/
def one (f : VX) (i : Instr) : Instr × Nat × Nat × List Nat := (i, elemBits f.t, widthOf f.w / elemBits f.t, [f.va])
def two (f : VX) (i : Instr) : Instr × Nat × Nat × List Nat := (i, elemBits f.t, widthOf f.w / elemBits f.t, [f.va, f.vb])
def three (f : VY) (b : Nat) (i : Instr) : Instr × Nat × Nat × List Nat := (i, b, widthOf f.w / b, [f.va, f.vb, f.vc])

/-- A pop and a scalar, of signed words; a peek and a ring entry, of unsigned bytes. -/
theorem witness_VectorIntegerResults :
    let f : VX := ⟨2, 6, 0, 0, 17, 127, 0, 193⟩
    let g : VX := ⟨0, 8, 0, 0, 0, 127, 64, 136⟩
    ∀ p ∈ [two f (.vadd G false f), two f (.vsub G false f), two f (.vmul G false f), two f (.vmin G false f), two g (.vmax G true g), two g (.vshl G false g),
      two g (.vshr G false g), two g (.vsra G false g), one f (.vabs G false f), one f (.vneg G false f)],
      ∀ (lat eb : Nat) (res : Ctx → (Nat → BitVec 1024) → List FRes), Ready S1 p.1 ∧ ∃ k,
        (∃ j' rows, (began S1 p.1).sources p.2.1 p.2.2.1 p.2.2.2 [] = .ok (j', rows)
          ∧ j'.vectorOut 127 lat eb (res (began S1 p.1).ctx (rowBits rows)) rows = .ok k) ∧ k.Sound := all_rows (by decide)
/-- Floating elements from a pop and a stream port, complex elements from two queues, three operands. -/
theorem witness_VectorFloatResults :
    let f : VX := ⟨0, 1, 3, 0, 0, 127, 0, 128⟩
    let c : VX := ⟨2, 13, 0, 0, 0, 127, 1, 64⟩
    let y : VY := ⟨2, 1, 0, 127, 0, 1, 193⟩
    ∀ p ∈ [two f (.vand G false f), two f (.vor G false f), two f (.vxor G false f), two f (.vadd G false f), two f (.vsub G false f), two f (.vmul G false f),
      two f (.vmin G false f), two f (.vmax G false f), two f (.vscl G false f), one f (.vabs G false f), one f (.vneg G false f), one f (.vrnd G false f),
      one f (.vrcp G f), one f (.vrsq G f), one f (.vexp2 G f), one f (.vlog2 G f),
      two c (.vadd G false c), two c (.vsub G false c), two c (.vcmul G false c), one c (.vconj G false c),
      three y 32 (.vfma G false y), three y 32 (.vfms G false y), three y 32 (.vfnma G false y), three y 32 (.vimad G false y), three y 64 (.vcma G false y)],
      ∀ (lat eb : Nat) (res : Ctx → (Nat → BitVec 1024) → List FRes), Ready S1 p.1 ∧ ∃ k,
        (∃ j' rows, (began S1 p.1).sources p.2.1 p.2.2.1 p.2.2.2 [] = .ok (j', rows)
          ∧ j'.vectorOut 127 lat eb (res (began S1 p.1).ctx (rowBits rows)) rows = .ok k) ∧ k.Sound := all_rows (by decide)

/-- What VCVT, VPACK and VUNPK ask besides: their sources, and a result to the ring alone (S1 reads the pop 0 and the broadcast s1). -/
theorem witness_VectorConversions :
    (∀ p ∈ [((.vcvt G false ⟨2, 1, 2, 4, 0, 0, 0, 127, 0⟩ : Instr), 32, 32, [0]), (.vsat G false ⟨2, 4, 5, 0, 0, 0, 0, 127, 0⟩, 8, 128, [0]),
        (.vpack G ⟨2, 1, 18, 4, 0, 0, 0, 127, 0⟩, 32, 32, [0]), (.vpack G ⟨2, 2, 20, 4, 0, 0, 0, 127, 0⟩, 16, 64, [0]),
        (.vunpk G ⟨2, 18, 1, 0, 0, 0, 0, 127, 151⟩, 8, 32, [151]), (.vunpk G ⟨2, 18, 1, 0, 0, 0, 0, 127, 192⟩, 8, 32, [192])],
      Ready S1 p.1 ∧ ∃ j' rows, (began S1 p.1).sources p.2.1 p.2.2.1 p.2.2.2 [] = .ok (j', rows)
        ∧ ∀ lat v kind, ∃ k, j'.result 127 lat v kind = .ok k ∧ (j'.Sound → k.Sound)) := by
  have key : ∀ (s : State) (l : List (Instr × Nat × Nat × List Nat)), l.all (fun p => rowsB s p.1 p.2.1 p.2.2.1 p.2.2.2) = true → ∀ p ∈ l,
      Ready s p.1 ∧ ∃ j' rows, (began s p.1).sources p.2.1 p.2.2.1 p.2.2.2 [] = .ok (j', rows)
        ∧ ∀ lat v kind, ∃ k, j'.result 127 lat v kind = .ok k ∧ (j'.Sound → k.Sound) := by
    intro s l h p hp
    obtain ⟨h1, k, ⟨j', rows, h2, -⟩, -⟩ := all_rows h p hp 0 0 (fun _ _ => [])
    exact ⟨h1, j', rows, h2, fun lat v kind => ⟨_, rfl, id⟩⟩
  exact key S1 _ (by decide)
theorem witness_VectorReductions :
    let f : VX := ⟨2, 6, 0, 0, 17, 127, 0, 193⟩
    let g : VX := ⟨0, 1, 3, 0, 0, 127, 64, 136⟩
    isFloatV f.t = false ∧ isFloatV g.t = true
    ∧ ∀ p ∈ [one f (.vsum G false f), two f (.vdot G false f), one f (.vmaxr G false f), one g (.vsum G false g), two g (.vdot G false g), one g (.vmaxr G false g)],
      ∀ (lat eb : Nat) (res : Ctx → (Nat → BitVec 1024) → List FRes), Ready S1 p.1 ∧ ∃ k,
        (∃ j' rows, (began S1 p.1).sources p.2.1 p.2.2.1 p.2.2.2 [] = .ok (j', rows)
          ∧ j'.vectorOut 127 lat eb (res (began S1 p.1).ctx (rowBits rows)) rows = .ok k) ∧ k.Sound := ⟨by decide, by decide, all_rows (by decide)⟩
theorem witness_VectorMoves :
    let f : VX := ⟨2, 6, 0, 0, 17, 127, 0, 193⟩
    let i : VI := ⟨2, 6, 127, 0, 31⟩
    ∀ p ∈ [two f (.vperm G f), two f (.vsel G false f), two f (.vmov G false f), (.vmov G false { f with z := 1, vb := 0 }, 32, 32, [0]),
      (.vshuf G i, 32, 32, [0]), (.vbcast G false i, 32, 32, [0])],
      ∀ (lat eb : Nat) (res : Ctx → (Nat → BitVec 1024) → List FRes), Ready S1 p.1 ∧ ∃ k,
        (∃ j' rows, (began S1 p.1).sources p.2.1 p.2.2.1 p.2.2.2 [] = .ok (j', rows)
          ∧ j'.vectorOut 127 lat eb (res (began S1 p.1).ctx (rowBits rows)) rows = .ok k) ∧ k.Sound := all_rows (by decide)
theorem witness_LaneMaskResults :
    (let f : VX := ⟨2, 1, 5, 1, 0, 15, 0, 1⟩
     Ready S1 (.vcmp G false f) ∧ ∃ j' rows, (began S1 (.vcmp G false f)).sources 32 32 [0, 1] [] = .ok (j', rows)
      ∧ ((j'.consumeRows [0, 1] rows).add 2 (.mask 15 0#128) none 0).Sound)
    ∧ (127 < [true].length * (1024 / 8) ∧ 0 < [false].length * (8 / 8))
    ∧ (∀ i ∈ [Instr.vmset G false ⟨2, 15, 0, 0, 1, 3⟩, .vmand G false ⟨2, 1, 2, 15, 0, 0⟩, .vmor G false ⟨0, 1, 2, 3, 0, 0⟩, .vmnot G true ⟨2, 1, 15, 0, 0, 0⟩,
      .vmcnt G false ⟨2, 0, 1, 0, 5, 0⟩, .vmfirst G false ⟨2, 0, 1, 0, 5, 3⟩], Ready S1 i ∧ Clean [1] (began S1 i))
    ∧ (Ready S1 (.qadv G false ⟨0, 2⟩) ∧ (qcfgOf (began S1 (.qadv G false ⟨0, 2⟩)).ctx 0).cls ≠ 0
      ∧ 2 ≤ (qptrOf (began S1 (.qadv G false ⟨0, 2⟩)).ctx 0).count ∧ 2 ≤ (qcfgOf (began S1 (.qadv G false ⟨0, 2⟩)).ctx 0).depth) := by
  refine ⟨?_, ?w1, all_clean (by decide), ready_of (by decide), ?w2, ?w3, ?w4⟩
  case w1 | w2 | w3 | w4 => decide +kernel
  obtain ⟨h1, k, ⟨j', rows, h2, -⟩, -⟩ := gives_row (s := S1) (i := .vcmp G false ⟨2, 1, 5, 1, 0, 15, 0, 1⟩) (b := 32) (n := 32) (sels := [0, 1]) (by decide)
    0 0 (fun _ _ => [])
  refine ⟨h1, j', rows, h2, ?_⟩
  have : ((began S1 (.vcmp G false ⟨2, 1, 5, 1, 0, 15, 0, 1⟩)).sources 32 32 [0, 1] []).toOption.all (fun p =>
      let k := (p.1.consumeRows [0, 1] p.2).add 2 (.mask 15 0#128) none 0
      k.corrupt.isNone && k.late.isNone && k.port.isNone && k.wait.isNone) = true := by decide
  rw [h2] at this
  simp only [Except.toOption, Option.all_some, Bool.and_eq_true, Option.isNone_iff_eq_none] at this
  exact ⟨this.1.1.1, this.1.1.2, this.1.2, this.2⟩

/-! ### Matrix operations -/

theorem witness_MatrixQueue :
    (∀ i ∈ [Instr.mma G ⟨15, 1, 4, 127, 0, 0, 2, 0⟩, .mmaz G ⟨0, 4, 4, 0, 1, 1, 15, 1⟩, .mmas G ⟨0, 4, 4, 0, 0, 0, 8, 0⟩],
      Ready (setAct S0 { C0 with regs := { C0.regs with s := [(1, 1015808#64), (4, 64#64)] } }) i)
    ∧ (let s := setAct S0 { C0 with regs := { C0.regs with s := [(1, 1015808#64), (4, 2056192#64)] } }
       let j := began s (.mma G ⟨15, 1, 4, 127, 0, 0, 2, 0⟩)
       (Clean [1, 4] j) ∧ 1015808 % 64 = 0 ∧ 1015808 + (127 + 1) * mxP 2 false ≤ 1048576 ∧ 2056192 + 160 * mxQ 2 false ≤ 2097152
        ∧ Owns j 1 1015808 ((127 + 1) * mxP 2 false) ∧ Owns j 0 2056192 (160 * mxQ 2 false) ∧ Owns j 2 (81920 * 15) 81920)
    ∧ (let s := setAct S0 { C0 with regs := { C0.regs with s := [(1, BitVec.ofNat 64 (2 ^ 58 + 2 ^ 52 + 15 * 2 ^ 41 + 127 * 2 ^ 45))] } }
       let j := began s (.mnest G ⟨1, 15 + 15 * 16 + 4 * 256 + 1 * 2 ^ 20⟩)
       let x := (readS j.ctx 1).toNat
       Ready s (.mnest G ⟨1, 15 + 15 * 16 + 4 * 256 + 1 * 2 ^ 20⟩) ∧ Clean [1] j ∧ (x.testBit 58 = true → Machine.sparseFmt 15 = true)
        ∧ (x.testBit 59 = true → hasPartner 15 = true) ∧ Owns j 2 (81920 * field x 41 4) 81920
        ∧ ∀ p, p < 16 → let a := field x 0 20 + 64 * p * 4
            let w := field x 20 21 + 64 * p * 1
            a % 64 = 0 ∧ w % 64 = 0 ∧ a + 128 * mxP 15 true ≤ 1048576 ∧ w + 160 * mxQ 15 true ≤ 2097152
            ∧ Owns j 1 a (128 * mxP 15 true) ∧ Owns j 0 w (160 * mxQ 15 true))
    ∧ (∀ i ∈ [Instr.mcfg G ⟨5, 2⟩, .mzero G ⟨15, 0, 0, 0, 1, 0⟩, .mtrn G ⟨1, 15, 0, 0, 6, 0⟩, .macc G ⟨1, 2, 0, 3, 1, 0⟩, .mcvt G ⟨1, 2, 0, 4, 2, 1⟩, .mred G ⟨1, 2, 1, 0, 6, 1⟩,
        .mwait G ⟨0, 0, 0, 0, 0, 65535⟩, .mwpf G ⟨1, 4, 0, 2, 0⟩, .mwld G ⟨1, 4, 0, 2, 0⟩],
        Ready S0 i ∧ Clean [1, 4] (began S0 i))
    ∧ (let j := began S0 (.mtrn G ⟨1, 15, 0, 0, 6, 0⟩)
       Owns j 2 (81920 * 1) 81920 ∧ Owns j 2 (81920 * 15) 81920 ∧ busyTiles j.core &&& 65535 = 0
       ∧ 64 % 64 = 0 ∧ 64 + 160 * mxQ 2 false ≤ 2097152 ∧ Owns j 0 64 (160 * mxQ 2 false))
    ∧ (let l : WLoad := ⟨0, 1, 64, 2, 0, true, false, true, some 0, some 0⟩
       let s := setActCore S0 { K0 with mx := { K0.mx with wl := [l] } }
       Ready s (.mwld G ⟨1, 4, 0, 2, 0⟩)
       ∧ (began s (.mwld G ⟨1, 4, 0, 2, 0⟩)).core.mx.wl.find? (fun l => l.waitFor && l.ctx == (began s (.mwld G ⟨1, 4, 0, 2, 0⟩)).st.cx && l.stage == 1 && l.w == 64
          && l.fmt == 2 && l.form == 0 % 2) = some l ∧ l.done = true) := by
  refine ⟨fun i hi => (all_clean (ns := []) (by decide) i hi).1, ?_, ?_, all_clean (by decide), ?_, ready_of (by decide), by decide, by decide⟩
  · unfold Clean Owns; decide
  · exact ⟨ready_of (by decide), by unfold Clean Owns; decide⟩
  · unfold Owns; decide

/-! ### Memory operands -/

def okB {α β : Type} (e : Except α β) (p : β → Bool) : Bool := match e with | .ok a => p a | .error _ => false
theorem okB_iff {α β : Type} {e : Except α β} {p : β → Bool} : okB e p = true ↔ ∃ a, e = .ok a ∧ p a = true := by
  unfold okB
  constructor
  · split
    · exact fun h => ⟨_, rfl, h⟩
    · exact fun h => nomatch h
  · rintro ⟨a, rfl, h⟩
    exact h
def soundB (j : Iss) : Bool := j.corrupt.isNone && j.late.isNone && j.port.isNone && j.wait.isNone
theorem sound_of {j : Iss} (h : soundB j = true) : j.Sound := by
  simp only [soundB, Bool.and_eq_true, Option.isNone_iff_eq_none] at h
  exact ⟨h.1.1.1, h.1.1.2, h.1.2, h.2⟩
/-- A place of memory. -/
def memB (p : Place) (f : List (Nat × Nat × Nat) → Bool) : Bool := match p with | .mem ps => f ps | .reg _ _ => false
theorem memB_iff {p : Place} {f : List (Nat × Nat × Nat) → Bool} : memB p f = true ↔ ∃ ps, p = .mem ps ∧ f ps = true := by
  cases p with
  | mem ps => exact ⟨fun h => ⟨ps, rfl, h⟩, fun ⟨_, h1, h2⟩ => by cases h1; exact h2⟩
  | reg d o => exact ⟨fun h => (nomatch h), fun ⟨_, h1, _⟩ => (nomatch h1)⟩
def regB (p : Place) : Bool := match p with | .mem _ => false | .reg _ _ => true

/-- A capability to an object of this module, with every right, over 128 KiB. -/
def cap (obj : Nat) : Cap := ⟨BitVec.ofNat 128 (255 * 2 ^ 120 + 131072 * 2 ^ 80 + obj * 2 ^ 8), true⟩
/-- Object 1 has two extents, in blocks 4 and 5; its directory is block 2, its leaf block 3. -/
def mem0 : List Host.Cell :=
  setBytes (setBytes (setBytes (setBytes [] 65552 (leBytes 8 (2 + 2 * 2 ^ 24 + 2 ^ 48))) 131072 (leBytes 8 (3 + 2 ^ 24))) 196608 (leBytes 8 4))
    196616 (leBytes 8 5)
/-- c1 names object 1, c2 the register object of die 0, c3 an object of module 1; s5 = 131064, s6 = 65528. -/
def C2 : Ctx := { C1 with regs := { C1.regs with
  s := [(1, 5#64), (2, 3#64), (4, 64#64), (5, 131064#64), (6, 65528#64), (7, 0x740#64), (10, 64#64)]
  c := [(1, cap 1), (2, cap 67108856), (3, cap (67108864 + 7))] } }
def K2 : Core := { K1 with ms := { K1.ms with objCache := [1, 67108871] } }
def S2 : State := { st C2 K2 with mem := mem0 }
/-- The same with the first line of the object in the line cache. -/
def S2c : State := setActCore S2 { K2 with ms := { K2.ms with lines := [(lineKey 262144 0, ⟨List.replicate 128 7#8, 0⟩)] } }

/-- The premise of the loads' forms: destination, place, and the load itself. -/
def loadB (s : State) (i : Instr) (ds sz cb so imm unit bytes align rc : Nat) (far : Option Nat) (out : Iss → List (Nat × Nat × Nat) → Land → Except Halt Iss) :
    Bool :=
  readyB s i && (sMarkOf (began s i).ctx so == .clean) && okB ((began s i).loadDest sz ds) (fun q =>
    okB (q.1.locate cb (globalAddr (began s i).ctx so imm unit) bytes align rLOAD sz false rc far) (fun r =>
      memB r.2 (fun ps => okB (out r.1 ps q.2) soundB)))
theorem load_met {s : State} {i : Instr} {ds sz cb so imm unit bytes align rc : Nat} {far : Option Nat}
    {out : Iss → List (Nat × Nat × Nat) → Land → Except Halt Iss} (h : loadB s i ds sz cb so imm unit bytes align rc far out = true) :
    Ready s i ∧ Clean [so] (began s i) ∧ ∃ j1 d k ps o, (began s i).loadDest sz ds = .ok (j1, d)
      ∧ j1.locate cb (globalAddr (began s i).ctx so imm unit) bytes align rLOAD sz false rc far = .ok (k, .mem ps) ∧ out k ps d = .ok o ∧ o.Sound := by
  simp only [loadB, Bool.and_eq_true, beq_iff_eq, okB_iff, memB_iff] at h
  obtain ⟨⟨h1, h2⟩, ⟨j1, d⟩, h3, ⟨k, p⟩, h4, ps, h5, o, h6, h7⟩ := h
  dsimp only at h5
  subst h5
  exact ⟨ready_of h1, by intro n hn; cases List.mem_singleton.mp hn; exact h2, j1, d, k, ps, o, h3, h4, h6, sound_of h7⟩

/-- LDS at the last 8 bytes of the object, LDV across its two extents, LDF and LDX; a register object; PREF of nothing, of a cached and of a missing line. -/
theorem witness_LoadIssue :
    loadB S2 (.lds G ⟨5, 1, 5, 1, 0, 3, 0⟩) 5 3 1 5 0 8 8 8 0 (some 0x1D) (fun k ps d => k.loadMem 1 ps d false) = true
    ∧ loadB S2c (.lds G ⟨5, 1, 0, 1, 0, 0, 0⟩) 5 0 1 0 0 1 1 1 0x16 (some 0x1D) (fun k ps d => k.loadMem 1 ps d false) = true
    ∧ loadB S2 (.ldv G ⟨2, 1, 0, 1, 0, 6, 2047⟩) 2 6 1 0 2047 32 128 32 0x16 (some 0x1D) (fun k ps d => k.loadMem 1 ps d false) = true
    ∧ loadB S2 (.ldf G ⟨5, 1, 5, 1, 0, 3, 4095⟩) 5 3 1 5 0 8 8 8 0x16 none (fun k ps d => .ok (k.loadFar 1 (8 * 4095) ps d)) = true
    ∧ (readyB S2 (.ldx G ⟨5, 1, 4, 1, 0, 0, 0⟩) && okB ((began S2 (.ldx G ⟨5, 1, 4, 1, 0, 0, 0⟩)).locate 1 (globalAddr C2 4 0 16) 16 16 rLOAD 0 false 0x16 (some 0x1D))
      (fun r => memB r.2 (fun ps => okB (r.1.loadMem 1 ps (.cap 5 Cap.zero) true) soundB))) = true
    ∧ (readyB S2 (.lds G ⟨5, 2, 7, 1, 0, 3, 0⟩) && okB ((began S2 (.lds G ⟨5, 2, 7, 1, 0, 3, 0⟩)).locate 2 0x740 8 8 rLOAD 3 false 0 (some 0x1D)) (fun r => regB r.2 && soundB r.1)) = true
    ∧ (∀ i ∈ [Instr.pref G ⟨0, 9, 0, 0, 0, 0, 0⟩, .pref G ⟨0, 1, 0, 0, 0, 0, 0⟩], (Ready S2 i ∧ Clean [0] (began S2 i)) ∧ (Ready S2c i ∧ Clean [0] (began S2c i)))
    ∧ ((readC C2 9).tag = false ∧ (readC C2 1).tag = true ∧ (readC C2 1).grants rLOAD = true ∧ (readC C2 1).lower ≤ globalAddr C2 0 0 1
      ∧ globalAddr C2 0 0 1 < (readC C2 1).upper ∧ (readC C2 1).home = Config.moduleNumber ∧ (readC C2 1).index < 67108856
      ∧ K2.ms.objCache.contains (readC C2 1).obj = true
      ∧ objEntry S2 (ctxJob S2 0 0) 0 1 = some (2, 2) ∧ 0 / 65536 < 2 ∧ walk S2 0 2 0 = .hbm 262144 196608)
    ∧ hitsCache S2c 0 0 [(262144, 196608, 128)] = true ∧ hitsCache S2 0 0 [(262144, 196608, 8)] = false
    ∧ (began S2 (.lds G ⟨5, 1, 5, 1, 0, 3, 0⟩)).waitsOrder 1 [(262144, 196608, 8)] false false = false := by
  refine ⟨?w1, ?w2, ?w3, ?w4, ?w5, ?w6, fun i hi => ⟨all_clean (by decide) i hi, all_clean (by decide) i hi⟩,
    ?w7, ?w8, ?w9, ?w10⟩
  case w1 | w2 | w3 | w4 | w5 | w6 | w7 | w8 | w9 | w10 => decide +kernel

theorem witness_TypedBufferAccess :
    (∀ i ∈ [Instr.ldb G ⟨5, 4, 4, 1, 0, 3, 0⟩, .ldb G ⟨5, 8, 4, 1, 0, 0, 0⟩, .stb G ⟨1, 4, 4, 1, 0, 3, 0⟩, .ldb G ⟨2, 12, 4, 1, 0, 6, 0⟩, .stb G ⟨0, 12, 4, 1, 0, 4, 0⟩],
      Ready S2 i ∧ Clean [4, 1] (began S2 i))
    ∧ (let j := began S2 (.ldb G ⟨5, 4, 4, 1, 0, 3, 0⟩)
       64 % sizeAlign 3 = 0 ∧ bufferAddr j.ctx 4 0 8 = 64 ∧ 64 + 8 ≤ bufSize 1 ∧ Owns j 1 64 8 ∧ Owns j 2 64 1 ∧ (readBuf j.st 0 0 1 64 8).2 = false
       ∧ (List.range 16).any (fun t => busyTile j.core t && decide (64 < 81920 * (t + 1)) && decide (81920 * t < 64 + 1)) = false)
    ∧ (okB ((began S2 (.ldb G ⟨2, 12, 4, 1, 0, 6, 0⟩)).claim 2) (fun a => (foreignRegion a.1.st a.1.st.core 3 64 128).isNone && soundB a.1)) = true
    ∧ (okB ((began S2 (.stb G ⟨0, 12, 4, 1, 0, 4, 0⟩)).sources 64 16 [0] []) (fun a => (foreignRegion a.1.st a.1.st.core 3 64 32).isNone && soundB a.1)) = true
    ∧ (let m : MxOp := ⟨0, 0x14, 0, 0, 0, 0, 0, 0#128, 1, 0, 0, 0, 0, 0, false, 0, 0, 0, 0, none, none, [], [], 0, [], [], [], []⟩
       let s := setActCore S2 { K2 with mx := { K2.mx with q := [m] } }
       Ready s (.ldb G ⟨5, 8, 4, 1, 0, 0, 0⟩) ∧ Owns (began s (.ldb G ⟨5, 8, 4, 1, 0, 0, 0⟩)) 2 64 1
       ∧ (List.range 16).any (fun t => busyTile (began s (.ldb G ⟨5, 8, 4, 1, 0, 0, 0⟩)).core t && decide (64 < 81920 * (t + 1)) && decide (81920 * t < 64 + 1)) = true) := by
  refine ⟨all_clean (by decide), by unfold Owns; decide, by decide, by decide, ready_of (by decide), by unfold Owns; decide, by decide⟩

/-- Nothing of the context is on its way, and then a far store of the class that the access stands behind. -/
theorem witness_TypedBufferAccess_order :
    let i : Instr := .ldb G ⟨5, 4, 4, 1, 0, 3, 0⟩
    let v : ReqView := ⟨0, 1, 0, 2, [(64, 8)], false⟩
    let far : Store := { Store.fresh 0 1 (.mem 0 [(2 ^ 37, 196608, 1)]) [1#8] false false with seq := 0 }
    let s := setActCore S2 { K2 with ms := { K2.ms with released := [far], seq := 1 } }
    (began S2 i).waitsLate v false = false ∧ (Ready s i ∧ Clean [4, 1] (began s i)) ∧ (began s i).waitsLate v false = true ∧ Owns (began s i) 1 64 8 := by
  refine ⟨?w1, all_clean (ns := [4, 1]) (l := [.ldb G ⟨5, 4, 4, 1, 0, 3, 0⟩]) (by decide +kernel) _ (List.mem_singleton.mpr rfl), ?w2, by unfold Owns; decide⟩
  case w1 | w2 => decide +kernel

theorem witness_StoreIssue :
    (∀ i ∈ [Instr.sts G ⟨1, 1, 5, 1, 0, 3, 0⟩, .stv G ⟨0, 1, 4, 1, 0, 6, 0⟩, .stx G ⟨5, 1, 4, 1, 0, 0, 0⟩], Ready S2 i ∧ Clean [1, 5, 4] (began S2 i))
    ∧ okB ((began S2 (.sts G ⟨1, 1, 5, 1, 0, 3, 0⟩)).locate 1 (globalAddr C2 5 0 8) 8 8 rSTORE 3 true 0 none)
      (fun r => memB r.2 (fun ps => soundB (r.1.storeTo 1 131064 1 (.mem ps) (leBytes 8 5) false))) = true
    ∧ okB ((began S2 (.stv G ⟨0, 1, 4, 1, 0, 6, 0⟩)).sources 64 16 [0] []) (fun a => !(a.2.headD Row.zero).isBad
      && okB (a.1.locate 1 (globalAddr C2 4 0 32) 128 32 rSTORE 6 true 0x16 none)
        (fun r => memB r.2 (fun ps => soundB (r.1.storeTo 1 64 1 (.mem ps) (leBytes 128 5) false)))) = true
    ∧ okB ((began S2 (.stx G ⟨5, 1, 4, 1, 0, 0, 0⟩)).locate 1 (globalAddr C2 4 0 16) 16 16 rSTORE 0 true 0x16 none)
      (fun r => memB r.2 (fun ps => decide (ps ≠ []) && soundB (r.1.storeTo 1 64 1 (.mem ps) (leBytes 16 5) true))) = true
    ∧ (began S2 (.stx G ⟨5, 1, 4, 1, 0, 0, 0⟩)).ctx.world = 0 := by
  refine ⟨all_clean (by decide), ?w1, ?w2, ?w3, ?w4⟩
  case w1 | w2 | w3 | w4 => decide +kernel

/-- ATOM with operation 9, ARREXP and ARRIVE. -/
theorem witness_AtomicIssue :
    (∀ i ∈ [Instr.atom G ⟨4, 1, 5, 1, 9 + 16⟩, .arrexp G ⟨4, 1, 4194304⟩, .arrive G ⟨4, 1, 4194304⟩], Ready S2 i ∧ Clean [4, 5, 1] (began S2 i))
    ∧ okB ((began S2 (.atom G ⟨4, 1, 5, 1, 9 + 16⟩)).locate 1 (globalAddr C2 5 0 1) 8 8 rATOMIC 3 true 0x1C (some 0x1C)) (fun r =>
      memB r.2 (fun ps => decide (ps = [(393208, 196616, 8)]) && !r.1.waitsOrder 1 ps false false && soundB r.1)) = true
    ∧ okB ((began S2 (.arrive G ⟨4, 1, 4194304⟩)).locate 1 (globalAddr C2 4 0 1) 16 16 rATOMIC 0 true 0x1C none) (fun r =>
      memB r.2 (fun ps => decide (ps = [(262208, 196608, 16)]) && soundB r.1)) = true
    ∧ ∀ j c off ps, j.ctx.world = 0 → Iss.overlayRoom j c off ps = j := by
  refine ⟨all_clean (by decide), by decide, by decide, fun j c off ps h => by unfold Iss.overlayRoom; simp [h]⟩

theorem witness_FenceIssue :
    (Ready S2 (.fence G ⟨0, 0, 5 * 65536⟩) ∧ fenceOpen S2 0 0 65535 (began S2 (.fence G ⟨0, 0, 5 * 65536⟩)).seq0 = false)
    ∧ (let s := setActCore S2 { K2 with ms := { K2.ms with gated := [Store.fresh 0 15 (.mem 0 [(262144, 196608, 1)]) [1#8] false false] } }
       Ready s (.fence G ⟨0, 0, 32768⟩) ∧ fenceOpen (began s (.fence G ⟨0, 0, 32768⟩)).st 0 0 32768 (began s (.fence G ⟨0, 0, 32768⟩)).seq0 = true)
    ∧ (let i : Instr := .arriveWait G ⟨4, 1, 4194304 + 262144⟩
       let t := setAct S2 { C2 with regs := { C2.regs with s := [(1, 1#64), (4, 64#64)] } }
       let u := setAct S2 { C2 with regs := { C2.regs with s := [(1, 0#64), (4, 64#64)] } }
       (Ready t i ∧ okB ((began t i).locate 1 64 16 16 rLOAD 0 false 0x1C none) (fun r => memB r.2 (fun ps =>
          decide (2147483648 ≤ (leVal (((r.1.peekMem ps).drop 8).take 4) + 4294967296 - 1 % 4294967296) % 4294967296))) = true)
       ∧ (Ready u i ∧ okB ((began u i).locate 1 64 16 16 rLOAD 0 false 0x1C none) (fun r => memB r.2 (fun ps => soundB r.1 &&
          !decide (2147483648 ≤ (leVal (((r.1.peekMem ps).drop 8).take 4) + 4294967296 - 0 % 4294967296) % 4294967296))) = true)) := by
  refine ⟨⟨ready_of (by decide), ?w1⟩, ⟨ready_of (by decide), ?w2⟩, ⟨ready_of (by decide), ?w3⟩, ready_of (by decide), ?w4⟩
  case w1 | w2 | w3 | w4 => decide +kernel

/-! ### Streams, rings, remote accesses, engines -/

/-- S holds a parameter set at 64 (one dimension, BASE 64, 4 vectors of stride 32), a ring of 4 slots at 128 with HEAD 2, TAIL 1 and FREE 2, and a descriptor at
192: a copy of 4 bytes from A at 0 to A at 64. -/
def words (ws : List Nat) : List Byte := ws.flatMap (leBytes 8)
def buf3 : List Host.Cell :=
  setBytes (setBytes (setBytes [] (bufKey 3 64) (words [64 + 2 ^ 21, 3 + 32 * 65536]))
    (bufKey 3 128) (words [1024 + 3 * 2 ^ 28, 2 + 65536 + 2 * 2 ^ 32])) (bufKey 3 192) (words [2 * 16 + 2 * 256, 0, 64])
def C3 : Ctx := { C2 with
  regs := { C2.regs with s := [(1, 5#64), (2, 3#64), (4, 64#64), (5, 131064#64), (8, 128#64), (9, 192#64), (10, 64#64), (11, 256#64), (12, 320#64)] }
  fsc := [(1, 4), (63, 255)] }
def K3 : Core := { K2 with bufs := { K2.bufs with bytes := buf3 } }
def S3 : State := { st C3 K3 with mem := mem0 }
/-- The same state with other bytes in S. -/
def withS (a : Nat) (ws : List Nat) (c : Ctx := C3) : State :=
  { st c { K3 with bufs := { K3.bufs with bytes := setBytes buf3 (bufKey 3 a) (words ws) } } with mem := mem0 }

theorem witness_StreamsAndRings :
    (let i : Instr := .sparm G ⟨7, 4, 4, 0⟩
     let j := began S3 i
     let w := words8 (readBuf j.st 0 0 3 64 64).1
     (Ready S3 i ∧ Clean [4] j) ∧ (portOf j.ctx 7).armed = false ∧ (readS j.ctx 4).toNat % 1048576 = 64 ∧ Owns j 3 64 64
      ∧ (readBuf j.st 0 0 3 64 64).2 = false ∧ streamBad w = false ∧ field (w.headD 0) 0 21 = 64 ∧ (w.getD 1 0) = 3 + 32 * 65536
      ∧ 0 ≤ walkLow 64 [3] [32] ∧ walkHigh 64 32 [3] [32] < (bufSize 1 : Int) ∧ Owns j 1 64 128)
    ∧ (Ready S3 (.spstop G ⟨0, 0, 0, 0⟩) ∧ (portOf C3 0).armed = true ∧ portBusy C3 0 = false)
    ∧ (Ready S3 (.spstop G ⟨7, 0, 0, 0⟩) ∧ (portOf C3 7).armed = false)
    ∧ (let c := { C3 with regs := { C3.regs with
          ports := [(0, { Port.init with armed := true, write := true, cnts := [1], strs := [32] })]
          shadow := [⟨3, 0, .port 0 Row.zero, none, none, none, none, false, none, false⟩] } }
       let s := setAct S3 c
       Ready s (.spstop G ⟨0, 0, 0, 0⟩) ∧ (portOf (began s (.spstop G ⟨0, 0, 0, 0⟩)).ctx 0).armed = true ∧ portBusy (began s (.spstop G ⟨0, 0, 0, 0⟩)).ctx 0 = true)
    ∧ (∀ i ∈ [Instr.rngwait G ⟨8, 5, 3 * 2 ^ 24⟩, .rngwait G ⟨8, 5, 3 * 2 ^ 24 + 1⟩, .rngwaitProd G ⟨8, 5, 3 * 2 ^ 24 + 4096 + 1⟩,
        .rngwaitProd G ⟨8, 5, 3 * 2 ^ 24 + 4096 + 3⟩, .rngadv G ⟨8, 0, 3 * 2 ^ 24⟩, .rngadv G ⟨8, 0, 3 * 2 ^ 24 + 1⟩, .rngpub G ⟨8, 0, 3 * 2 ^ 24 + 1⟩,
        .rngpub G ⟨8, 0, 3 * 2 ^ 24 + 2⟩], (Ready S3 i ∧ Clean [8] (began S3 i))
        ∧ (128 % 64 = 0 ∧ 128 + 64 ≤ bufSize 3 ∧ (foreignRegion (began S3 i).st 0 3 128 64).isNone = true)
        ∧ (let h := hdrOf (readBuf (began S3 i).st 0 0 3 128 64).1
           h.head = 2 ∧ h.tail = 1 ∧ h.free = 2 ∧ h.slots = 4 ∧ h.base = 1024)
        ∧ bufReadOpen (began S3 i).ctx 3 = false ∧ hdrStoreOpen (began S3 i).st 0 0 3 128 = false ∧ writesPending (began S3 i).st 0 0 = false) := by
  refine ⟨⟨all_clean (ns := [4]) (l := [.sparm G ⟨7, 4, 4, 0⟩]) (by decide) _ (List.mem_singleton.mpr rfl), by unfold Owns; decide⟩, ⟨ready_of (by decide), by decide⟩,
    ⟨ready_of (by decide), by decide⟩, ⟨ready_of (by decide), by decide⟩, fun i hi => ⟨all_clean (by decide) i hi, ?_⟩⟩
  revert i hi
  decide

theorem remoteAt_far {j : Iss} {ci so n align rights sz : Nat} (h1 : sMarkOf j.ctx so = .clean)
    (h2 : okB (j.needObject (readC j.ctx ci)) (fun _ => true) = true)
    (h3 : okB (checkCap (readC j.ctx ci) ci (offsetOf (readS j.ctx so) 0 1 40) n align (rights ||| rREMOTE) sz) (fun _ => true) = true)
    (h4 : (readC j.ctx ci).index < 67108856) (h5 : (readC j.ctx ci).home ≠ Config.moduleNumber)
    (h6 : (offsetOf (readS j.ctx so) 0 1 40 + n - 1) / 65536 < Config.remoteBlocks (readC j.ctx ci).obj j.st.now) :
    j.remoteAt ci so n align rights sz = .ok (j, (readC j.ctx ci).home, offsetOf (readS j.ctx so) 0 1 40) := by
  obtain ⟨u, h2, -⟩ := okB_iff.mp h2
  obtain ⟨v, h3, -⟩ := okB_iff.mp h3
  have h7 : j.globalOff so 0 1 = (j, offsetOf (readS j.ctx so) 0 1 40) := by simp [Iss.globalOff, Iss.s, h1, Iss.consumes]
  simp only [Iss.remoteAt, h7, h2, h3, bind, Except.bind, Nat.not_le.mpr h4, h5, Nat.not_le.mpr h6, if_false]

/-- The forms at another module, of which the free value `remoteBlocks` says that the object there has an extent. -/
theorem witness_RemoteAccess_far (h : 0 < Config.remoteBlocks 67108871 0) :
    (∀ p ∈ [((.ldr G ⟨5, 3, 4, 1, 1 + 3 * 4096⟩ : Instr), rLOAD, 8, 8, 3), (.ldr G ⟨2, 3, 4, 1, 4095 + 4 * 4096⟩, rLOAD, 32, 32, 4),
        (.ldrw G ⟨2, 3, 4, 1, 4 * 4096⟩, rLOAD, 32, 32, 4), (.str G ⟨1, 3, 4, 1, 3 * 4096⟩, rSTORE, 8, 8, 3), (.str G ⟨0, 3, 4, 1, 6 * 4096⟩, rSTORE, 128, 32, 6),
        (.atomr G ⟨127, 3, 4, 1, 16⟩, rATOMIC, 8, 8, 3), (.atomr G ⟨2, 3, 4, 1, 16 + 32⟩, rATOMIC, 8, 8, 3), (.fencef G ⟨4, 1, 3 * 65536⟩, rSTORE, 8, 8, 3)],
      Ready S3 p.1 ∧ Clean [0, 1, 4] (began S3 p.1)
        ∧ (began S3 p.1).remoteAt 3 4 p.2.2.1 p.2.2.2.1 p.2.1 p.2.2.2.2 = .ok (began S3 p.1, 1, 64) ∧ (1 : Nat) ≠ Config.moduleNumber
        ∧ peerDown (began S3 p.1).st (began S3 p.1).die 1 = false ∧ tagFor (fabOf (began S3 p.1).st (began S3 p.1).die) 0 = some 0
        ∧ okB ((began S3 p.1).needSlots 1 2) (fun j => tagFor (fabOf j.st j.die) (8 * j.st.core + j.st.cx) == some 0) = true
        ∧ okB ((began S3 p.1).sendReq 1 0 1 2 0 0 0 [] (.none Row.zero) false false) (fun r => r.2.isSome && soundB r.1) = true) := by
  intro p hp
  have h1 := (all_clean (s := S3) (ns := [0, 1, 4]) (l := [.ldr G ⟨5, 3, 4, 1, 1 + 3 * 4096⟩, .ldr G ⟨2, 3, 4, 1, 4095 + 4 * 4096⟩, .ldrw G ⟨2, 3, 4, 1, 4 * 4096⟩,
    .str G ⟨1, 3, 4, 1, 3 * 4096⟩, .str G ⟨0, 3, 4, 1, 6 * 4096⟩, .atomr G ⟨127, 3, 4, 1, 16⟩, .atomr G ⟨2, 3, 4, 1, 16 + 32⟩, .fencef G ⟨4, 1, 3 * 65536⟩]) (by decide))
  simp only [List.mem_cons, List.not_mem_nil, or_false] at hp
  obtain rfl | rfl | rfl | rfl | rfl | rfl | rfl | rfl := hp <;>
    exact ⟨(h1 _ (by simp)).1, (h1 _ (by simp)).2, remoteAt_far rfl (by decide) (by decide) (by decide) (by decide) h,
      by decide +kernel, by decide +kernel, by decide +kernel, by decide +kernel, by decide +kernel⟩

/-- The forms at this module, in world 0 and deferred in a world, and a peer that is unreachable. -/
theorem witness_RemoteAccess :
    (∀ p ∈ [((.ldr G ⟨5, 1, 4, 1, 1 + 3 * 4096⟩ : Instr), rLOAD, 8, 8, 3, false), (.ldr G ⟨2, 1, 4, 1, 4095 + 6 * 4096⟩, rLOAD, 128, 32, 6, false),
        (.ldrw G ⟨2, 1, 4, 1, 4 * 4096⟩, rLOAD, 32, 32, 4, false), (.str G ⟨1, 1, 4, 1, 3 * 4096⟩, rSTORE, 8, 8, 3, true),
        (.str G ⟨0, 1, 4, 1, 6 * 4096⟩, rSTORE, 128, 32, 6, true), (.atomr G ⟨127, 1, 4, 1, 16⟩, rATOMIC, 8, 8, 3, true),
        (.atomr G ⟨2, 1, 4, 1, 16 + 32⟩, rATOMIC, 8, 8, 3, true), (.fencef G ⟨4, 1, 65536⟩, rSTORE, 8, 8, 3, true)],
      Ready S3 p.1 ∧ Clean [0, 1, 4] (began S3 p.1) ∧ (began S3 p.1).ctx.world = 0
      ∧ okB ((began S3 p.1).remoteAt 1 4 p.2.2.1 p.2.2.2.1 p.2.1 p.2.2.2.2.1) (fun r => decide (r.2 = (Config.moduleNumber, 64))
        && okB (r.1.ownPlace 1 64 p.2.2.1 p.2.2.2.2.1 p.2.2.2.2.2) (fun q => decide (q.2 = [(262208, 196608, p.2.2.1)]) && soundB q.1)) = true)
    ∧ okB ((began S3 (.ldrw G ⟨2, 1, 4, 1, 4 * 4096⟩)).claimReply 2) (fun r => decide (r.2 = 257) && soundB r.1) = true
    ∧ okB ((began S3 (.str G ⟨0, 1, 4, 1, 6 * 4096⟩)).sources 64 16 [0] []) (fun r => !(r.2.headD Row.zero).isBad && soundB r.1) = true
    ∧ (let s := setAct { S3 with worlds := { S3.worlds with ents := [(1, ⟨.running, 0, 1, 1, 0, 0, 1⟩)] } } { C3 with world := 1 }
       Ready s (.str G ⟨1, 1, 4, 1, 3 * 4096⟩) ∧ (began s (.str G ⟨1, 1, 4, 1, 3 * 4096⟩)).ctx.world ≠ 0 ∧ 1 ≤ effectRoom (began s (.str G ⟨1, 1, 4, 1, 3 * 4096⟩)).st 1)
    ∧ (let s := setDie S3 0 { Die.init with regs := [(0x0760, 2)] }
       peerDown (began s (.ldr G ⟨5, 3, 4, 1, 1⟩)).st (began s (.ldr G ⟨5, 3, 4, 1, 1⟩)).die 1 = true) := by
  refine ⟨?_, ?w1, ?w2, ⟨ready_of (by decide), ?w3, ?w4⟩, ?w5⟩
  case w1 | w2 | w3 | w4 | w5 => decide +kernel
  intro p hp
  have h1 := (all_clean (s := S3) (ns := [0, 1, 4]) (l := [.ldr G ⟨5, 1, 4, 1, 1 + 3 * 4096⟩, .ldr G ⟨2, 1, 4, 1, 4095 + 6 * 4096⟩, .ldrw G ⟨2, 1, 4, 1, 4 * 4096⟩,
    .str G ⟨1, 1, 4, 1, 3 * 4096⟩, .str G ⟨0, 1, 4, 1, 6 * 4096⟩, .atomr G ⟨127, 1, 4, 1, 16⟩, .atomr G ⟨2, 1, 4, 1, 16 + 32⟩, .fencef G ⟨4, 1, 65536⟩]) (by decide))
  simp only [List.mem_cons, List.not_mem_nil, or_false] at hp
  obtain rfl | rfl | rfl | rfl | rfl | rfl | rfl | rfl := hp <;>
    exact ⟨(h1 _ (by simp)).1, (h1 _ (by simp)).2, by decide, by decide⟩

theorem witness_SlotCounts :
    (∀ i ∈ [Instr.fscq G ⟨0, 5, 63⟩, .fscqWait G ⟨13, 5, 64 + 128 + 255 * 256⟩, .fscqWait G ⟨1, 5, 64 + 128 + 256⟩, .fscqWait G ⟨0, 5, 63 + 128 + 255 * 256⟩, .fscqWait G ⟨0, 5, 1 + 128 + 5 * 256⟩, .fscqReg G ⟨13, 5, 64⟩, .fscqReg G ⟨13, 5, 64 + 128 + 256 * 255⟩,
      .fscqReg G ⟨1, 5, 64 + 128 + 256⟩], Ready (setAct S3 { C3 with regs := { C3.regs with s := [(1, 5#64), (13, 63#64)] } }) i
        ∧ Clean [13, 1] (began (setAct S3 { C3 with regs := { C3.regs with s := [(1, 5#64), (13, 63#64)] } }) i))
    ∧ field (63 + 128 + 255 * 256) 8 8 ≤ fscOf C3 63 ∧ fscOf C3 1 < field (1 + 128 + 5 * 256) 8 8 ∧ fscOf C3 5 < 1 ∧ field (64 + 128 + 256) 7 1 = 1 :=
  ⟨all_clean (by decide), by decide⟩

/-- The descriptor block of a command is readable, and its eight words are `ws`. -/
def blockB (s : State) (i : Instr) (sa n align : Nat) (ws : List Nat) : Bool :=
  let j := began s i
  let a := (readS j.ctx sa).toNat % 1048576
  readyB s i && (sMarkOf j.ctx sa == .clean) && decide (a % align = 0) && decide (a + n ≤ bufSize 3) && (foreignRegion j.st j.st.core 3 a n).isNone
    && !(readBuf j.st j.st.core j.st.cx 3 a n).2 && (words8 (readBuf j.st j.st.core j.st.cx 3 a n).1 == ws)
/-- What a command asks of the core and of its descriptor besides. -/
def soundD (s : State) (i : Instr) (w : List Nat) (o n : Nat) : Bool :=
  let j := began s i
  let d := descOf w
  (!(d.ssp == 4 || d.dsp == 4) || busyTiles j.core == 0) && decide (d.sbase % 4 = 0) && (d.dsp == 8 || decide (d.dbase % 4 = 0))
    && (!(d.ssp == 0 || d.dsp == 0) || decide (o % 4 = 0)) && !descBad w && (d.dsp != 8 || (decide (d.dbase < 64) && decide (n * d.runs % 128 = 0)))
    && !twoLayouts d n
theorem witness_EngineCommands :
    let e := C3.eng
    (e.copy.length < 16 ∧ e.sfe.length < 16 ∧ e.subs.length < 8 ∧ e.gq.length < 16 ∧ e.coll.length < 2 ∧ e.send.length < 8 ∧ e.ck = [])
    ∧ (let w := [2 * 16 + 4 * 256, 0, 64, 0, 0, 0, 0, 0]
       blockB (withS 192 w) (.cpy G ⟨1, 2, 1, 9, 0, 0⟩) 9 64 64 w = true ∧ soundD (withS 192 w) (.cpy G ⟨1, 2, 1, 9, 0, 0⟩) w 0 (descOf w).bytes = true)
    ∧ (let w := [2 * 16 + 8 * 256 + 31 * 2 ^ 32, 0, 63, 0, 0, 0, 0, 0]
       blockB (withS 192 w) (.cpy G ⟨1, 2, 1, 9, 0, 0⟩) 9 64 64 w = true ∧ soundD (withS 192 w) (.cpy G ⟨1, 2, 1, 9, 0, 0⟩) w 0 (descOf w).bytes = true)
    ∧ (let w := [2 * 256, 0, 64, 0, 0, 0, 0, 0]
       blockB (withS 192 w) (.cpyrGet G ⟨1, 2, 1, 9, 0, 0⟩) 9 64 64 w = true ∧ soundD (withS 192 w) (.cpyrGet G ⟨1, 2, 1, 9, 0, 0⟩) w 0 (descOf w).bytes = true)
    ∧ (let w := [7 * 16, 0, 64, 0, 0, 0, 0, 0]
       blockB (withS 192 w) (.cpyrPut G ⟨1, 2, 1, 9, 0, 1⟩) 9 64 64 w = true ∧ soundD (withS 192 w) (.cpyrPut G ⟨1, 2, 1, 9, 0, 1⟩) w 0 (descOf w).bytes = true)
    ∧ (let w := [2 * 16 + 6 * 256, 0, 64, 0, 0, 0, 0, 0]
       blockB (withS 192 w) (.sfe G ⟨1, 2, 0, 9, 0, 0⟩) 9 64 64 w = true
       ∧ soundD (withS 192 w) (.sfe G ⟨1, 2, 0, 9, 0, 0⟩) w 0 ((descOf w).bytes / sfeBytes 0 * sfeBytes 0) = true)
    ∧ (let w := [5 * 256, 0, 64, 0, 0, 0, 0, 0]
       blockB (withS 192 w) (.subsLd G ⟨1, 2, 1, 9, 0, 0⟩) 9 64 64 w = true ∧ soundD (withS 192 w) (.subsLd G ⟨1, 2, 1, 9, 0, 0⟩) w 0 (descOf w).bytes = true
       ∧ ∀ v ∈ (descOf w).dstr, v = 0)
    ∧ (let w := [2 * 16, 64, 0, 0, 0, 0, 0, 0]
       blockB (withS 192 w) (.subsSt G ⟨1, 2, 1, 9, 0, 1⟩) 9 64 64 w = true ∧ soundD (withS 192 w) (.subsSt G ⟨1, 2, 1, 9, 0, 1⟩) w 0 (descOf w).bytes = true
       ∧ ∀ v ∈ (descOf w).sstr, v = 0)
    ∧ (∀ i ∈ [Instr.unsub G ⟨1, 2, 12, 9, 0, 0⟩, .drain G ⟨1, 2, 4, 9, 0, 0⟩, .ckmark G ⟨1, 2, 0, 9, 0, 0⟩], Ready S3 i ∧ Clean [9] (began S3 i))
    ∧ (let c : Ctx := { C3 with regs := { C3.regs with c := [(1, cap 0)] } }
       let s := withS 192 [1, 2, 3, 4, 5, 6, 7, 8] c
       let s := setActCore s { coreOf s 0 with ms := { (coreOf s 0).ms with objCache := [0] } }
       blockB s (.gqpush G ⟨1, 2, 1, 9, 0, 0⟩) 9 64 64 [1, 2, 3, 4, 5, 6, 7, 8] = true
       ∧ ((readC c 1).obj ∈ (coreOf s 0).ms.objCache ∧ (readC c 1).tag = true ∧ (readC c 1).grants rLOAD = true ∧ (readC c 1).index = routeReg s 0 0x7C0 ∧ (readC c 1).home = Config.moduleNumber
        ∧ 0 % 64 = 0 ∧ (readC c 1).lower ≤ 0 ∧ 0 + rowBytes s 0 ≤ (readC c 1).upper))
    ∧ (let w := [0, 3, 0, 4096, 1, 0, 0, 0]
       blockB (withS 192 w) (.coll G ⟨1, 2, 1, 9, 0, 0⟩) 9 64 64 w = true ∧ collBad w = false ∧ field (w.getD 1 0) Config.moduleNumber 1 = 1)
    ∧ (blockB S3 (.send G ⟨1, 2, 0, 9, 0, 63 * 256 + 255⟩) 9 64 16 [2 * 16 + 2 * 256, 0, 64, 0, 0, 0, 0, 0] = true
       ∧ (foreignRegion (began S3 (.send G ⟨1, 2, 0, 9, 0, 63 * 256 + 255⟩)).st 0 3 192 1024).isNone = true
       ∧ (readBuf (began S3 (.send G ⟨1, 2, 0, 9, 0, 63 * 256 + 255⟩)).st 0 0 3 192 1024).2 = false) := by
  refine ⟨?w1, ⟨?w2, ?w3⟩, ⟨?w4, ?w5⟩, ⟨?w6, ?w7⟩, ⟨?w8, ?w9⟩, ⟨?w10, ?w11⟩,
    ⟨?w12, ?w13, ?w14⟩, ⟨?w15, ?w16, ?w17⟩, all_clean (by decide +kernel), ⟨?w18, ?w19⟩, ⟨?w20, ?w21, ?w22⟩,
    ?w23, ?w24, ?w25⟩
  case w1 | w2 | w3 | w4 | w5 | w6 | w7 | w8 | w9 | w10 | w11 | w12 | w13 | w14 | w15 | w16 | w17 | w18 | w19 | w20 | w21 | w22 | w23 | w24 | w25 => decide +kernel

/-- UNSUB of the A ring at 192 with no subscription, with one, and behind one whose guard is pending. -/
theorem witness_EngineCommands_rings :
    let i : Instr := .unsub G ⟨1, 2, 4, 9, 0, 0⟩
    let m : Cmd := ⟨.cpy, 1, 2, cap 1, 1, 0, Desc.none, 0, 4096, none, none, 0, [0, 0, 0, 0, 0, 0], 0, 0, [], none, 0, none, 0, none⟩
    let u : Nat → Sub := fun h => ⟨true, m, 1, h, 0, none, false, [], false⟩
    let s := setAct S3 { C3 with eng := { C3.eng with subs := [u 128, u 192] } }
    let t := setAct S3 { C3 with eng := { C3.eng with ring := [{ m with kind := .ringOp false 1 192 0, guard := some (9, 1, true) }] } }
    (Ready S3 i ∧ Clean [9] (began S3 i)) ∧ (Ready s i ∧ Clean [9] (began s i)) ∧ (Ready t i ∧ Clean [9] (began t i))
    ∧ ((actCtx S3).eng.ring = [] ∧ (actCtx S3).eng.subs = [])
    ∧ ((actCtx s).eng.ring = [] ∧ (actCtx s).eng.subs[1]? = some (u 192) ∧ (u 192).buf = 4 / 4 ∧ (u 192).hdr = 192
      ∧ ((actCtx s).eng.subs[0]? = some (u 128) ∧ (u 128).hdr ≠ 192))
    ∧ (actCtx t).eng.ring ≠ [] := by
  refine ⟨all_clean (ns := [9]) (l := [.unsub G ⟨1, 2, 4, 9, 0, 0⟩]) (by decide +kernel) _ (List.mem_singleton.mpr rfl),
    all_clean (ns := [9]) (l := [.unsub G ⟨1, 2, 4, 9, 0, 0⟩]) (by decide +kernel) _ (List.mem_singleton.mpr rfl),
    all_clean (ns := [9]) (l := [.unsub G ⟨1, 2, 4, 9, 0, 0⟩]) (by decide +kernel) _ (List.mem_singleton.mpr rfl), ?w1, ?w2, ?w3⟩
  case w1 | w2 | w3 => decide +kernel

/-! ### Control, tasks, worlds, traps -/

/-- With s13 = 8191, s14 = 0 and an armed level 0 from 4096 to 8192. -/
def C4 : Ctx := { C3 with regs := { C3.regs with
  s := [(1, 5#64), (2, 3#64), (4, 64#64), (9, 192#64), (13, 8192#64), (14, 32768#64)]
  armed := [⟨0, 4096, 8192⟩] } }
def S4 : State := { st C4 K3 with mem := mem0 }
theorem witness_ControlTransfers :
    (∀ i ∈ [Instr.call G ⟨5, 4294967295⟩, .ret G ⟨13, 0, 0, 0⟩, .ret G ⟨1, 0, 0, 0⟩, .jmpi G ⟨13, 0, 0, 524288⟩, .jmpi G ⟨1, 0, 0, 1⟩, .loopReg G ⟨0, 0, 0, 1⟩,
        .loopReg G ⟨1, 0, 0, 1⟩, .loopReg G ⟨1, 0, 0, 0⟩, .loopImm G ⟨0, 0, 0, 256 + 1⟩, .loopImm G ⟨0, 0, 0, 256 + 512 + 1⟩, .loopImm G ⟨0, 0, 0, 256 + 512⟩,
        .brt 1 1 0 0 0 8191 0 0 0, .brt 6 1 65 1 1 1 2 3 4, .hint 7 15 0], Ready S4 i ∧ Clean [13, 1, 0] (began S4 i))
    ∧ ((readS C4 13).toNat % 2 ^ 48 % 8 = 0 ∧ (readS C4 1).toNat % 2 ^ 48 % 8 ≠ 0)
    ∧ (((((readS C4 13).toNat : Int) + 8 * signed 20 524288) % (2 ^ 48 : Nat)).toNat % 8 = 0 ∧ ((((readS C4 1).toNat : Int) + 8 * signed 20 1) % (2 ^ 48 : Nat)).toNat % 8 ≠ 0)
    ∧ ((readS C4 0).toNat % 2 ^ 32 = 0 ∧ (readS C4 1).toNat % 2 ^ 32 ≠ 0 ∧ field (256 + 1) 9 11 = 0 ∧ field (256 + 512 + 1) 9 11 = 1)
    ∧ (let j := began S4 (.loopReg G ⟨1, 0, 0, 1⟩)
       (∀ l ∈ j.ctx.regs.armed, l.lvl ≠ 1 ∧ l.start ≤ j.g.fall ∧ bundleAfter j.st j.g.fall 0 ≤ l.last) ∧ ∃ l ∈ j.ctx.regs.armed, l.lvl = 0)
    ∧ (treeLeaf C4 1 1 0 0 0 = 1 ∧ treeLeaf C4 1 2 0 0 0 = 0 ∧ treeLeaf C4 6 1 65 1 1 = 2 ∧ treeLeaf C4 6 65 65 1 1 = 3 ∧ treeLeaf C4 6 65 65 65 1 = 4) := by
  refine ⟨all_clean (by decide), ?w1, ?w2, ?w3, ?w4, ?w5⟩
  case w1 | w2 | w3 | w4 | w5 => decide +kernel

theorem witness_SyncAndSemaphores :
    (Ready S4 (.sync 65535) ∧ (began S4 (.sync 65535)).core.syncWait = none ∧ 65535 &&& (began S4 (.sync 65535)).core.lines = 0)
    ∧ (let s := setActCore S4 { K3 with lines := 0x8000 }
       Ready s (.sync 65535) ∧ (began s (.sync 65535)).core.syncWait = none ∧ 65535 &&& (began s (.sync 65535)).core.lines ≠ 0)
    ∧ (let s := setActCore S4 { K3 with lines := 1, arrived := 1, syncWait := some (1, 0) }
       Ready s (.sync 1) ∧ (began s (.sync 1)).core.syncWait = some (1, 0) ∧ (began s (.sync 1)).core.arrived &&& 1 ≠ 0)
    ∧ (let s := setActCore S4 { K3 with lines := 1, arrived := 0, syncWait := some (1, 0) }
       Ready s (.sync 1) ∧ (began s (.sync 1)).core.syncWait = some (1, 0) ∧ (began s (.sync 1)).core.arrived &&& 1 = 0)
    ∧ (let s := setAct S4 { C4 with sems := [(15, 5)] }
       let t := setAct S4 { C4 with sems := [(15, 5)], semWide := 32768 }
       (∀ i ∈ [Instr.waitsImm G ⟨0, 0, 0, 15 + 6 * 32⟩, .waitsImm G ⟨0, 0, 0, 15 + 5 * 32⟩, .waitsReg G ⟨1, 0, 0, 16 + 15⟩], Ready s i ∧ Clean [1] (began s i))
       ∧ (∀ i ∈ [Instr.waitsImm G ⟨0, 0, 0, 15 + 5 * 32⟩, .waitsReg G ⟨1, 0, 0, 16 + 15⟩], Ready t i ∧ Clean [1] (began t i))
       ∧ semOf (actCtx s) 15 < field (15 + 6 * 32) 5 15 ∧ field (15 + 5 * 32) 5 15 ≤ semOf (actCtx s) 15 ∧ (readS C4 1).toNat % 2 ^ 16 ≤ semOf (actCtx s) 15
       ∧ (actCtx s).semWide.testBit 15 = false ∧ (actCtx t).semWide.testBit 15 = true) := by
  refine ⟨⟨ready_of (by decide), ?w1⟩, ⟨ready_of (by decide), ?w2⟩, ⟨ready_of (by decide), ?w3⟩, ⟨ready_of (by decide), ?w4⟩,
    all_clean (by decide), all_clean (by decide), ?w5⟩
  case w1 | w2 | w3 | w4 | w5 => decide +kernel

/-- A template in S at 192, and a die whose counters 0, 1 and 2 are open, sealed and free, with record 0 taken. -/
def tmpl : List Nat := [4096, 2 ^ 34 * 639 + 2 ^ 32, 0, 0, 0, 0, 0, 0]
def D0 : Die := { Die.init with tasks := { Tasks.init with
  recs := [(0, { TaskRec.init with state := .bound })], joins := [(0, ⟨.opened, 2, 0, 0, 0⟩), (1, ⟨.sealed, 0, 1, 1, 0⟩)] } }
def S5 : State := setDie (withS 192 tmpl C4) 0 D0
/-- A die without a free record or counter. -/
def full : Die := { Die.init with tasks := { Tasks.init with
  recs := (List.range 16384).map (fun n => (n, { TaskRec.init with state := .bound })), joins := (List.range 4096).map (fun n => (n, ⟨.opened, 0, 0, 0, 0⟩)) } }
theorem lowest_range {α : Type} (taken : α → Bool) (v : α) (h : taken v = true) : ∀ n k, lowestFree taken ((List.range' k n).map (fun i => (i, v))) k = k + n := by
  intro n
  induction n with
  | zero => intro k; rfl
  | succ n ih =>
    intro k
    rw [List.range'_succ, List.map_cons, lowestFree, if_neg (Nat.lt_irrefl k), if_pos (by simp [h]), ih]
    omega
theorem witness_TaskOperations :
    (∀ i ∈ [Instr.tspawn G ⟨5, 9, 0, 0⟩, .tspawn G ⟨5, 9, 47, 0⟩, .tjoin G ⟨5, 0, 0, 0⟩, .tsealImm G ⟨14, 9, 0, 2⟩, .tsealImm G ⟨14, 9, 0, 1⟩, .tsealReg G ⟨14, 9, 0, 65536 + 2⟩,
        .tsignal G ⟨14, 0, 0, 0⟩, .texit G ⟨0, 0, 0, 0⟩, .tcancelImm G ⟨0, 0, 0, 262143⟩, .tcancelReg G ⟨1, 0, 0, 262144⟩, .tprioImm G ⟨0, 0, 0, 23⟩,
        .tprioReg G ⟨1, 0, 0, 32⟩, .tlvrecImm G ⟨0, 9, 0, 262143⟩, .tlvrecReg G ⟨1, 9, 0, 262144⟩], Ready S5 i ∧ Clean [9, 14, 2, 1] (began S5 i))
    ∧ (let j := began S5 (.tspawn G ⟨5, 9, 0, 0⟩)
       (readS j.ctx 9).toNat % 1048576 = 192 ∧ 192 % 64 = 0 ∧ 192 + 64 ≤ bufSize 3 ∧ Owns j 3 192 64 ∧ (readBuf j.st 0 0 3 192 64).2 = false
       ∧ words8 (readBuf j.st 0 0 3 192 64).1 = tmpl ∧ templateBad tmpl = false ∧ (recOfWords tmpl Cap.zero 0 0).scope = 1
       ∧ dieOfCore (coreIn j.st 0 639) = 7 ∧ freeRec j.st 7 = some 0 ∧ freeRec j.st 0 = some 1 ∧ freeJoin j.st 0 = some 2)
    ∧ (let j := began S5 (.tsignal G ⟨14, 0, 0, 0⟩)
       (32768).testBit 15 = true ∧ sameGroup j.st 0 (joinDie 32768) = true ∧ (readS j.ctx 14).toNat % 65536 = 32768 ∧ (joinOf j.st 0 0).state = .opened
       ∧ (joinOf j.st 0 0).signals = 2 ∧ (joinOf j.st 0 0).since ≠ j.st.now + 1 ∧ (joinOf j.st 0 1).state ≠ .opened ∧ (joinOf j.st 0 2).state = .free)
    ∧ ∀ s : State, (dieOf s 0).tasks.recs = full.tasks.recs → (dieOf s 0).tasks.joins = full.tasks.joins → freeRec s 0 = none ∧ freeJoin s 0 = none := by
  refine ⟨all_clean (by decide), by unfold Owns; decide +kernel, by decide +kernel, fun s h1 h2 => ?_⟩
  simp only [freeRec, freeJoin, h1, h2, full, List.range_eq_range']
  rw [lowest_range _ _ (by rfl), lowest_range _ _ (by rfl)]
  exact ⟨rfl, rfl⟩

/-- Fork 0 of world 0: rival 1 is done in world 1, rival 2 discarded, rival 3 running in world 3. -/
def W0 : Worlds where
  ents := [(1, ⟨.done, 0, 1, 1, 0, 7, 0⟩), (3, ⟨.running, 0, 1, 3, 0, 0, 1⟩)]
  forks := [(0, ⟨0, 3, 32768, 0, [⟨1, .done, 7⟩, ⟨2, .discarded, 0⟩, ⟨3, .running, 0⟩]⟩)]
  overlays := []
  effects := []
  releasing := []
def S6 : State := { S4 with worlds := W0 }
def inWorld (w depth : Nat) : State := setAct { S4 with worlds := { W0 with ents := [(w, ⟨.running, 0, depth, 1, 0, 0, 1⟩)] } } { C4 with world := w }
theorem witness_WorldOperations :
    (∀ i ∈ [Instr.wfork G ⟨5, 0, 0, 2⟩, .wfork G ⟨5, 0, 0, 0⟩, .wtagOwn G ⟨5, 0, 0, 9⟩, .wtagQuery G ⟨5, 14, 0, 9⟩, .wchooseImm G ⟨0, 0, 0, 0⟩, .wchooseImm G ⟨0, 0, 0, 4⟩,
        .wchooseReg G ⟨0, 2, 0, 8⟩, .wdone G ⟨1, 0, 0, 0⟩, .wdiscard G ⟨0, 0, 0, 0⟩], Ready S6 i ∧ Clean [0, 1, 2, 14] (began S6 i))
    ∧ (let j := began S6 (.wfork G ⟨5, 0, 0, 2⟩)
       writesOpen j.c0 = false ∧ (worldOf j.st j.ctx.world).depth ≠ 4 ∧ 4 ≤ (freeWorlds j.st).length ∧ freeFork j.st = some 1 ∧ freeJoin j.st 0 = some 0 ∧ 4 ≤ freeCount j.st 0)
    ∧ (let s := setAct S6 { C4 with regs := { C4.regs with shadow := [⟨5, 0, .scalar 5 1#64, none, none, none, none, false, none, false⟩] } }
       Ready s (.wfork G ⟨5, 0, 0, 2⟩) ∧ writesOpen (began s (.wfork G ⟨5, 0, 0, 2⟩)).c0 = true)
    ∧ (Ready (inWorld 63 4) (.wfork G ⟨5, 0, 0, 2⟩) ∧ (worldOf (began (inWorld 63 4) (.wfork G ⟨5, 0, 0, 2⟩)).st 63).depth = 4)
    ∧ (let s := { S6 with worlds := { W0 with ents := (List.range 62).map (fun n => (n + 1, ⟨.running, 0, 1, 1, 0, 0, 1⟩)) } }
       Ready s (.wfork G ⟨5, 0, 0, 0⟩) ∧ (freeWorlds (began s (.wfork G ⟨5, 0, 0, 0⟩)).st).length < 2)
    ∧ (let s := { S6 with worlds := { W0 with forks := (List.range 32).map (fun n => (n, ⟨0, 1, 0, 0, []⟩)) } }
       Ready s (.wfork G ⟨5, 0, 0, 0⟩) ∧ 2 ≤ (freeWorlds (began s (.wfork G ⟨5, 0, 0, 0⟩)).st).length ∧ freeFork (began s (.wfork G ⟨5, 0, 0, 0⟩)).st = none)
    ∧ (∀ i ∈ [Instr.wdone G ⟨1, 0, 0, 0⟩, .wdiscard G ⟨0, 0, 0, 0⟩], (Ready (inWorld 63 3) i ∧ Clean [1] (began (inWorld 63 3) i)))
    ∧ (began (inWorld 63 3) (.wdone G ⟨1, 0, 0, 0⟩)).ctx.world ≠ 0 ∧ (began S6 (.wdone G ⟨1, 0, 0, 0⟩)).ctx.world = 0
    -- the choice: s0 is the handle of fork 0, s9 that of a fork that does not live
    ∧ (let j := began S6 (.wchooseImm G ⟨0, 0, 0, 1⟩)
       let fk := forkOf j.st (field (readS j.ctx 0).toNat 16 5)
       fk.n = 3 ∧ fk.issuer = j.ctx.world ∧ fk.job = jobIdOf j.st 0 0 ∧ forkTaken j.st 0 = false ∧ (fk.rivals.getD 0 ⟨0, .discarded, 0⟩).state = .done
       ∧ (worldOf j.st 1).live = 0 ∧ (fk.rivals.getD 1 ⟨0, .discarded, 0⟩).state = .discarded ∧ (fk.rivals.getD 2 ⟨0, .discarded, 0⟩).state ≠ .discarded
       ∧ (fk.rivals.getD 2 ⟨0, .discarded, 0⟩).state ≠ .done ∧ j.ctx.merging = none ∧ ¬ 4 ≤ fk.n)
    ∧ (∀ m ∈ [(0, 9, false), (0, 1, false), (0, 1, true)],
        let s := setAct S6 { C4 with merging := some m }
        (∀ i ∈ [Instr.wchooseImm G ⟨0, 0, 0, 1⟩, .wchooseReg G ⟨0, 2, 0, 8⟩], Ready s i ∧ Clean [0, 2] (began s i)) ∧ (actCtx s).merging = some m)
    ∧ C4.clock + 1 < 9 ∧ 1 ≤ C4.clock + 1
    ∧ (let s := setAct { S4 with worlds := { W0 with
        ents := [(1, ⟨.done, 3, 2, 1, 0, 7, 0⟩), (3, ⟨.running, 0, 1, 3, 0, 0, 1⟩)]
        forks := [(0, ⟨3, 1, 32768, 0, [⟨1, .done, 7⟩]⟩)]
        effects := [(1, [⟨2, 0, 0, 1, 0, 1, 0, 3, 0, [], [], 0⟩])] } } { C4 with world := 3, merging := some (0, 1, true) }
       Ready s (.wchooseImm G ⟨0, 0, 0, 1⟩) ∧ (began s (.wchooseImm G ⟨0, 0, 0, 1⟩)).ctx.world ≠ 0
       ∧ (mapGet (began s (.wchooseImm G ⟨0, 0, 0, 1⟩)).st.worlds.effects [] 1).length ≤ effectRoom (began s (.wchooseImm G ⟨0, 0, 0, 1⟩)).st 3) := by
  refine ⟨all_clean (by decide +kernel), ?w1, ⟨ready_of (by decide +kernel), ?w2⟩, ⟨ready_of (by decide +kernel), ?w3⟩,
    ⟨ready_of (by decide +kernel), ?w4⟩, ⟨ready_of (by decide +kernel), ?w5⟩, all_clean (by decide +kernel), ?w6,
    ?w7, ?w8, ?_, ?w9, ?w10, ready_of (by decide +kernel), ?w11⟩
  case w1 | w2 | w3 | w4 | w5 | w6 | w7 | w8 | w9 | w10 | w11 => decide +kernel
  intro m hm
  simp only [List.mem_cons, List.not_mem_nil, or_false] at hm
  obtain rfl | rfl | rfl := hm <;> exact ⟨all_clean (by decide +kernel), rfl⟩

theorem witness_SystemInstructions :
    (∀ i ∈ [Instr.trap G ⟨0, 0, 0, 4095⟩, .bkpt G ⟨0, 0, 0, 0⟩, .eret G ⟨0, 0, 0, 0⟩, .halt G ⟨0, 0, 0, 0⟩, .otinv G ⟨1, 0, 0, 0⟩], Ready S4 i ∧ Clean [1, 0] (began S4 i))
    ∧ (let j := began S4 (.eret G ⟨0, 0, 0, 0⟩)
       j.ctx.sp.cause ≠ 0x3F ∧ j.ctx.regs.shadow = [] ∧ j.ctx.sp.cause ≠ 0x1A ∧ storesPending j.st 0 0 = false)
    ∧ (let s := setAct S4 { C4 with sp := { C4.sp with cause := 0x1A, einfo := 5#64 } }
       Ready s (.eret G ⟨0, 0, 0, 0⟩) ∧ lateOpen (began s (.eret G ⟨0, 0, 0, 0⟩)).st 0 0 5 = false)
    ∧ (let s := setAct S4 { C4 with sp := { C4.sp with cause := 0x1A, einfo := 5#64 }, reqs := [⟨5, 0, 1, 0, 0, .none Row.zero, false, false, 0⟩] }
       Ready s (.eret G ⟨0, 0, 0, 0⟩) ∧ lateOpen (began s (.eret G ⟨0, 0, 0, 0⟩)).st 0 0 5 = true)
    ∧ (let s := setAct S4 { C4 with sp := { C4.sp with cause := 0x3F } }
       Ready s (.eret G ⟨0, 0, 0, 0⟩) ∧ (began s (.eret G ⟨0, 0, 0, 0⟩)).ctx.sp.cause = 0x3F)
    ∧ (let s := setActCore S4 { K3 with ms := { K3.ms with released := [Store.fresh 0 1 (.mem 0 []) [] false false] } }
       Ready s (.otinv G ⟨1, 2, 0, 0⟩) ∧ storesPending (began s (.otinv G ⟨1, 2, 0, 0⟩)).st 0 0 = true)
    ∧ ((actCtx (settleObjects S4)).resolved ≤ (settleObjects S4).now
       ∧ structural (settleObjects S4) ⟨4096, 4096, 4096, 4104, true, true, false, []⟩ [] = false
       ∧ structural (markHere (settleObjects S4) 0 0) ⟨4096, 4096, 4096, 4104, true, true, true, []⟩ [] = false)
    ∧ (let s := setAct S4 { C4 with sp := { C4.sp with hmode := false } }
       (actCtx s).sp.hmode = false)
    ∧ feature { S4 with jobs := [] } 0 0 3 = false := by
  refine ⟨all_clean (by decide), ?w1, ⟨ready_of (by decide), ?w2⟩, ⟨ready_of (by decide), ?w3⟩, ⟨ready_of (by decide), ?w4⟩,
    ⟨ready_of (by decide), ?w5⟩, ?w6, ?w7, ?w8⟩
  case w1 | w2 | w3 | w4 | w5 | w6 | w7 | w8 => decide +kernel

theorem witness_TrapEntry :
    (ctxOf State.reset 0 0).sp.hmode = false ∧ (ctxOf S4 0 0).sp.hmode = true ∧ (S4.cores.map (·.1)).Pairwise (· < ·)
    ∧ (∃ h : Ctx, h.aside = (enterTrap C4 1 2 3 4 none 5).aside) := ⟨by decide, by decide, by decide, _, rfl⟩

/-- A context image at 262208, whose word 8 names the body 1; record 1 of die 0 is the parked task. -/
def image (body core : Nat) : List Nat := [72 + core * 2 ^ 32 + 2 ^ 45, 8192, 1, 0, 0, 0, 0, 0, body]
def saved (ended : Bool) : Saved := ⟨{ Ctx.init with status := .parked, task := some (0, 1) }, [], [], some (0, 1), ended⟩
def D1 : Die := { Die.init with tasks := { Tasks.init with recs := [(0, { TaskRec.init with state := .bound }), (1, { TaskRec.init with state := .bound, ctx := some (0, 1) })] } }
def withImage (body : Nat) (is : List Saved) : State :=
  setCtx (setDie { S4 with mem := setBytes mem0 262208 (words (image body 0)), images := is } 0 D1) 0 1 { Ctx.init with status := .parked, task := some (0, 1) }
theorem witness_ContextImages :
    (∀ i ∈ [Instr.ctxsave G ⟨4, 0, 0, 8 + 16⟩, .ctxsave G ⟨4, 0, 0, 8 + 16 + 4096⟩, .ctxsave G ⟨4, 0, 0, 7 + 16⟩, .restore G ⟨4, 0, 0, 16⟩],
      Ready (withImage 1 []) i ∧ Clean [4] (began (withImage 1 []) i))
    ∧ (let j := began (withImage 1 []) (.ctxsave G ⟨4, 0, 0, 8 + 16⟩)
       mxOpen j.st 0 0 = false ∧ okB (j.locate 1 64 (imageLen j.st 0 0) 64 rSTORE 0 true 0x16 none) (fun r => memB r.2 (fun ps => !ps.isEmpty && soundB r.1)) = true)
    ∧ (let j := began (withImage 1 []) (.ctxsave G ⟨4, 0, 0, 7 + 16⟩)
       okB (j.locate 1 64 (imageLen j.st 0 7) 64 rSTORE 0 true 0x16 none) (fun r => memB r.2 (fun ps => !ps.isEmpty && soundB r.1)) = true)
    ∧ (let m : MxOp := ⟨0, 0x14, 0, 0, 0, 0, 0, 0#128, 1, 0, 0, 0, 0, 0, false, 0, 0, 0, 0, none, none, [], [], 0, [], [], [], []⟩
       let s := setActCore S4 { K3 with mx := { K3.mx with q := [m] } }
       Ready s (.ctxsave G ⟨4, 0, 0, 8⟩) ∧ mxOpen (began s (.ctxsave G ⟨4, 0, 0, 8⟩)).st 0 0 = true)
    ∧ (∀ v ∈ [(1, [saved false]), (1, [saved true]), (0, []), (1, [])],
        let s := withImage v.1 v.2
        let j := began s (.restore G ⟨4, 0, 0, 16⟩)
        readyB s (.restore G ⟨4, 0, 0, 16⟩) = true ∧ lowestDormant j.st 0 = some 2
        ∧ okB (j.locate 1 64 72 64 rLOAD 0 false 0x16 none) (fun r => memB r.2 (fun ps => !ps.isEmpty && soundB r.1
          && (leVal ((r.1.peekMem ps).take 8) == 72 + 2 ^ 45) && (leVal (((r.1.peekMem ps).drop 8).take 8) == 8192)
          && (leVal (((r.1.peekMem ps).drop 16).take 8) == 1) && (leVal (((r.1.peekMem ps).drop 64).take 8) == v.1)
          && ((r.1.peekMem ps).drop 32).take 32 == List.replicate 32 0#8 && (parkedAt r.1.st 0 1).isSome
          && okB (r.1.locate 1 64 72 64 rLOAD 0 false 0x16 none) (fun q => soundB q.1))) = true)
    ∧ (field (72 + 2 ^ 45) 0 32 ≤ 2129984 ∧ field (72 + 2 ^ 45) 32 10 = 0 ∧ field (72 + 2 ^ 45) 45 1 = 1 ∧ field (72 + 2 ^ 45) 48 16 = 0)
    ∧ (let s := setCtx { withImage 1 [] with mem := setBytes mem0 262208 [255#8, 255#8, 255#8, 255#8] } 0 1 Ctx.init
       Ready s (.restore G ⟨4, 0, 0, 16⟩) ∧ ¬ field (2 ^ 32 - 1) 0 32 ≤ 2129984)
    ∧ (let s := (List.range 8).foldl (fun s x => setCtx s 0 x { ctxOf s 0 x with status := .bound }) (withImage 1 [])
       Ready s (.restore G ⟨4, 0, 0, 16⟩) ∧ lowestDormant (began s (.restore G ⟨4, 0, 0, 16⟩)).st 0 = none)
    ∧ (Ready S4 (.ertq G ⟨5, 1, 0, 0⟩) ∧ Clean [1] (began S4 (.ertq G ⟨5, 1, 0, 0⟩))
       ∧ (let j := began S4 (.ertq G ⟨5, 1, 0, 0⟩)
          j.core.ms.loads.find? (fun l => l.ctx == j.st.cx && l.dst == ertMarker) = none
          ∧ objByte j.st j.die (ertObj j.st j.die) (ertOff j.st j.die ((readS j.ctx 1).toNat % 2 ^ 24)) = none))
    ∧ (let s := { S4 with mem := setBytes mem0 65536 (leBytes 8 (2 + 2 * 2 ^ 24 + 2 ^ 48)) }
       (objByte (began s (.ertq G ⟨5, 0, 0, 0⟩)).st 0 (ertObj s 0) (ertOff s 0 0)).isSome = true ∧ Ready s (.ertq G ⟨5, 0, 0, 0⟩))
    ∧ (∀ v ∈ [(none, none), (some ([], false, false), some 0)],
        let l : LoadReq := ⟨0, 0, 16, 0, 0, [], [], ertMarker, false, false, false, none, none, v.2, v.1⟩
        let s := setActCore S4 { K3 with ms := { K3.ms with loads := [l] } }
        let j := began s (.ertq G ⟨5, 1, 0, 0⟩)
        readyB s (.ertq G ⟨5, 1, 0, 0⟩) = true ∧ j.core.ms.loads.find? (fun l => l.ctx == j.st.cx && l.dst == ertMarker) = some l
        ∧ (l.fin.any (fun t => t ≤ j.st.now)) = v.2.isSome) := by
  refine ⟨all_clean (by decide +kernel), ?w1, ?w2, ⟨ready_of (by decide +kernel), ?w3⟩, ?w4, ?w5,
    ⟨ready_of (by decide +kernel), ?w6⟩, ⟨ready_of (by decide +kernel), ?w7⟩,
    ⟨ready_of (by decide +kernel), (all_clean (ns := [1]) (l := [.ertq G ⟨5, 1, 0, 0⟩]) (by decide +kernel) _ (List.mem_singleton.mpr rfl)).2, ?w8⟩,
    ⟨?w9, ready_of (by decide +kernel)⟩, ?w10⟩
  case w1 | w2 | w3 | w4 | w5 | w6 | w7 | w8 | w9 | w10 => decide +kernel

/-! ### The Shuttle -/

/-- The residency table of die 0 stands in object 1, four experts of one layer: LOCAL, REMOTE at this module, ABSENT, and a reserved state; the tiles in its
second extent. x3 and x4 hold the operands, x5 all ones. -/
def ert0 : List Host.Cell :=
  setBytes mem0 262144 (words [1, 0] ++ words [2, 0] ++ words [0, 0] ++ words [5, 0])
def dieS (a b : Nat) (ex : Experts) : Die := { Die.init with
  ex := ex, sh := { Shuttle.init with x := [(3, BitVec.ofNat 64 a), (4, BitVec.ofNat 64 b), (5, BitVec.allOnes 64)], running := true }
  xr := [(0x7C0, 1), (0x7C3, 65536), (0x7C5, 1 + 4 * 2 ^ 26)] }
def shS (a b : Nat) (ex : Experts := Experts.init) : State := setDie { st C0 K0 with mem := ert0 } 0 (dieS a b ex)
def goodB (s : State) (w : Nat) : Bool := (field w 0 16 == 65535 || decide (field w 0 16 < nexp s 0)) && decide (field w 16 8 ≤ nlay s 0)
def stOf (s : State) (w : Nat) : Nat := ertState (ertGet s 0 (w % 2 ^ 24))
theorem witness_ShuttleCustom :
    -- GQPOP: an empty queue, a record, a misaligned and an outlying operand
    ((xOf (shS 65472 0) 3).toNat % 64 = 0 ∧ (xOf (shS 65472 0) 3).toNat + 64 ≤ 65536 ∧ (exOf (shS 65472 0) 0).gate = []
      ∧ (exOf (shS 0 0 { Experts.init with gate := [(1, [])] }) 0).gate = [(1, [])]
      ∧ (xOf (shS 1 0) 3).toNat % 64 ≠ 0 ∧ (xOf (shS 65536 0) 3).toNat % 64 = 0 ∧ 65536 < (xOf (shS 65536 0) 3).toNat + 64)
    -- RRPUT and PARK by the entry: unknown expert and layer, unrouted, each state
    ∧ (goodB (shS 0 4) 4 = false ∧ goodB (shS 0 65536) 65536 = false ∧ goodB (shS 0 65535) 65535 = true ∧ goodB (shS 0 3) 3 = true)
    ∧ (stOf (shS 0 0) 0 = 1 ∧ stOf (shS 0 1) 1 = 2 ∧ stOf (shS 0 2) 2 = 0 ∧ stOf (shS 0 3) 3 = 5)
    ∧ (filterAsk Experts.init 0 = .fresh ∧ filterAsk { Experts.init with newest := some 2 } 0 = .duplicate
      ∧ filterAsk { Experts.init with newest := some 0, keysNew := List.range' 1 8192 } 0 = .full)
    ∧ (let s := { shS 0 0 with mem := setBytes ert0 262144 (words [1, 1 * 2 ^ 24 + 1 * 2 ^ 36]) }
       let e := ertGet s 0 0
       ertState e = 1 ∧ field e 88 12 ≠ 0 ∧ field e 112 8 = roundOf 0 ∧ field e 88 12 ≤ field e 100 12)
    ∧ (field (ertGet (shS 0 0) 0 0) 88 12 = 0 ∧ (placeRow (shS 0 0) 0 0 0).isSome = true ∧ rrFwd 0 = false ∧ rrFwd (2 ^ 24) = true)
    ∧ (let s := shS 0 0 { Experts.init with tiles := (List.range 64).map (fun j => (j, ⟨1, [(0#64, 0)], false, none⟩)) }
       (placeRow s 0 0 0).isNone = true)
    ∧ ((exOf (shS 0 2) 0).drawer.length < 8192 ∧ 8192 ≤ ({ Experts.init with drawer := List.replicate 8192 (0#64, 2#64) } : Experts).drawer.length)
    -- UNPARK and DTILE
    ∧ (keyGood (shS 4 0) 0 4 = false ∧ keyGood (shS 3 0) 0 3 = true ∧ ertState (ertGet (shS 3 0) 0 3) = 5 ∧ ertState (ertGet (shS 2 0) 0 2) = 0
      ∧ ertState (ertGet (shS 0 0) 0 0) = 1 ∧ (exOf (shS 0 0) 0).drawer.all (fun r => decide (rrKey r.2.toNat ≠ 0)) = true ∧ (shOf (shS 0 0) 0).placed = 0)
    ∧ (let s := shS 0 0 { Experts.init with drawer := [(0#64, 0#64)] }
       (exOf s 0).keysNew.length + 1 ≤ 8192 ∧ (unparkRows s 0 0 2 0).2.2 = true)
    ∧ (let x : Experts := { Experts.init with drawer := [(0#64, 0#64)], newest := some 0, keysNew := List.range' 1 8192 }
       ((x.drawer.filter (fun r => rrKey r.2.toNat == 0)).filter (fun r => !rrFwd r.2.toNat && filterAsk x r.1.toNat != .duplicate)).length ≠ 0
       ∧ 8192 < x.keysNew.length + 1)
    ∧ (BitVec.ofNat 64 4 ≠ BitVec.allOnes 64 ∧ openTile (shS 0 0) 0 0 = none
      ∧ (let s := shS 0 0 { Experts.init with tiles := [(63, ⟨0, [(0#64, 0)], false, none⟩)] }
         openTile s 0 0 = some 63)
      ∧ xOf (shS 0 0) 5 = BitVec.allOnes 64)
    -- FWDROW, ERTGET and ERTSET
    ∧ (field (ertGet (shS 0 1) 0 1) 3 6 = Config.moduleNumber
      ∧ field (ertGet { shS 0 1 with mem := setBytes ert0 262160 (words [2 + 5 * 8, 0]) } 0 1) 3 6 ≠ Config.moduleNumber)
    ∧ ((xOf (shS 0 65520) 4).toNat % 16 = 0 ∧ (xOf (shS 0 65520) 4).toNat + 16 ≤ 65536 ∧ (xOf (shS 0 8) 4).toNat % 16 ≠ 0
      ∧ field (xOf (shS 3 0) 3).toNat 24 6 = Config.moduleNumber ∧ field (xOf (shS (2 ^ 24) 0) 3).toNat 24 6 ≠ Config.moduleNumber
      ∧ (shOf (shS 0 0) 0).asked = none ∧ peerDown (setDie (shS 0 0) 0 { dieS 0 0 Experts.init with regs := [(0x0760, 2)] }) 0 1 = true)
    ∧ (∃ h : Shuttle, h.asked = some 4096 ∧ h.answer = some (List.replicate 16 0#8)) := by
  refine ⟨?w1, ?w2, ?w3, ?w4, ?w5, ?w6, ?w7, ?w8,
    ?w9, ?w10, ?w11, ?w12, ?w13, ?w14,
    { Shuttle.init with asked := some 4096, answer := some (List.replicate 16 0#8) }, rfl, rfl⟩
  case w1 | w2 | w3 | w4 | w5 | w6 | w7 | w8 | w9 | w10 | w11 | w12 | w13 | w14 => decide +kernel

/-! ### Events -/

def bound (prio : Nat) : Ctx := { C0 with sp := { Special.init with prio := prio } }
def noHold (s : State) (exch : Nat) : State := setCore s 0 { K0 with holder := none, exchLeft := exch, lastIssued := 6 }
theorem witness_IssueChoice :
    (let s := noHold (setCtx (setCtx S0 0 0 (bound 3)) 0 7 (bound 3)) 4
     (coreOf s 0).holder = none ∧ swapping s 0 = false ∧ isCandidate s 0 7 = true ∧ isCandidate s 0 0 = true
     ∧ ∀ y, y < 8 → isCandidate s 0 y = true → prioOf s 0 y < prioOf s 0 7
       ∨ (prioOf s 0 y = prioOf s 0 7 ∧ (7 + 8 - ((coreOf s 0).lastIssued + 1) % 8) % 8 ≤ (y + 8 - ((coreOf s 0).lastIssued + 1) % 8) % 8))
    ∧ (let s := noHold { State.reset with ga := { Garod.init with boot := 3 } } 0
       (coreOf s 0).holder = none ∧ swapping s 0 = false ∧ (∀ y, y < 8 → isCandidate s 0 y = false) ∧ (coreOf s 0).exchLeft = 0)
    ∧ (let s := setCtx (setCtx S0 0 0 (bound 3)) 0 7 (bound 7)
       (coreOf s 0).holder = some 0 ∧ (coreOf s 0).exchLeft ≠ 1 ∧ (coreOf s 0).syncWait = none ∧ (ctxOf s 0 0).sp.hmode = false ∧ isVictim s 0 0 = false
       ∧ pgap (dieOf s (dieOfCore 0)) = 4 ∧ isCandidate s 0 7 = true ∧ prioOf s 0 0 + 4 ≤ prioOf s 0 7 ∧ (ctxOf s 0 0).stalled = 0)
    ∧ ((coreOf S0 0).holder = some 0 ∧ (ctxOf S0 0 0).sp.hmode = true ∧ isVictim S0 0 0 = false) := by
  and_intros <;> decide +kernel

theorem witness_OutsideCauses :
    (let s := setCtx S0 0 0 { bound 3 with pendA := [(0x30, 1), (0x26, 2), (0x26, 3)] }
     (coreOf s 0).holder = some 0 ∧ (coreOf s 0).syncWait = none ∧ (ctxOf s 0 0).status = .bound ∧ (ctxOf s 0 0).sp.hmode = false
     ∧ (ctxOf s 0 0).pendA = [(0x30, 1)] ++ (0x26, 2) :: [(0x26, 3)] ∧ (∀ q ∈ [(0x30, 1)], 0x26 < q.1) ∧ ∀ q ∈ [((0x26 : Nat), (3 : Nat))], 0x26 ≤ q.1)
    ∧ (let s := setCore (setCtx S0 0 0 (bound 3)) 0 { K0 with heldOff := 65536 }
       (coreOf s 0).holder = some 0 ∧ 65536 ≤ (coreOf s 0).heldOff ∧ (ctxOf s 0 0).sp.hmode = false)
    ∧ (let s := setCore { setCtx S0 0 0 (bound 3) with now := 2 ^ 20 } 0 { K0 with syncWait := some (1, 0) }
       (coreOf s 0).holder = some 0 ∧ (coreOf s 0).syncWait = some (1, 0) ∧ 0 + 2 ^ 20 ≤ s.now ∧ (ctxOf s 0 0).sp.hmode = false)
    ∧ (actCtx (setCtx S0 0 0 (bound 3))).sp.hmode = false
    ∧ ((ctxOf S0 0 0).task ≠ none ∧ (ctxOf S0 0 0).status ≠ .ending ∧ (ctxOf S0 0 0).status ≠ .parked) := by
  and_intros <;> decide +kernel

theorem witness_CoreUpkeep :
    (let p : Pend := ⟨0, 0, .scalar 63 1#64, none, none, none, none, false, none, false⟩
     let s := setCtx S0 0 7 { C0 with regs := { Regs.init with shadow := [p] } }
     (ctxOf s 0 7).status = .bound ∧ (63 : Nat) ≠ 0 ∧ (ctxOf s 0 7).regs.shadow = [p] ∧ p.due ≤ (ctxOf s 0 7).clock
     ∧ p = { p with what := .scalar 63 1#64, waits := none, ring := none, note := none, acq := false, struck := false })
    ∧ (let e : Exchange := ⟨7, 47, 0⟩
       let im : Nat → Image := fun n => ⟨n, 0, []⟩
       let s := setCore S0 0 { K0 with vrf := { K0.vrf with owner := [(47, 8)], exch := some e, images := im 0 :: (List.range' 1 47).map im } }
       (coreOf s 0).vrf.exch = some e ∧ e.fin ≤ s.now ∧ (coreOf s 0).vrf.images = im 0 :: (List.range' 1 47).map im ∧ 48 ≤ (coreOf s 0).vrf.images.length
       ∧ bankOwner (coreOf s 0).vrf e.bank ≠ 0)
    ∧ (let o : Occ := ⟨1, 2, 3, 4, 5⟩
       let s := setCore { S0 with mem := mem0 } 0 { K0 with occ := [(255, o)], counted := 1 }
       s.now < (coreOf s 0).counted ∧ memWf s.mem = true ∧ (coreOf s 0).occ = [(255, o)] ∧ o ≠ Occ.init
       ∧ s.jobs.find? (fun j => j.2.running && j.2.part + (if j.2.standby then 8 else 0) == (coreOf s 0).part) = some (0, J0))
    ∧ dormant S0 0 < 8
    ∧ (let s := setCore S0 0 { K0 with part := 0, bufs := { K0.bufs with region := [(5, 2)] } }
       regionForeign s 0 5 = true)
    ∧ (let s := setCore S0 0 { K0 with bufs := { K0.bufs with region := [(5, 2)] }, ms := { K0.ms with objWait := [(9, 3)] } }
       spillTarget s 0 = some 5 ∧ (9, 3) ∈ (coreOf s 0).ms.objWait) := by
  and_intros <;> decide +kernel

def rec0 : TaskRec := { TaskRec.init with state := .ready, entry := 4096, prio := 23 }
def dieT (t : Tasks) : Die := { Die.init with tasks := t }
theorem witness_TaskUnit :
    (let s := setDie S0 0 (dieT { Tasks.init with recs := [(16383, rec0)], rings := [(23, { Ring.init with order := [subqueueOf rec0] })] })
     taskOf s 0 16383 = rec0
     ∧ (∀ p ∈ (dieOf s 0).tasks.recs, p.2.state = .ready → recCancelled s p.2 = false) ∧ (dieOf s 0).tasks.recs ≠ []
     ∧ (∀ l, l < 24 → eligible s 0 l = (if l = 23 then [(subqueueOf rec0, 0, 16383)] else []))
     ∧ subqueueOf rec0 ∈ (mapGet (dieOf s 0).tasks.rings Ring.init 23).order)
    ∧ (let s := setDie S0 0 (dieT { Tasks.init with recs := [(1, rec0)], flights := [⟨1, 0, 0⟩] })
       (dieOf s 0).tasks.flights = [⟨1, 0, 0⟩] ∧ 0 ≤ s.now ∧ (taskOf s 0 1).state = .ready ∧ recCancelled s (taskOf s 0 1) = false ∧ lowestDormant s 0 = some 1
       ∧ (taskOf s 0 1).rival = none ∧ (taskOf s 0 1).msg = none)
    ∧ (let s := setDie S0 0 (dieT { Tasks.init with recs := [(1, { rec0 with state := .held })], joins := [(0, ⟨.opened, 0, 0, 0, 0⟩), (1, ⟨.sealed, 3, 4, 1, 0⟩), (2, ⟨.sealed, 2, 4, 1, 0⟩)] })
       (joinOf s 0 4095).state = .free ∧ (joinOf s 0 0).state = .opened ∧ ((joinOf s 0 2).state = .sealed ∧ (joinOf s 0 2).signals + 1 ≠ (joinOf s 0 2).expect)
       ∧ ((joinOf s 0 1).state = .sealed ∧ (joinOf s 0 1).signals + 1 = (joinOf s 0 1).expect ∧ (taskOf s 0 (joinOf s 0 1).cont).state = .held
         ∧ (dieOf s 0).tasks.waiting = []))
    ∧ (let w : Waiting := ⟨0, 0, 0, .ready 0 1⟩
       let s := setDie S0 0 (dieT { Tasks.init with recs := [(1, { rec0 with state := .held })], waiting := [w] })
       w ∈ (dieOf s 0).tasks.waiting ∧ w.act = .ready 0 1 ∧ actDue s w = true ∧ (taskOf s 0 1).state = .held ∧ recCancelled s (taskOf s 0 1) = false)
    ∧ (let w : Waiting := ⟨0, 0, 0, .complete 7 0 1⟩
       let s := setDie S0 0 (dieT { Tasks.init with recs := [(1, { rec0 with state := .held })], waiting := [w] })
       completion s 7 = some (0, w) ∧ w.act = .complete 7 0 1 ∧ (taskOf s 0 1).state = .held ∧ (taskOf s 0 1).world = 0
       ∧ ∀ q ∈ levelsOfRec (taskOf s 0 1), (levelOf s q).cancel = false ∧ (levelOf s q).live < 2 ^ 24 - 1) := by
  and_intros <;> decide +kernel

def cmd0 (kind : CmdKind) (desc : Desc) : Cmd :=
  ⟨kind, 15, 2, cap 1, 1, 0, desc, 0, 4096, none, none, 0, [0, 0, 0, 0, 0, 0], 0, 0, [], none, 0, none, 0, none⟩
def descA : Desc := descOf [2 * 16 + 4 * 256, 0, 64]
def withCopy (ms : List Cmd) : State := setAct S3 { C3 with eng := { C3.eng with copy := ms } }
theorem witness_TaskEndAndPreemption :
    (let s := setCtx S0 0 7 { C0 with status := .ending, task := some (7, 16383) }
     let c := ctxOf s 0 7
     c.status = .ending ∧ c.task = some (7, 16383) ∧ (∀ t ∈ (coreOf s 0).ms.released ++ (coreOf s 0).ms.gated, t.ctx ≠ 7) ∧ (∀ a ∈ (coreOf s 0).ms.atoms, a.ctx ≠ 7)
     ∧ c.eng = Engines.init ∧ (∀ q ∈ c.reqs, q.kind = 0) ∧ (∀ f ∈ s.worlds.releasing, f.core ≠ 0 ∨ f.ctx ≠ 7) ∧ c.saves = [] ∧ mxOpen s 0 7 = false)
    ∧ (let v : TaskRec := { rec0 with scope := 3 }
       let s := (List.range 8).foldl (fun s x => setCtx s 0 x (bound (10 + x))) (setDie S0 0 (dieT { Tasks.init with recs := [(1, v)], rings := [(23, { Ring.init with order := [subqueueOf v] })], view := [(0, 0)] }))
       taskOf s 0 1 = v ∧ starvedTask s 0 = some 1 ∧ chosenNow s 0 0 = false
       ∧ (0 ∈ scopeCores s 0 v ∧ pgap (dieOf s (dieOfCore 0)) ≠ 0 ∧ hasStandby s (dieOfCore 0) = false ∧ victimOk s 0 0 v.prio = true)
       ∧ ∀ k' ∈ scopeCores s 0 v, ∀ x', x' < 8 → (k' = 0 ∧ prioOf s 0 0 ≤ prioOf s k' x'))
    ∧ (let s := setCtx (setDie S0 0 (dieT { Tasks.init with recs := [(1, rec0)], preempts := [⟨1, 0, 7, some 0, 0⟩] })) 0 7 (bound 3)
       (dieOf s 0).tasks.preempts = [⟨1, 0, 7, some 0, 0⟩] ∧ (∀ e, e < 8 → e ≠ 0 → (dieOf s e).tasks.preempts = []) ∧ 0 ≤ s.now ∧ (ctxOf s 0 7).status = .bound
       ∧ recCancelled s (taskOf s 0 1) = false ∧ (taskOf s 0 1).state = .ready)
    ∧ (let s := setCore (setDie S0 0 (dieT { Tasks.init with preempts := [⟨16384, 0, 7, some 0, 0⟩] })) 0 { K0 with vrf := { K0.vrf with area := [(7, bound 3)] } }
       (dieOf s (dieOfCore 0)).tasks.preempts = [⟨16384, 0, 7, some 0, 0⟩] ∧ mapGet (coreOf s 0).vrf.area Ctx.init 7 = bound 3 ∧ (bound 3).task ≠ none)
    ∧ (let s : State := setDie { (State.reset : State) with now := 9, cores := (List.range 8).map (fun k => (k, { Core.init k with lines := 32768, arrived := 32768 })) } 0
         (dieT { Tasks.init with releases := [(releaseKey 15 0, 9)] })
       mapGet (dieOf s 0).tasks.releases 0 (releaseKey 15 0) = 9 ∧ 9 ≤ s.now ∧ ∀ k ∈ segCores s 0 15 0, takesPart s 15 k = true)
    ∧ (let s : Nat → State := fun src => setDie State.reset 0 { Die.init with regs := [(0x3300, 0xFFFFFFFF + src * 2 ^ 36)] }
       ∀ src, 1 ≤ src → src ≤ 5 → countersOf (s src) 0 src = [0] ∧ field (regRaw (dieOf (s src) 0) 0x3300) 33 1 = 0 ∧ 0 < regRaw (dieOf (s src) 0) 0x3100 + 1
        ∧ regRaw (dieOf (s src) 0) 0x3100 + (2 ^ 32 - 1) < 2 ^ 32) := by
  refine ⟨?w1, ?w2, ?w3, ?w4, ?w5, ?_⟩
  case w1 | w2 | w3 | w4 | w5 => decide +kernel
  intro s src h1 h2
  obtain rfl | rfl | rfl | rfl | rfl : src = 1 ∨ src = 2 ∨ src = 3 ∨ src = 4 ∨ src = 5 := by omega
  all_goals decide +kernel

theorem witness_EnginesAtWork :
    (let m := cmd0 .cpy descA
     ((ctxOf (withCopy [{ m with guard := some (0, 63, true) }]) 0 0).eng.queue 0 = [{ m with guard := some (0, 63, true) }])
     ∧ ((ctxOf (withCopy [{ m with guard := some (9, 63, true), headAt := some 0 }]) 0 0).eng.queue 0 = [{ m with guard := some (9, 63, true), headAt := some 0 }])
     ∧ ((ctxOf (withCopy [{ m with upc := 2 }]) 0 0).eng.queue 0 = [{ m with upc := 2 }] ∧ (ctxOf (withCopy [{ m with upc := 2 }]) 0 0).world = 0 ∧ m.desc.dsp ≠ 8)
     ∧ ((ctxOf (withCopy [m]) 0 0).eng.queue 0 = [m] ∧ m.guard = none ∧ m.fault = none ∧ m.upc = 0 ∧ cmdOrdered (withCopy [m]) 0 0 m = true ∧ m.sent = 0
        ∧ m.desc.dsp ≠ 8 ∧ m.desc.ssp ≠ 7 ∧ m.desc.dsp ≠ 7 ∧ m.desc.ssp ≠ 0 ∧ m.desc.dsp ≠ 0 ∧ m.word = 0
        ∧ okB (checkRun (withCopy [m]) 0 0 m (m.at_ m.desc.ssp (m.desc.src m.run)) (m.at_ m.desc.dsp (m.desc.dst m.run))) (fun _ => true) = true))
    ∧ (let m := cmd0 .cpy (descOf [5 * 256, 0, 64])
       let s := withCopy [m]
       (ctxOf s 0 0).eng.queue 0 = [m] ∧ cmdOrdered s 0 0 m = true ∧ m.desc.ssp = 0 ∧ m.desc.dsp = 5
       ∧ okB (checkRun s 0 0 m (m.at_ 0 (m.desc.src m.run)) (m.at_ 5 (m.desc.dst m.run))) (fun _ => true) = true
       ∧ okB (engSpan s 0 8 m.cap (m.at_ 0 (m.desc.src m.run) + 4 * m.word) (m.beatBytes (m.at_ 0 (m.desc.src m.run)) (m.at_ 5 (m.desc.dst m.run)))
          (cmdRights m rLOAD) (cmdWorld s 0 0 m) false) (fun ps => farDie 0 ps == none) = true
       ∧ (bindSlot s 0).2 = s.now)
    ∧ (let m := cmd0 (.gqpush (List.replicate 64 0#8) 0) Desc.none
       let s := setAct S3 { C3 with eng := { C3.eng with gq := [m] } }
       (ctxOf s 0 0).eng.queue 7 = [m] ∧ m.guard = none ∧ m.fault = none ∧ m.upc = 0 ∧ (ctxOf s 0 0).world = 0 ∧ cmdOrdered s 0 0 m = true ∧ gateCount (exOf s (dieOfCore 0)) < 1024)
    ∧ (let u : Bool → Sub := fun store => ⟨store, { cmd0 .cpy descA with upc := 1, fin := some 0 }, 3, 128, 0, none, false, [], false⟩
       (∀ b, let s := setAct S3 { C3 with eng := { C3.eng with subs := [u b] } }
         (ctxOf s 0 0).eng.subs[0]? = some (u b) ∧ (u b).cmd.guard = none ∧ (u b).cmd.fault = none ∧ (u b).cmd.upc = 1 ∧ (u b).draining = []
         ∧ (u b).cmd.fin = some 0 ∧ 0 ≤ s.now ∧ beatsOpen (setSub s 0 0 0 (u b)) 0 (u b).cmd.seq = false))
    ∧ (let p : Port := { Port.init with armed := true, cnts := [1], strs := [32], buf := 1 }
       let s := setAct S3 { C3 with regs := { C3.regs with ports := [(7, p)] } }
       let q := portOf (ctxOf s 0 0) 7
       q.armed = true ∧ q.write = false ∧ q.swz = false ∧ q.start ≤ s.now ∧ q.got.length < 8 ∧ q.fpos < walkLength q.cnts)
    ∧ (let m : MxOp := ⟨0, 0x14, 0, 0, 0, 0, 0, 0#128, 1, 0, 0, 0, 0, 0, false, 0, 0, 0, 0, some 0, some 0, [], [], 0, [], [], [], []⟩
       let s := setActCore S3 { K3 with mx := { K3.mx with q := [m] } }
       (coreOf s 0).mx.q = [m] ∧ m.fin = some 0 ∧ 0 ≤ s.now)
    ∧ (let l : WLoad := ⟨0, 1, 64, 2, 0, true, false, false, some 0, some 0⟩
       let s := setActCore S3 { K3 with mx := { K3.mx with wl := [l] } }
       (coreOf s 0).mx.wl = [l] ∧ l.done = false ∧ l.fin = some 0)
    ∧ (let w := [3 * 16, 1, 0, 4096, 1, 0, 0, 0]
       let m := { cmd0 (.coll w) Desc.none with upc := 1 }
       let s := setAct S3 { C3 with eng := { C3.eng with coll := [m] } }
       let rights := rLOAD ||| rSTORE ||| rENGINE
       let ch := collChunks 0 1
       let size := elemBits 3 / 8 * field 1 0 32
       (ctxOf s 0 0).eng.coll = [m] ∧ 0 < ch.1 * size ∧ 0 < ch.2 * size ∧ (List.range 64).filter (fun j => field 1 j 1 = 1) = [0] ∧ (0 : Nat) = Config.moduleNumber
       ∧ okB (readSide s 0 48 0 0 m.cap 0 (ch.1 * size) 0 rights) (fun r => r.2.all (fun b => !b.2)
          && okB (checkSide r.1 0 48 0 0 m.cap 4096 (ch.2 * size) 0 rights) (fun _ => true)) = true
       ∧ okB (collCap m) (fun _ => true) = true)
    ∧ (let w := [3 * 16, 3, 0, 4096, 1, 0, 0, 0]
       let bs := words w ++ leBytes 4 7
       (∀ p ∈ [((1 : Nat), bs)], field (w.getD 1 0) p.1 1 = 1)
       ∧ (∀ j ∈ (List.range 64).filter (fun j => field (w.getD 1 0) j 1 = 1), j ≠ Config.moduleNumber →
          ∃ p ∈ [(1, bs)], p.1 = j ∧ (collChunks 0 2).1 * (elemBits 3 / 8 * 1) + 64 ≤ p.2.length ∧ collKey (words8 (p.2.take 64)) = collKey w)) := by
  refine ⟨?w1, ?w7, ?w2, ?_, ?w3, ?w4, ?w5, ?w6, ?w8⟩
  case w1 | w2 | w3 | w4 | w5 | w6 | w7 | w8 => decide +kernel
  intro u b
  cases b <;> decide +kernel

def store1 : Store := { Store.fresh 0 1 (.mem 0 [(262144, 196608, 1)]) [1#8] false false with fin := some 0, seq := 5 }
def withReleased (ts : List Store) : State := setActCore S3 { K3 with ms := { K3.ms with released := ts } }
theorem witness_RequestsPerformed :
    ((coreOf (withReleased [store1]) 0).ms.released = [store1] ∧ reqReady (withReleased [store1]) 0 store1.fin store1.view false = true
      ∧ flagBefore (coreOf (withReleased [store1]) 0) store1.ctx store1.cls store1.seq = false)
    ∧ (let m : AtomReq := ⟨0, 1, 0, 8, 0, [(262144, 196608, 8)], 1#64, 0#64, none, 0, 2, 3, 0, none, some 0, some 0⟩
       let s := setActCore S3 { K3 with ms := { K3.ms with atoms := [m] } }
       (coreOf s 0).ms.atoms = [m] ∧ reqReady s 0 m.fin m.view (2 ≤ m.ord) = true)
    ∧ (let m : AtomReq := ⟨0, 16, 18, 8, 0, [(262144, 196608, 8)], 1#64, 65535#64, none, 0, 0, 0, 0, none, some 0, some 0⟩
       let s := setActCore S3 { K3 with ms := { K3.ms with atoms := [m] } }
       (coreOf s 0).ms.atoms = [m] ∧ reqReady s 0 m.fin m.view (2 ≤ m.ord) = true ∧ m.op = 18 ∧ flagHeld s 0 m = false)
    ∧ (let t : Store := { Store.fresh 0 1 (.mem 0 [(2 ^ 37, 196608, 1)]) [1#8] false false with reach := some 0 }
       let c : Core := { K3 with ms := { K3.ms with released := [t] } }
       ({ S3 with cores := [(0, c)] } : State).cores = [(0, c)] ∧ 0 ≤ S3.now ∧ c.ms.released = [t] ∧ c.ms.atoms = [] ∧ c.ms.loads = [] ∧ t.reach = some 0 ∧ farDie 0 (storePieces t) = some 1)
    ∧ (let h : HeldReq := ⟨15, 63, 0, 5, 0, 0, false⟩
       let s := setDie { withReleased [store1] with now := 127 } 7 { Die.init with held := [h] }
       stackHeld s 15 = false ∧ (dieOf s (15 / 2)).held = [h] ∧ h.stack = 15 ∧ h.slot % 64 = s.now % 64 ∧ (coreOf s h.core).ms.released = [store1] ∧ store1.seq = h.seq)
    ∧ (let l : LoadReq := ⟨0, 16384, 1, 0, 0, [], [], .scalar 63 0#64, false, false, false, none, some 0, some 0, some ([1#8], false, false)⟩
       let s := setActCore (setAct S3 { C3 with regs := { C3.regs with sMark := [(63, .late 16384)] } }) { K3 with ms := { K3.ms with loads := [l] } }
       (coreOf s 0).ms.loads = [l] ∧ l.ctx = 0 ∧ l.key = 16384 ∧ l.exact = false ∧ l.got = some ([1#8], false, false) ∧ l.fin = some 0 ∧ 0 ≤ s.now ∧ (ctxOf s 0 0).status = .bound
       ∧ (∀ r ∈ (ctxOf s 0 0).reqs, r.tag ≠ 16384) ∧ waitsFor (ctxOf s 0 0) 16384 = false ∧ sMarkOf (ctxOf s 0 0) 63 = .late 16384)
    ∧ (let l : LoadReq := ⟨0, 16384, 1, 0, 0, [], [], .scalar 63 0#64, false, true, true, none, some 0, some 999, none⟩
       let c : Ctx := { C3 with regs := { C3.regs with shadow := [⟨0, 0, .scalar 63 0#64, none, some 16384, none, none, false, none, false⟩] } }
       let s := setActCore (setAct S3 c) { K3 with ms := { K3.ms with loads := [l] } }
       mustFreeze s 0 0 = true ∧ (ctxOf s 0 0).frozen = false)
    ∧ (let s := setAct S3 { C3 with frozen := true }
       mustFreeze s 0 0 = false ∧ (ctxOf s 0 0).frozen = true) := by
  and_intros <;> decide +kernel

theorem witness_MemoryCare :
    (let s : State := { State.reset with jobs := [(0, { J0 with otbase := 65552, nobj := 1 })], mem := mem0 }
     s.jobs = [(0, { J0 with otbase := 65552, nobj := 1 })] ∧ jobHolds s { J0 with otbase := 65552, nobj := 1 } 0 = true ∧ objEntry s { J0 with otbase := 65552, nobj := 1 } 0 0 = some (2, 2)
     ∧ (let e := leVal (getBytes s.mem (2 * 65536) 8)
        field e 24 1 = 1 ∧ field e 0 24 / 2097152 = 0 ∧ (196608 : Nat) = field e 0 24 * 65536))
    ∧ memWf mem0 = true
    ∧ (let f : Fill := ⟨.extent 196608 0 9 0 [], 1, 2, 0, 0⟩
       let s : State := { State.reset with fills := [f], mem := mem0, tier := [(196608, 1#8)] }
       s.fills = [f] ∧ f.kind = .extent 196608 0 9 0 [] ∧ s.ck.frozen = [] ∧ memWf s.mem = true ∧ memWf s.tier = true ∧ 196608 % 8 = 0 ∧ 196608 / 65536 ≠ 9 ∧ 9 < 2 ^ 24)
    ∧ (stackHeld State.reset 15 = false ∧ stackHeld (setDie State.reset 7 { Die.init with regs := [(0x3020, 1024 + 2 ^ 17)] }) 15 = true)
    ∧ (let h : HeldReq := ⟨15, 63, 0, 5, 0, 0, false⟩
       let s := setDie { S3 with now := 2 ^ 40 } 7 { Die.init with held := [h] }
       (dieOf s 7).held = [h] ∧ h.core = 0 ∧ h.ctx = 0 ∧ limitExceeded s h = true ∧ ∀ e, e < 8 → e ≠ 7 → (dieOf s e).held = [])
    ∧ ((2 ^ 34 - 1 : Nat) < 2 ^ 34 ∧ field (regRaw (dieOf State.reset 7) (0x3038 + 8)) 34 1 = 0)
    ∧ (field (regRaw (dieOf (setDie State.reset 7 { Die.init with regs := [(0x3010, 266)] }) 7) 0x3010) 8 1 = 1 ∧ field (regRaw (dieOf State.reset 7) 0x3010) 8 1 = 0) := by
  and_intros <;> decide +kernel

theorem witness_HostAccesses :
    (State.reset.ga.power = true ∧ (2 ^ 40 - 256 : Nat) + 256 ≤ 2 ^ 40 ∧ (2 ^ 40 - 256) % 256 + 256 ≤ 256 ∧ State.reset.ga.hostQ = []
      ∧ hdmHeld State.reset (2 ^ 40 - 256) 256 = false) ∧ (2 ^ 64 - 1 : Nat) < 2 ^ 64 := ⟨by decide +kernel, by decide⟩

theorem witness_WorldsFillsAndRows :
    (let e : Effect := ⟨16, 0, 0, 1, 0, 0, 0, 0, 0, [], List.replicate 64 0#8, 0⟩
     let s : State := { State.reset with worlds := { State.reset.worlds with releasing := [e] } }
     s.worlds.releasing = [e] ∧ e.kind = 16 ∧ gateCount (exOf s (dieOfCore e.core)) < 1024)
    ∧ (let s : Nat → State := fun n => { State.reset with worlds := { State.reset.worlds with ents := [(63, ⟨.discarded, 0, 1, 1, 0, 0, n⟩)] } }
       (worldOf (s 0) 63).state = .discarded ∧ (worldOf (s 0) 63).live = 0 ∧ (worldOf (s 1) 63).state = .discarded ∧ (worldOf (s 1) 63).live ≠ 0)
    ∧ (let f : Nat → Fill := fun n => ⟨.expert 2 0 7 n 1, 7, 0, 0, 0⟩
       let s : Nat → State := fun n => { shS 0 0 with fills := [f n] }
       (s 2).fills = [f 2] ∧ (∀ b, b < 2 → (objByte { s 2 with fills := [] } 0 1 (65536 * b)).isSome = true) ∧ (objByte { s 3 with fills := [] } 0 1 (65536 * 2)).isNone = true)
    ∧ (let f : FillKind → Nat → Fill := fun k n => ⟨k, 7, 0, n, 0⟩
       (f (.expert 2 0 7 1 1) 1).tries < 2 ∧ 2 ≤ (f (.expert 2 0 7 1 1) 2).tries
       ∧ (let s := { setCtx S3 0 7 { bound 3 with status := .filling } with fills := [f (.extent 196608 0 9 1 [(0, 7)]) 2] }
          s.fills = [f (.extent 196608 0 9 1 [(0, 7)]) 2] ∧ (ctxOf s 0 7).status = .filling ∧ (ctxOf s 0 7).sp.hmode = false))
    ∧ (let h := sealHeader (2 ^ 40)
       let s : Nat → State := fun h => setDie (shS 0 0) 0 { dieS 0 0 { Experts.init with arriving := [(5, [], leBytes 8 h ++ leBytes 8 0)], inbound := [(0, true)] } with xr := [(0x7C0, 1), (0x7C2, 65536 + 2 ^ 40), (0x7C3, 65536), (0x7C5, 1 + 4 * 2 ^ 26)] }
       (exOf (s h) 0).arriving = [(5, [], leBytes 8 h ++ leBytes 8 0)] ∧ routeReg (s h) 0 0x7C2 ≠ 0 ∧ leVal ((leBytes 8 h ++ leBytes 8 0).take 8) = h ∧ headerGood h = true
       ∧ filterAsk (exOf (s h) 0) h = .fresh ∧ 1 ≤ field (routeReg (s h) 0 0x7C2) 40 16 ∧ mapGet (exOf (s h) 0).inbound false 1 = false
       ∧ (∀ m, m < 1 → mapGet (exOf (s h) 0).inbound false m = true) ∧ gateCount (exOf (s h) 0) < 1024 ∧ headerGood (h + 1) = false) := by
  and_intros <;> decide +kernel

def saveOf (target : Nat) (image : Option Nat) : SaveReq := ⟨target, 15, image.isNone, [], image, 0⟩
def tag0 : ReqTag := { ReqTag.init with busy := true, peer := 63, core := 0, ctx := 7, kind := 1, sent := some 0 }
def msg0 (core src : Nat) : Msg := ⟨src, 0, [], 4095, 3, core, 0, List.replicate 64 1#8, none⟩
/-- Core 0 of die 0 has its message ring at 128 of S, and the handler table stands in block 4. -/
def dieM (f : Fabric) (t : Tasks := Tasks.init) : Die :=
  { Die.init with fab := f, tasks := t, regs := [(0x3800, 2 ^ 40 + 262144), (0x3900, 2 ^ 20 + 128)] }
def withMsg (m : Msg) (t : Tasks := Tasks.init) : State :=
  setDie { S3 with mem := setBytes mem0 262144 (words [4096]) } 0 (dieM { Fabric.init with messages := [m] } t)
theorem witness_SavesAndMessages :
    (let s := setCtx S0 0 7 { bound 3 with saves := [saveOf 6 (some 0)] }
     (ctxOf s 0 7).saves = saveOf 6 (some 0) :: [] ∧ (ctxOf s 0 7).status = .bound ∧ (saveOf 6 (some 0)).due ≤ s.now ∧ (saveOf 6 (some 0)).image = some 0)
    ∧ (let s := setCtx (setCtx S0 0 7 { bound 3 with saves := [saveOf 6 none] }) 0 6 (bound 2)
       (ctxOf s 0 7).saves = saveOf 6 none :: [] ∧ (ctxOf s 0 7).status = .bound ∧ (saveOf 6 none).due ≤ s.now ∧ (saveOf 6 none).image = none
       ∧ (saveOf 6 none).stop = true ∧ stoppable s 0 (saveOf 6 none).target = true)
    ∧ (let s : State := { State.reset with now := 1, ga := { Garod.init with swap := some (0, 1) } }
       s.ga.swap = some (0, 1) ∧ (1 : Nat) ≠ 0 ∧ 1 ≤ s.now)
    ∧ (let r : FarReq := ⟨tagName 0 511 0, 0, 63, 1, 1, .scalar 5 0#64, false, false, 0⟩
       let s := { setCtx (setDie S0 0 { Die.init with fab := { Fabric.init with tags := [(511, tag0)] } }) 0 7 { bound 3 with reqs := [r] } with now := 65536 }
       let t := tagAt' (fabOf s 0) 511
       (fabOf s 0).replies = [] ∧ t.busy = true ∧ t.sent = some 0 ∧ 0 + tagLimit s 0 ≤ s.now ∧ t.eng = none ∧ t.core = 0 ∧ t.ctx = 7 ∧ (ctxOf s 0 7).status = .bound
       ∧ (ctxOf s 0 7).reqs = [r] ∧ r.tag = tagName 0 511 t.inc ∧ r.peer = t.peer ∧ r.kind ≠ 0 ∧ r.push = false)
    ∧ (∀ c ∈ [0, 79, 640], let s := withMsg (msg0 c 63)
       (fabOf s 0).messages = [msg0 c 63] ∧ (msg0 c 63).placed = none ∧ (msg0 c 63).die = 0 ∧ (msg0 c 63).src ≠ Config.moduleNumber ∧ (dieOf s 0).regs ≠ [])
    ∧ (refusalOf (withMsg (msg0 640 63)) (msg0 640 63) = some 1 ∧ refusalOf (withMsg (msg0 79 63)) (msg0 79 63) = some 1)
    ∧ (let s := withMsg (msg0 0 63)
       refusalOf s (msg0 0 63) = none ∧ (hdrAt s 0 3 (mrqBase s 0 % 2 ^ 20)).free ≠ 0 ∧ freeRec s 0 = some 0 ∧ dieOfCore 0 = 0)
    ∧ (let m : Msg := { msg0 0 63 with placed := some (1152, 0) }
       let s := withMsg m
       let t := withMsg m { Tasks.init with recs := (List.range 16384).map (fun n => (n, rec0)) }
       ((fabOf s 0).messages = [m] ∧ m.placed = some (1152, 0) ∧ 0 ≤ s.now ∧ (dieOf s 0).regs ≠ [] ∧ freeRec s 0 = some 0)
       ∧ (fabOf t 0).messages = [m] ∧ (dieOf t 0).regs ≠ [] ∧ freeRec t 0 = none) := by
  and_intros <;> decide +kernel

theorem witness_ClockAndOptics :
    (let s : Nat → Bool → State := fun now st => { State.reset with now := now, ga := { Garod.init with boot := 3, strobed := st } }
     isUp State.reset = false ∧ isUp (s 0 false) = true ∧ isUp (s 2560 true) = true ∧ isUp (s 2559 true) = true ∧ (s 0 false).ga.strobed = false ∧ (s 2560 true).ga.strobed = true ∧ 2560 ≤ (s 2560 true).now - (s 2560 true).rotAt ∧ (s 2559 true).now - (s 2559 true).rotAt < 2560
     ∧ (4 : Nat) < 5 ∧ (fabOf (s 2559 true) 0).desync = none)
    ∧ (fabOf State.reset 7).desync = none
    ∧ slotCycle State.reset = 0
    ∧ (63 : Nat) < 64
    ∧ (let s := setDie State.reset 4 { Die.init with regs := [(0x0678, 64 + 5)] }
       let v := regRaw (dieOf s (4 * 1)) (0x0600 + 8 * (8 * 1 + 7))
       field v 6 1 = 1 ∧ field v 7 1 = 0)
    ∧ (let s := setDie { State.reset with now := 65536 } 7 { Die.init with fab := { Fabric.init with recover := [(63, 0 + 1)] } }
       mapGet (fabOf s 7).recover 0 63 = 0 + 1 ∧ 0 + 65536 ≤ s.now)
    ∧ (field (regRaw (dieOf State.reset 7) 0x0740) 12 12 ≤ 4095 % 4096 ∧ (4095 : Nat) % 4096 ≠ 0)
    ∧ (State.reset.rot + 16 ≤ 16 ∧ patternLegal State.reset (fun sl k m => maskTo (([] : List Nat).getD (256 * sl + 8 * k + m) 0) 0x7F7F) = true) := by
  and_intros <;> decide +kernel

def flit0 (dst vc kind : Nat) : Flit := ⟨dst, 0, vc, false, kind, 0, 0, 511, 3, 0, 0, true, 0, 0, 0, 0#896⟩
/-- In slot 0 the last pair of the last port sends on channel 1 and hears channel 1. -/
def dieF (f : Fabric) : Die := { Die.init with fab := f, regs := [(0x1038, (1 + 64 + 256 + 16384) * 2 ^ 48)] }
def fabS (now : Nat) (f : Fabric) : State := setDie { S3 with now := now } 0 (dieF f)
/-- A read of 8 bytes of object 1. -/
def served0 (at_ : Option Nat) : Served := ⟨63, 0, 0, 1, 511, 3, 0, [], leBytes 16 (1 + 3 * 2 ^ 66), 0, at_, false, none⟩
theorem witness_FabricUnit :
    (let pos : FlitPos := ⟨0, 0, 3, 7, 53⟩
     let f : List Fabric := [{ Fabric.init with resend := [⟨pos, 0, flit0 1 0 1⟩] }, { Fabric.init with sendQ := [flit0 1 1 1] }, Fabric.init]
     (∀ g ∈ f, let s := fabS 625 g
       flitNow s = some 53 ∧ (53 : Nat) ≠ 0 ∧ txChan (patEntry (dieOf s 0) (slotNow s) 3 7) = 1 ∧ ringServes s 0 (slotNow s) 3 7 = true ∧ fabricSpeaks s 0 = true
        ∧ mapGet (fabOf s 0).lastTx 0 (8 * 3 + 7) ≠ s.now + 1)
     ∧ (fabOf (fabS 625 (f.getD 0 Fabric.init)) 0).resend.find? (fun r => hopOf r.flit == (Config.moduleNumber + 1) % 64) = some ⟨pos, 0, flit0 1 0 1⟩
     ∧ (fabOf (fabS 625 (f.getD 1 Fabric.init)) 0).resend = [] ∧ pickFlit (fabS 625 (f.getD 1 Fabric.init)) 0 ((Config.moduleNumber + 1) % 64) = some (.own (flit0 1 1 1))
     ∧ (fabOf (fabS 625 Fabric.init) 0).resend = [] ∧ pickFlit (fabS 625 Fabric.init) 0 ((Config.moduleNumber + 1) % 64) = none)
    ∧ (let q : FlitPos := ⟨0, 0, 3, 7, 53⟩
       (∀ f ∈ [Fabric.init, { Fabric.init with taken := [(63, q)] }], let s := fabS 625 f
         windowOpen s 0 q.port = true ∧ heardFrom s 0 q = some 63 ∧ (windowNow s 0 q.port).1 % 4 = q.rot % 4 ∧ (windowNow s 0 q.port).2 = q.slot ∧ (fabOf s 0).failed = []
         ∧ ({ q with rot := (windowNow s 0 q.port).1 - ((windowNow s 0 q.port).1 + 4 - q.rot % 4) % 4 } : FlitPos) = q)
       ∧ (63, q) ∉ Fabric.init.taken ∧ astray (flit0 0 1 1) = false ∧ heldAt Fabric.init 3 63 < 128)
    ∧ (∀ a ∈ [none, some 0], let s := fabS 625 { Fabric.init with served := [served0 a] }
       (fabOf s 0).served = [served0 a] ∧ resolveServed s 0 (served0 a) = .here [(262144, 196608, 8)] ∧ (served0 a).at_ = a ∧ (served0 a).away = none ∧ (served0 a).ports = []
       ∧ (∀ p ∈ [((262144 : Nat), (196608 : Nat), (8 : Nat))], dieOfAddr p.1 = 0 ∧ stackHeld s (stackOf p.1) = false) ∧ 0 ≤ s.now)
    ∧ (let s := fabS 0 { Fabric.init with replies := [(flit0 0 1 1, [1#8])], tags := [(511, { tag0 with inc := 3 })] }
       (fabOf s 0).replies = [(flit0 0 1 1, [1#8])] ∧ (flit0 0 1 1).tag % 512 = 511 ∧ (tagAt' (fabOf s 0) 511).busy = true
       ∧ (tagAt' (fabOf s 0) 511).inc = (flit0 0 1 1).inc)
    ∧ (let s := fabS 1 { Fabric.init with returnAt := [(63, 1)], toReturn := [(63, 1)] }
       mapGet (fabOf s 0).returnAt 0 63 = 1 ∧ (1 : Nat) ≠ 0 ∧ 1 ≤ s.now ∧ (∀ g ∈ (fabOf s 0).sendQ, g.dst ≠ 63 ∨ g.kind ≠ 12))
    ∧ (let x : Nat → Failed := fun n => ⟨63, ⟨0, 0, 0, 0, 0⟩, controlFlit 0 [] none, false, n, none⟩
       (∀ n ∈ [0, 3], (fabOf (fabS 0 { Fabric.init with failed := [x n] }) 0).failed = [x n]) ∧ 3 ≤ (x 3).tries ∧ (x 0).pos.rot + 4 < ({ S3 with rot := 5 } : State).rot)
    ∧ (63 ∉ (fabOf S3 0).audits)
    ∧ (let s := fabS 7 { Fabric.init with tags := [(511, { ReqTag.init with skips := [(0, 0, 7)] })] }
       ∃ k ∈ (tagAt' (fabOf s 0) 511).skips, k.2.2 ≤ s.now) := by
  refine ⟨?w1, ?w2, ?w3, ?w4, ?w5, ?w6, ?w7,
    ⟨(0, 0, 7), ?w8, ?w9⟩⟩
  case w1 | w2 | w3 | w4 | w5 | w6 | w7 | w8 | w9 => decide +kernel

theorem witness_ShuttleEvents :
    mapWf (shOf State.reset 0).csrs 0#64 = true ∧ 0 < 2 ^ 63 + 11 ∧ 2 ^ 63 + 11 < 2 ^ 64
    ∧ (exOf (shS 0 0 { Experts.init with gate := [(1, [])] }) 0).gate ≠ [] ∧ (exOf (shS 0 0 { Experts.init with logCount := 1 }) 0).logCount ≠ 0 := by decide +kernel

theorem witness_RegisterObject :
    (let s := State.reset
     let nrf := setDie State.reset 7 { Die.init with regs := [(0x3010, 256 + 10)] }
     (∀ d ∈ [0, 7], regRaw (dieOf s d) (8 * 63) < 4096 ∧ regRaw (dieOf s d) (0x0400 + 8 * 63) < 2 ^ 14 ∧ field (regRaw (dieOf s d) (0x3300 + 8 * 63)) 33 1 = 0
       ∧ field (2 ^ 64 - 1 - 256) 8 1 = 0 ∧ regRaw (dieOf s d) 0x3018 < 2 ^ 32 ∧ field (regRaw (dieOf s d) 0x3010) 8 1 = 0 ∧ (2 ^ 32 - 1) % 2 ^ 32 ≠ 0
       ∧ regRaw (dieOf s d) 0x3008 < 2 ^ 16 ∧ regRaw (dieOf s d) (0x3900 + 8 * 79) < 2 ^ 21 ∧ regRaw (dieOf s d) (0x0600 + 8 * 15) % 128 ≠ 127 % 128)
     ∧ regRaw (dieOf nrf 7) 0x3018 < 2 ^ 32 ∧ field (regRaw (dieOf nrf 7) 0x3010) 8 1 = 1
     ∧ (garodOnly 0x1000 = true ∧ (0x1000 - 0x1000) / 0x1000 = bankNow (dieOf s 7) ∧ garodOnly 0x2FF8 = true ∧ (0x2FF8 - 0x1000) / 0x1000 ≠ bankNow (dieOf s 7)
       ∧ garodOnly 0x3810 = true)
     ∧ patternLegal s (bankEntry (dieOf s 7) (1 - bankNow (dieOf s 7))) = true ∧ (field 2 2 1 = 0 ∧ field 2 1 1 = 1)
     ∧ field ({ Garod.init with modFeatures := 1 } : Garod).modFeatures 0 1 = 1 ∧ field State.reset.ga.modFeatures 0 1 = 0) := by decide +kernel

theorem witness_PowerAndBringUp :
    (∀ b ∈ [0, 1, 2, 4], ({ State.reset with ga := { Garod.init with boot := b } } : State).ga.boot = b) ∧ State.reset.ga.power = true
    ∧ ({ Garod.init with power := false } : Garod).power = false ∧ (2 ^ 34) % 2 ^ 34 = 0 ∧ (1 : Nat) % 2 ^ 34 ≠ 0 := by decide +kernel

/-- A job record at 1024 with a checkpoint area, and a key with its activation at 2048. -/
def memJ : List Host.Cell := setBytes (setBytes mem0 1024 (words ([0, 0, 0, 0, 0, 0, 0, 0, 0, 0, 0, 0, 16 * 2 ^ 32, 0, 0, 0])))
  2048 (words [1, 2, 3, 4, 7 + 63 * 8, 2, 0, 0])
def boxS (g : Garod) : State := { S3 with mem := memJ, ga := { g with boot := 3 } }
theorem witness_Mailbox :
    (let s := boxS Garod.init
     let t := boxS { Garod.init with standby := 1 }
     (s.ga.cleared ≠ s.now + 1 ∧ s.ga.boot = 3 ∧ s.ga.busy = false) ∧ (boxS { Garod.init with busy := true }).ga.busy = true
     ∧ (0 % 8 < t.ga.parts ∧ field t.ga.standby (0 % 8) 1 = 1 ∧ t.ga.busy = false ∧ t.ga.cleared ≠ t.now + 1)
     ∧ (let u := setCtx s 639 7 { bound 3 with status := .halted }
        field (639 + 7 * 1024) 0 10 = 639 ∧ field (639 + 7 * 1024) 10 3 = 7 ∧ (639 : Nat) < 640 ∧ (ctxOf u 639 7).status = .halted)
     ∧ (8 % 16 = 8 ∧ 8 / 256 % 256 = 0 ∧ s.ga.firstJob = false)
     ∧ (namedSide s 0 = some 0 ∧ s.ck.active = none ∧ jobAt s 0 = some (0, J0) ∧ (2 ^ 24) % 64 = 0 ∧ 2 ^ 24 ≤ areaSize J0)
     ∧ (namedSide t (8 + 1024) = some 8 ∧ jobAt t 8 = none ∧ (8 + 1024) / 64 * 64 + 128 ≤ 2 ^ 40
       ∧ areaReadable { t with ga := { t.ga with modFeatures := 32 } } (readJob t 1024) = true)
     ∧ (let w := fun k => leVal (getBytes s.mem (2048 + 8 * k) 8)
        2048 % 64 = 0 ∧ 2048 + 64 ≤ 2 ^ 40 ∧ field (w 4) 9 55 = 0 ∧ field (w 5) 32 32 = 0 ∧ w 6 = 0 ∧ w 7 = 0 ∧ field (w 4) 3 6 ≠ Config.moduleNumber
        ∧ s.rot + 2 ≤ field (w 5) 0 32))
    ∧ (let s := boxS { Garod.init with standby := 1 }
       let side := sideOf s (8 % 8) (field 8 3 1 = 1)
       let j := { readJob s 1024 with part := 8 % 8, standby := decide (8 ≤ side), features := maskTo (acceptSampled s 0) 0x58 + s.ga.modFeatures }
       1024 % 64 = 0 ∧ 1024 + 128 ≤ 2 ^ 40 ∧ 8 % 8 < s.ga.parts ∧ field 8 3 1 = 1 ∧ field s.ga.standby (8 % 8) 1 = 1 ∧ jobAt s side = none
       ∧ jobReserved s 1024 = false ∧ j.baste ≤ 10239 ∧ j.cksz ≠ 0 ∧ tableInside s (8 % 8) (readJob s 1024) = true ∧ s.jobs ≠ [] ∧ freeJob s = some 1)
    ∧ (let w : Waiting := ⟨0, 0, 0, .complete (levelKey 0 3 0) 0 16384⟩
       jobDone (setDie S0 0 (dieT { Tasks.init with waiting := [w] })) 0 = some w)
    ∧ (255 &&& featureOffer 0 ≠ 0) := by
  and_intros <;> decide +kernel

theorem blockImage_length (s : State) (pbn : Nat) (h : s.ck.preserved = []) : (blockImage s pbn).length = 65536 := by
  rw [blockImage, List.length_flatMap]
  simp only [h, mapGet, getBytes, List.length_map, List.length_range]
  decide +kernel
def ckS (c : Ckpt) : State := { S3 with ck := { c with job := J0 } }
theorem witness_Checkpoints :
    (([none, some 1#64, some 2#64] : List (Option (BitVec 64))).all (fun q => let s := ckS { S3.ck with marks := [(0, 0, 15, 2#64)], lastSeq := q }
      decide (s.ck.active = none ∧ s.ck.marks = (0, 0, 15, 2#64) :: [] ∧ s.ck.lastSeq = q)) = true) ∧ (1#64 < 2#64 ∧ 2#64 ≤ 2#64)
    ∧ (let s := ckS { S3.ck with active := some (2#64, 0), frozen := [(5, 1, 1, 196616)] }
       (s.ck.active = some (2#64, 0) ∧ s.ck.frozen = (5, 1, 1, 196616) :: [] ∧ preserveFull s s.ck.job = false ∧ stackHeld s (stackOf (5 * 65536)) = false
         ∧ s.ck.job.ckkind = 0)
       ∧ mapGet s.ck.pos 0 0 + (recordHeader (2#64).toNat 1 1 0 0 ++ blockImage s 5).length ≤ areaSize s.ck.job)
    ∧ (let s := ckS { S3.ck with active := some (2#64, 0) }
       s.ck.active = some (2#64, 0) ∧ s.ck.frozen = [] ∧ s.ck.job.ckkind = 0
       ∧ mapGet s.ck.pos 0 0 + (recordHeader (2#64).toNat 0 0 1 s.ck.streamed.length).length ≤ areaSize s.ck.job) := by
  refine ⟨?w1, ?w2, ⟨?w3, ?_⟩, ?w4⟩
  case w1 | w2 | w3 | w4 => decide +kernel
  rw [List.length_append, blockImage_length _ _ rfl]
  decide +kernel

/-! ### Decoding, stepping, and what is left alone -/

theorem witness_EncodeRoundTrip : ∀ i ∈ [Instr.add ⟨7, 0, false⟩ ⟨63, 63, 63, 0, 0⟩, .vadd ⟨0, 63, true⟩ true ⟨1, 1, 0, 0, 31, 127, 127, 11⟩, .sync 65535,
    .brt 6 127 127 127 127 8191 8191 8191 8191, .hint 7 15 (2 ^ 48 - 1), .emptyBundle true true true, .rrput 31 31 31],
    i.wellFormed = true ∧ (encode i).1 ≠ 0 ∧ (i.guard.path = 0 ∨ i.guard.path = 7) := by decide +kernel
theorem witness_DecodeIsExact :
    (0x14 * 2 ^ 48 + 7 * 2 ^ 45 < 2 ^ 56 ∧ decodeSyllable 7 5 (0x14 * 2 ^ 48 + 7 * 2 ^ 45) = .ok (.texit ⟨7, 0, false⟩ ⟨0, 0, 0, 0⟩))
    ∧ (0x0B + 3 * 2 ^ 7 + 1 * 2 ^ 12 + 4 * 2 ^ 15 + 5 * 2 ^ 20 < 2 ^ 32 ∧ decodeShuttle (0x0B + 3 * 2 ^ 7 + 1 * 2 ^ 12 + 4 * 2 ^ 15 + 5 * 2 ^ 20) = some (.rrput 3 4 5))
    ∧ (let w := 239 * 2 ^ 48 + 6 * 2 ^ 45
       w / 2 ^ 48 % 256 < 240 ∧ w / 2 ^ 45 % 8 ≠ 7 ∧ 5 ≤ w / 2 ^ 45 % 8) := by decide +kernel

/-- ADD at the pc of the context that holds issue; ADD beside PNOT of the same class is no group, so VADD stands beside it. -/
def addWord : Nat := 0x101 + (7 * 2 ^ 45 + 5 * 2 ^ 32 + 1 * 2 ^ 26 + 2 * 2 ^ 20) * 2 ^ 64
def addI : Instr := .add ⟨7, 0, false⟩ ⟨5, 1, 2, 0, 0⟩
def vaddI : Instr := .vadd ⟨7, 0, false⟩ false ⟨1, 1, 0, 0, 16, 9, 10, 11⟩
def coreTurn (bytes n : Nat) : State := { S0 with mem := setBytes [] 4096 (leBytes n bytes), turns := [.core 0] }
def pairWord : Nat := 0x103 + (7 * 2 ^ 45 + 5 * 2 ^ 32 + 1 * 2 ^ 26 + 2 * 2 ^ 20) * 2 ^ 64
  + (7 * 2 ^ 45 + 1 * 2 ^ 36 + 1 * 2 ^ 32 + 16 * 2 ^ 23 + 9 * 2 ^ 16 + 10 * 2 ^ 8 + 11) * 2 ^ 120
def groupAt (s : State) : Option Group := match decodeBytes (getBytes s.mem 4096 512) with | .ok g => some g | _ => none
theorem group_exists {s : State} {p : Group → Prop} [DecidablePred p] (h : (groupAt s).any (fun g => decide (p g)) = true) :
    ∃ g, decodeBytes (getBytes s.mem 4096 512) = .ok g ∧ p g := by
  unfold groupAt at h
  split at h
  · exact ⟨_, ‹_›, by simpa using h⟩
  · simp at h
theorem witness_StepRunsDecoded :
    (∀ s ∈ [coreTurn addWord 16, coreTurn 0x500 8, coreTurn pairWord 24], let c := ctxOf s 0 0
      s.inbox = [] ∧ s.turns = .core 0 :: [] ∧ (coreOf s 0).holder = some 0 ∧ (coreOf s 0).exchLeft ≠ 1 ∧ (coreOf s 0).heldOff < 65536 ∧ swapping s 0 = false
      ∧ wantsPreempt s 0 0 = false ∧ mustFreeze s 0 0 = false ∧ c.hold = 0 ∧ asyncReady s 0 0 = false ∧ watchdogDue s 0 = false ∧ c.pc + 24 ≤ 2 ^ 40 ∧ c.pc = 4096
      ∧ c.stalled = 0 ∧ c.regs.armed = [] ∧ c.regs.loopBuf = [] ∧ fetchBytes (actAs { s with turns := [] } 0 0) = getBytes s.mem 4096 512)
    -- a body that is in the loop buffer while memory holds other bytes
    ∧ (let c : Ctx := { C0 with regs := { C0.regs with armed := [⟨0, 4096, 4096⟩], loopBuf := [(4096, leBytes 16 addWord)] } }
       let s := setCtx (coreTurn 0x500 8) 0 0 c
       (ctxOf s 0 0).regs.armed ≠ [] ∧ fetchBytes (actAs { s with turns := [] } 0 0) = leBytes 16 addWord)
    ∧ (∃ g, decodeBytes (getBytes (coreTurn addWord 16).mem 4096 512) = .ok g ∧ g.syls = [addI] ∧ isSolo g = true ∧ g.len ≤ 24)
    ∧ (∃ g, decodeBytes (getBytes (coreTurn 0x500 8).mem 4096 512) = .ok g ∧ g.syls = [.emptyBundle false true false] ∧ g.len = 8)
    ∧ (∃ g, decodeBytes (getBytes (coreTurn pairWord 24).mem 4096 512) = .ok g ∧ g.syls = [addI, vaddI] ∧ isSolo g = false ∧ g.len ≤ 24)
    ∧ (let s := State.reset.withFetchWord 32 (0x2B + 3 * 2 ^ 7 + 3 * 2 ^ 12 + 4 * 2 ^ 15)
       s.inbox = [] ∧ s.turns = .shuttle 0 :: [] ∧ shFetch { s with turns := [], die := 0 } 0 = .word (0x2B + 3 * 2 ^ 7 + 3 * 2 ^ 12 + 4 * 2 ^ 15) 4
       ∧ decodeShuttle (0x2B + 3 * 2 ^ 7 + 3 * 2 ^ 12 + 4 * 2 ^ 15) = some (.dtile 3 4))
    ∧ ({ S0 with inbox := [.mboxMaint] } : State).inbox = [.mboxMaint] ∧ S0.inbox = [] ∧ S0.turns = [] := by
  exact ⟨by decide +kernel, by decide +kernel, group_exists (by decide +kernel), group_exists (by decide +kernel), group_exists (by decide +kernel), by decide +kernel, by decide +kernel⟩

theorem witness_RegisterOnlyFrame :
    marksBefore addI = false ∧ marksAfter addI = false ∧ gateFull (settleObjects S0) addI = false ∧ (∀ g f, addI ≠ .mcvt g f) ∧ addI.slot < 8 ∧ 0 < 1 ∧ 1 < 12
    ∧ (ctxOf S0 S0.core S0.cx).regs.shadow = [] ∧ (ctxOf S0 S0.core S0.cx).regs.armed = [] ∧ (ctxOf S0 S0.core S0.cx).stepMark = false :=
  ⟨by decide +kernel, by decide +kernel, by decide +kernel, fun _ _ => Instr.noConfusion, by decide +kernel, by decide, by decide, by decide +kernel, by decide +kernel, by decide +kernel⟩

theorem witness_MemoryWrites :
    (∀ leaf ∈ [0, 196608], let t : Store := Store.fresh 0 1 (.mem 0 [(262144 + 248, leaf, 8)]) (List.replicate 8 1#8) true false
      memWf S3.mem = true ∧ mapWf S3.tags false = true ∧ mapWf S3.poison false = true ∧ S3.worlds.overlays = [] ∧ isLeafPage S3 ((262144 + 248) / 65536) = false ∧ t.tgt = .mem 0 [(262144 + 248, leaf, 8)]
      ∧ t.data.length = 8 ∧ (262144 + 248) % 256 + 8 ≤ 256 ∧ leaf + 4 < 262144 + 248)
    ∧ ((Store.fresh 0 1 (.buf 3 65528) (List.replicate 8 1#8) false false).tgt = .buf 3 65528 ∧ memWf (coreOf S3 0).bufs.bytes = true)
    ∧ (let j := began S3 (.lds ⟨7, 0, false⟩ ⟨12, 1, 5, 0, 0, 3, 0⟩)
       okB (j.locate 1 65536 8 8 1 3 false 0 none) (fun _ => true) = true) := by
  refine ⟨by decide +kernel, by decide +kernel, by decide +kernel⟩

def nexts (r : Host.Outcome State Fault Refusal) : Bool := match r with | .next _ => true | _ => false
theorem witness_SyllablesLeaveAlone :
    addI.slot < 4 ∧ usesMemory addI = false ∧ (∀ g f, addI ≠ .syncpartWrite g f) ∧ (S3.ctxs.map (·.1)).Pairwise (· < ·) ∧ (S3.cores.map (·.1)).Pairwise (· < ·)
    ∧ nexts (exec addI S3) = true :=
  ⟨by decide +kernel, by decide +kernel, fun _ _ => Instr.noConfusion, by decide +kernel, by decide +kernel, by decide +kernel⟩

theorem witness_HardwiredRegisters : mapWf C0.regs.s 0#64 = true ∧ mapWf C0.regs.p false = true := by decide +kernel
theorem witness_PathRule :
    (let w := 239 * 2 ^ 48 + 4 * 2 ^ 45
     w / 2 ^ 48 % 256 < 240 ∧ 1 ≤ w / 2 ^ 45 % 8 ∧ w / 2 ^ 45 % 8 ≤ 6 ∧ w < 2 ^ 56 ∧ w / 2 ^ 48 < 240 ∧ w / 2 ^ 45 % 8 ≠ 7 ∧ treeLeaves 0 ≤ w / 2 ^ 45 % 8)
    ∧ (6 * 2 ^ 45 / 2 ^ 45 % 8 = 6 ∧ 7 * 2 ^ 45 / 2 ^ 45 % 8 = 7) := by decide
theorem witness_HintRule :
    240 ≤ (255 * 2 ^ 48 + 1) / 2 ^ 48 % 256
    ∧ (let i : Instr := .hint 4 0 0
       let s := setAct S3 { C3 with regs := { C3.regs with shadow := List.replicate 129 ⟨9, 0, .scalar 5 1#64, none, none, none, none, false, none, false⟩ } }
       let t := settleObjects s
       gateFull t i = false ∧ structural t (soloGroup (actCtx s).pc i) [i] = true) := by decide +kernel

/-! ## Words written out from the encodings of 05, decoded

A word is the syllable's 56 bits, in hexadecimal: opcode of R103 to R106, path, guard, and the operands at the bits of R100. The bundle is its header
with the slot's bit and STOP, then the syllable (R81 to R84). -/

def reads (slot : Nat) (ws : List (Nat × Instr)) : Bool :=
  ws.all (fun p => decide (decodeTableWord 128 (2 ^ slot + 256 + p.1 * 2 ^ 64) = some p.2))

/-- 07: SC slot (R103). -/
theorem test_decode_scalar_1 : reads 0 [
    (0x00FFBF04B00000, .add ⟨7, 63, false⟩ ⟨63, 1, 11, 0, 0⟩), (0x02FEBD0CD00000, .sub ⟨7, 61, false⟩ ⟨61, 3, 13, 0, 0⟩),
    (0x031E7C10E00000, .mul ⟨0, 60, true⟩ ⟨60, 4, 14, 0, 0⟩), (0x04FDBB14F00000, .mulh ⟨7, 59, false⟩ ⟨59, 5, 15, 0, 0⟩),
    (0x051D7A19000000, .mulhu ⟨0, 58, true⟩ ⟨58, 6, 16, 0, 0⟩), (0x06FCB91D100000, .div ⟨7, 57, false⟩ ⟨57, 7, 17, 0, 0⟩),
    (0x071C7821200000, .divu ⟨0, 56, true⟩ ⟨56, 8, 18, 0, 0⟩), (0x08FBB725300000, .rem ⟨7, 55, false⟩ ⟨55, 9, 19, 0, 0⟩),
    (0x091B7629400000, .remu ⟨0, 54, true⟩ ⟨54, 10, 20, 0, 0⟩), (0x01E00723FFFFFF, .addi G ⟨7, 8, 67108863⟩),
    (0x10E0010A800000, .and G ⟨1, 2, 40, 0, 0⟩), (0x11E0020E900000, .or G ⟨2, 3, 41, 0, 0⟩), (0x12E00312A00000, .xor G ⟨3, 4, 42, 0, 0⟩),
    (0x13E00416B00000, .andn G ⟨4, 5, 43, 0, 0⟩), (0x14E0051AC00000, .shlReg G ⟨5, 6, 44, 0, 0⟩), (0x15E0061ED00000, .shrReg G ⟨6, 7, 45, 0, 0⟩),
    (0x16E00722E00000, .sraReg G ⟨7, 8, 46, 0, 0⟩), (0x17E00826F00000, .rotReg G ⟨8, 9, 47, 0, 0⟩), (0x14E0010800007F, .shlImm G ⟨1, 2, 0, 0, 127⟩),
    (0x15E0020C00007E, .shrImm G ⟨2, 3, 0, 0, 126⟩), (0x16E0031000007D, .sraImm G ⟨3, 4, 0, 0, 125⟩), (0x17E0041400007C, .rotImm G ⟨4, 5, 0, 0, 124⟩),
    (0x18E03208000000, .clz G ⟨50, 2, 0, 0, 0⟩), (0x19E0330C000000, .ctz G ⟨51, 3, 0, 0, 0⟩), (0x1AE03410000000, .popc G ⟨52, 4, 0, 0, 0⟩),
    (0x1BE00108300000, .bext G ⟨1, 2, 3, 0, 0⟩), (0x1CE00414600000, .bdep G ⟨4, 5, 6, 0, 0⟩), (0x1DE0010800003F, .sext G ⟨1, 2, 0, 0, 63⟩),
    (0x1EE00310000001, .zext G ⟨3, 4, 0, 0, 1⟩), (0x20E00108300000, .min G ⟨1, 2, 3, 0, 0⟩), (0x21E0020C400000, .max G ⟨2, 3, 4, 0, 0⟩),
    (0x22E00310500000, .minu G ⟨3, 4, 5, 0, 0⟩), (0x23E00414600000, .maxu G ⟨4, 5, 6, 0, 0⟩), (0x24E0010830007F, .sel G ⟨1, 2, 3, 0, 127⟩),
    (0x25E00580000001, .li G ⟨5, 2147483649⟩), (0x26E006FFFFFFFE, .lih G ⟨6, 4294967294⟩), (0x30E03F08390000, .cmpReg G ⟨63, 2, 3, 9, 0⟩),
    (0x30E00108098FFF, .cmpImm G ⟨1, 2, 0, 9, 36863⟩), (0x31E00108300000, .tstbReg G ⟨1, 2, 3, 0, 0⟩),
    (0x31E0010800007F, .tstbImm G ⟨1, 2, 0, 0, 127⟩)] = true := by decide +kernel
theorem test_decode_scalar_2 : reads 0 [
    (0x32E00108300003, .pand G ⟨1, 2, 3, 0, 3⟩), (0x33E0020C400002, .por G ⟨2, 3, 4, 0, 2⟩), (0x34E00310500001, .pxor G ⟨3, 4, 5, 0, 1⟩),
    (0x35E00108000001, .pnot G ⟨1, 2, 0, 0, 1⟩), (0x36E00108000000, .pmov G ⟨1, 2, 0, 0, 0⟩), (0x40E00108360001, .sfadd G ⟨1, 2, 3, 3, 1⟩),
    (0x41E00108340000, .sfmul G ⟨1, 2, 3, 2, 0⟩), (0x42E0010833F801, .sfma G ⟨1, 2, 3, 1, 129025⟩), (0x43E001083B0001, .sfcmp G ⟨1, 2, 3, 11, 1⟩),
    (0x44E00108080010, .sfcvt G ⟨1, 2, 0, 4, 16⟩), (0x50E03F8D300000, .cderive G ⟨15, 14, 13, 12, 0⟩), (0x51E00483100000, .csetb G ⟨1, 2, 3, 4, 0⟩),
    (0x52E004800000FF, .crights G ⟨1, 2, 0, 0, 255⟩), (0x53E00083000005, .cget G ⟨0, 2, 3, 0, 5⟩), (0x54E000831010FF, .ctest G ⟨0, 2, 3, 4, 4351⟩),
    (0x60E0012FC00000, .movsp G ⟨1, 191⟩), (0x61E00102800000, .movts G ⟨1, 10⟩), (0x61E0011FC00000, .qcfgWrite G ⟨1, 127⟩),
    (0x61E00105800000, .syncpartWrite G ⟨1, 22⟩), (0x61E00102400000, .feclrWrite G ⟨1, 9⟩), (0x61E00102C00000, .srseedWrite G ⟨1, 11⟩)] = true := by decide +kernel

/-- 08: VA and VB slots (R104). -/
theorem test_decode_vector_1 : reads 1 [
    (0x01E01108810203, .vsub G false ⟨1, 1, 0, 0, 17, 1, 2, 3⟩), (0x04E02181020304, .vfms G false ⟨2, 0, 3, 1, 2, 3, 4⟩),
    (0x06E02000010203, .vmin G false ⟨2, 0, 0, 0, 0, 1, 2, 3⟩), (0x08E02000010200, .vabs G false ⟨2, 0, 0, 0, 0, 1, 2, 0⟩),
    (0x0AE021B00F0203, .vcmp G false ⟨2, 1, 5, 1, 0, 15, 2, 3⟩), (0x11E02500010203, .vor G false ⟨2, 5, 0, 0, 0, 1, 2, 3⟩),
    (0x13E02400010203, .vshl G false ⟨2, 4, 0, 0, 0, 1, 2, 3⟩), (0x15E02700010203, .vsra G false ⟨2, 7, 0, 0, 0, 1, 2, 3⟩),
    (0x20E0208A300102, .vcvt G false ⟨2, 1, 2, 4, 0, 1, 16, 1, 2⟩), (0x30E02B08010200, .vsum G false ⟨2, 11, 0, 0, 16, 1, 2, 0⟩),
    (0x32E02700010203, .vdot G false ⟨2, 7, 0, 0, 0, 1, 2, 3⟩), (0x39E02581020304, .vcma G false ⟨2, 1, 3, 1, 2, 3, 4⟩),
    (0x40E02D00010203, .vperm G ⟨2, 13, 0, 0, 0, 1, 2, 3⟩), (0x41E0210102201F, .vshuf G ⟨2, 1, 1, 2, 8223⟩),
    (0x43E02D08010203, .vsel G false ⟨2, 13, 0, 0, 16, 1, 2, 3⟩), (0x45E020CA000102, .vpack G ⟨2, 1, 18, 4, 0, 0, 0, 1, 2⟩),
    (0x46E01909800102, .vunpk G ⟨1, 18, 2, 3, 0, 0, 0, 1, 2⟩), (0x47E02360010203, .vscl G false ⟨2, 3, 3, 0, 0, 1, 2, 3⟩),
    (0x49E02214000102, .vsat G false ⟨2, 4, 5, 0, 0, 0, 0, 1, 2⟩), (0x51E02123000000, .vmand G false ⟨2, 1, 2, 3, 0, 0⟩),
    (0x53E02120000000, .vmnot G false ⟨2, 1, 2, 0, 0, 0⟩), (0x55E02020040003, .vmfirst G false ⟨2, 0, 2, 0, 1, 3⟩)] = true := by decide +kernel
theorem test_decode_vector_2 : reads 2 [
    (0x00E02D784797C0, .vadd G true ⟨2, 13, 3, 1, 16, 71, 151, 192⟩), (0x02E00B00010203, .vmul G true ⟨0, 11, 0, 0, 0, 1, 2, 3⟩),
    (0x03E02584014289, .vfma G true ⟨2, 1, 3, 4, 1, 66, 137⟩), (0x05E01885060708, .vfnma G true ⟨1, 2, 1, 5, 6, 7, 8⟩),
    (0x07E0281F810203, .vmax G true ⟨2, 8, 0, 1, 31, 1, 2, 3⟩), (0x09E02100010200, .vneg G true ⟨2, 1, 0, 0, 0, 1, 2, 0⟩),
    (0x10E02400010203, .vand G true ⟨2, 4, 0, 0, 0, 1, 2, 3⟩), (0x12E02600010203, .vxor G true ⟨2, 6, 0, 0, 0, 1, 2, 3⟩),
    (0x14E02900010203, .vshr G true ⟨2, 9, 0, 0, 0, 1, 2, 3⟩), (0x21E02360010200, .vrnd G true ⟨2, 3, 3, 0, 0, 1, 2, 0⟩),
    (0x22E02060010200, .vrcp G ⟨2, 0, 3, 0, 0, 1, 2, 0⟩), (0x23E02160010200, .vrsq G ⟨2, 1, 3, 0, 0, 1, 2, 0⟩),
    (0x24E02160010200, .vexp2 G ⟨2, 1, 3, 0, 0, 1, 2, 0⟩), (0x25E02100010200, .vlog2 G ⟨2, 1, 0, 0, 0, 1, 2, 0⟩),
    (0x31E02B08010200, .vmaxr G true ⟨2, 11, 0, 0, 16, 1, 2, 0⟩), (0x38E02D60010203, .vcmul G true ⟨2, 13, 3, 0, 0, 1, 2, 3⟩),
    (0x3AE02C00010200, .vconj G true ⟨2, 12, 0, 0, 0, 1, 2, 0⟩), (0x42E0210102001F, .vbcast G true ⟨2, 1, 1, 2, 31⟩),
    (0x44E02D08010203, .vmov G true ⟨2, 13, 0, 0, 16, 1, 2, 3⟩), (0x48E02401020304, .vimad G true ⟨2, 1, 0, 1, 2, 3, 4⟩),
    (0x50E021000C0003, .vmset G true ⟨2, 1, 0, 0, 3, 3⟩), (0x52E02F12000000, .vmor G true ⟨2, 15, 1, 2, 0, 0⟩),
    (0x54E02020040003, .vmcnt G true ⟨2, 0, 2, 0, 1, 3⟩), (0x60E03FFFC00000, .qadv G true ⟨63, 1023⟩)] = true := by decide +kernel

/-- 09: MX slot (R105). -/
theorem test_decode_matrix : reads 3 [
    (0x00E00420C203C1, .mma G ⟨1, 2, 3, 4, 0, 0, 15, 1⟩), (0x01E00420C22C80, .mmaz G ⟨1, 2, 3, 4, 5, 1, 2, 0⟩),
    (0x02E03C20FF8200, .mmas G ⟨15, 2, 3, 127, 0, 0, 8, 0⟩), (0x08E00420080001, .mwld G ⟨1, 2, 0, 2, 1⟩),
    (0x09E00420300000, .mwpf G ⟨1, 2, 0, 12, 0⟩), (0x10E004800C0000, .mtrn G ⟨1, 2, 0, 0, 6, 0⟩), (0x11E00480620000, .macc G ⟨1, 2, 0, 3, 1, 0⟩),
    (0x12E00480840001, .mcvt G ⟨1, 2, 0, 4, 2, 1⟩), (0x13E004830C0001, .mred G ⟨1, 2, 3, 0, 6, 1⟩), (0x14E00400020000, .mzero G ⟨1, 0, 0, 0, 1, 0⟩),
    (0x15E0000000FFFF, .mwait G ⟨0, 0, 0, 0, 0, 65535⟩), (0x20E00100000002, .mcfg G ⟨1, 2⟩), (0x21E0010000000F, .mnest G ⟨1, 15⟩)] = true := by decide +kernel

/-- 11: LD and ST slots (R105). -/
theorem test_decode_memory_1 : reads 4 [
    (0x00E00FC4233004, .lds G ⟨63, 1, 2, 3, 0, 3, 4⟩), (0x01E00FC423E004, .ldv G ⟨63, 1, 2, 3, 1, 6, 4⟩),
    (0x02E00070206FFF, .ldb G ⟨1, 12, 2, 0, 0, 6, 4095⟩), (0x03E003C4230004, .ldx G ⟨15, 1, 2, 3, 0, 0, 4⟩),
    (0x08E00FC4230001, .ldr G ⟨63, 1, 2, 3, 1⟩), (0x09E00FC4230000, .ldrw G ⟨63, 1, 2, 3, 0⟩), (0x0AE00044236001, .ldf G ⟨1, 1, 2, 3, 0, 6, 1⟩),
    (0x10E00004200004, .pref G ⟨0, 1, 2, 0, 0, 0, 4⟩), (0x18E00E04000008, .sparm G ⟨1, 12, 2, 8⟩), (0x19E00800000000, .spstop G ⟨1, 0, 0, 0⟩),
    (0x20E00108000FFF, .rngwait G ⟨1, 2, 4095⟩), (0x20E00108001000, .rngwaitProd G ⟨1, 2, 4096⟩), (0x21E00101000000, .rngadv G ⟨1, 0, 16777216⟩),
    (0x22E0000400003F, .fscq G ⟨0, 1, 63⟩), (0x22E00204000040, .fscqReg G ⟨2, 1, 64⟩), (0x22E00004000180, .fscqWait G ⟨0, 1, 384⟩)] = true := by decide +kernel
theorem test_decode_memory_2 : reads 5 [
    (0x00E00FC4233004, .sts G ⟨63, 1, 2, 3, 0, 3, 4⟩), (0x01E025C4234004, .stv G ⟨151, 1, 2, 3, 0, 4, 4⟩),
    (0x02E03FF0206004, .stb G ⟨255, 12, 2, 0, 0, 6, 4⟩), (0x03E003C4230004, .stx G ⟨15, 1, 2, 3, 0, 0, 4⟩),
    (0x08E03FC4234000, .str G ⟨255, 1, 2, 3, 16384⟩), (0x10E0008423028A, .atom G ⟨2, 1, 2, 3, 650⟩), (0x11E01FC4230040, .atomr G ⟨127, 1, 2, 3, 64⟩),
    (0x18E00000050000, .fence G ⟨0, 0, 327680⟩), (0x19E001080FFFFF, .fencef G ⟨1, 2, 1048575⟩), (0x20E00100000002, .rngpub G ⟨1, 0, 2⟩),
    (0x28E00108400000, .arrexp G ⟨1, 2, 4194304⟩), (0x29E00108280000, .arrive G ⟨1, 2, 2621440⟩), (0x29E00108040000, .arriveWait G ⟨1, 2, 262144⟩)] = true := by decide +kernel

/-- 12: CE slot (R105). -/
theorem test_decode_engine : reads 6 [
    (0x00E0048C414000, .cpy G ⟨1, 2, 3, 4, 5, 0⟩), (0x01E0048C414000, .cpyrGet G ⟨1, 2, 3, 4, 5, 0⟩),
    (0x01E0048C414001, .cpyrPut G ⟨1, 2, 3, 4, 5, 1⟩), (0x02E0048C414000, .subsLd G ⟨1, 2, 3, 4, 5, 0⟩),
    (0x02E0048C414001, .subsSt G ⟨1, 2, 3, 4, 5, 1⟩), (0x03E004B0400000, .unsub G ⟨1, 2, 12, 4, 0, 0⟩),
    (0x04E00000000000, .drain G ⟨0, 0, 0, 0, 0, 0⟩), (0x08E004804140A7, .sfe G ⟨1, 2, 0, 4, 5, 167⟩),
    (0x10E0048C414000, .gqpush G ⟨1, 2, 3, 4, 5, 0⟩), (0x11E0048C400000, .coll G ⟨1, 2, 3, 4, 0, 0⟩), (0x12E00480414000, .send G ⟨1, 2, 0, 4, 5, 0⟩),
    (0x18E00480400000, .ckmark G ⟨1, 2, 0, 4, 0, 0⟩)] = true := by decide +kernel

/-- 12 and 17: SY slot (R106). -/
theorem test_decode_system : reads 7 [
    (0x01E001FFFFFFFF, .call G ⟨1, 4294967295⟩), (0x02E03F00000000, .ret G ⟨63, 0, 0, 0⟩), (0x03E00100000009, .jmpi G ⟨1, 0, 0, 9⟩),
    (0x04E001000000FD, .loopReg G ⟨1, 0, 0, 253⟩), (0x04E00000000105, .loopImm G ⟨0, 0, 0, 261⟩), (0x09E00000000020, .waitsImm G ⟨0, 0, 0, 32⟩),
    (0x09E0010000001F, .waitsReg G ⟨1, 0, 0, 31⟩), (0x10E0010AF00000, .tspawn G ⟨1, 2, 47, 0⟩), (0x11E00100000000, .tjoin G ⟨1, 0, 0, 0⟩),
    (0x12E0010800FFFF, .tsealImm G ⟨1, 2, 0, 65535⟩), (0x12E0010801003F, .tsealReg G ⟨1, 2, 0, 65599⟩), (0x13E00100000000, .tsignal G ⟨1, 0, 0, 0⟩),
    (0x14E00000000000, .texit G ⟨0, 0, 0, 0⟩), (0x15E0000003FFFF, .tcancelImm G ⟨0, 0, 0, 262143⟩),
    (0x15E00100040000, .tcancelReg G ⟨1, 0, 0, 262144⟩), (0x16E00000000017, .tprioImm G ⟨0, 0, 0, 23⟩), (0x16E00100000020, .tprioReg G ⟨1, 0, 0, 32⟩),
    (0x17E00008000000, .tlvrecImm G ⟨0, 2, 0, 0⟩), (0x17E00108040000, .tlvrecReg G ⟨1, 2, 0, 262144⟩), (0x20E00100000002, .wfork G ⟨1, 0, 0, 2⟩),
    (0x21E00100000004, .wchooseImm G ⟨1, 0, 0, 4⟩), (0x21E00108000008, .wchooseReg G ⟨1, 2, 0, 8⟩), (0x22E00100000000, .wdone G ⟨1, 0, 0, 0⟩),
    (0x23E00000000000, .wdiscard G ⟨0, 0, 0, 0⟩), (0x24E00100000000, .wtagOwn G ⟨1, 0, 0, 0⟩), (0x24E0010800000C, .wtagQuery G ⟨1, 2, 0, 12⟩),
    (0x28E00108000000, .ertq G ⟨1, 2, 0, 0⟩), (0x30E00000000FFF, .trap G ⟨0, 0, 0, 4095⟩), (0x31E00000000000, .bkpt G ⟨0, 0, 0, 0⟩),
    (0x32E00000000000, .eret G ⟨0, 0, 0, 0⟩), (0x33E00000000000, .halt G ⟨0, 0, 0, 0⟩), (0x38E00100000008, .ctxsave G ⟨1, 0, 0, 8⟩),
    (0x39E00100000010, .restore G ⟨1, 0, 0, 16⟩), (0x3AE00108000000, .otinv G ⟨1, 2, 0, 0⟩)] = true := by decide +kernel

/-- The syllables of the manual's worked examples (05 R107, 06, 07, 08, 09, 11, 12, 16, 17, 19 to 21, 23, 27), as it prints them. -/
theorem test_decode_examples :
    reads 0 [(0x00E00304200000, .add G ⟨3, 1, 2, 0, 0⟩), (0x01E18618000080, .addi ⟨7, 3, false⟩ ⟨6, 6, 128⟩), (0x01E01557FFFFE0, .addi G ⟨21, 21, 0x3FFFFE0⟩),
      (0x25E00500000000, .li G ⟨5, 0⟩)] = true
    ∧ reads 1 [(0x03E02404014289, .vfma G false ⟨2, 1, 0, 4, 1, 0x42, 0x89⟩), (0x00E01100040188, .vadd G false ⟨1, 1, 0, 0, 0, 4, 1, 0x88⟩),
      (0x0AE021290305C7, .vcmp G false ⟨2, 1, 1, 0, 18, 3, 5, 0xC7⟩), (0x50E00100100002, .vmset G false ⟨0, 1, 0, 0, 4, 2⟩),
      (0x02E01218FF8849, .vmul G false ⟨1, 2, 0, 1, 17, 0x7F, 0x88, 0x49⟩), (0x00E02100090405, .vadd G false ⟨2, 1, 0, 0, 0, 9, 4, 5⟩)] = true
    ∧ reads 2 [(0x20E0208C00068A, .vcvt G true ⟨2, 1, 3, 0, 0, 0, 0, 6, 0x8A⟩)] = true
    ∧ reads 3 [(0x01E00861EF9CC0, .mmaz G ⟨2, 6, 7, 95, 3, 1, 3, 0⟩)] = true
    ∧ reads 4 [(0x02E00050626000, .ldb G ⟨1, 4, 6, 2, 0, 6, 0⟩), (0x20E00827000001, .rngwait G ⟨8, 9, 3 * 2 ^ 24 + 1⟩), (0x21E00803000001, .rngadv G ⟨8, 0, 3 * 2 ^ 24 + 1⟩),
      (0x00E18188703000, .lds ⟨7, 3, false⟩ ⟨6, 2, 7, 0, 0, 3, 0⟩), (0x08E001D4C030FA, .ldr G ⟨7, 5, 12, 0, 0x30FA⟩)] = true
    ∧ reads 5 [(0x19E00A2C050002, .fencef G ⟨10, 11, 0x50002⟩), (0x11E00149413A11, .atomr G ⟨5, 2, 20, 1, 0x3A11⟩), (0x08E02209016000, .str G ⟨0x88, 2, 16, 1, 0x6000⟩),
      (0x11E01FC94156D1, .atomr G ⟨0x7F, 2, 20, 1, 0x56D1⟩), (0x00E10304403080, .sts ⟨7, 2, false⟩ ⟨12, 1, 4, 0, 0, 3, 0x80⟩)] = true
    ∧ reads 6 [(0x10E00C5061C000, .gqpush G ⟨3, 1, 4, 6, 7, 0⟩)] = true
    ∧ reads 7 [(0x04E00000000B20, .loopImm G ⟨0, 0, 0, 0xB20⟩), (0x09E00000000022, .waitsImm G ⟨0, 0, 0, 0x22⟩), (0x20E01400000081, .wfork G ⟨20, 0, 0, 0x81⟩),
      (0x22E00900000000, .wdone G ⟨9, 0, 0, 0⟩), (0x24E0155000000A, .wtagQuery G ⟨21, 20, 0, 10⟩), (0x21E01458000008, .wchooseReg G ⟨20, 22, 0, 8⟩),
      (0x12E01400000004, .tsealImm G ⟨20, 0, 0, 4⟩)] = true := by decide +kernel

/-- 05 R90, R94, R102 and the Shuttle's words of 16 R318: SYNC, a tree, hints, the custom instructions. -/
theorem test_decode_rest :
    decodeTableWord 128 (0x1180 + (0x08 * 2 ^ 48 + 0x8001) * 2 ^ 64) = some (.sync 0x8001)
    ∧ decodeTableWord 128 (0x10180 + 2 * 2 ^ 16 + (5 + 64) * 2 ^ 20 + 6 * 2 ^ 27 + 7 * 2 ^ 34 + (1 + 2 * 2 ^ 13 + 8191 * 2 ^ 26) * 2 ^ 64)
      = some (.brt 3 69 6 7 0 1 2 8191 0)
    ∧ (List.range 8).all (fun n => decide (decodeTableWord 128 (2 ^ n + 256 + ((0xF0 + 2 * n) * 2 ^ 48 + 2 ^ 48 - 1) * 2 ^ 64)
      = some (.hint n (2 * n) (2 ^ 48 - 1)))) = true
    ∧ ([(0x0B, 0, 31, 30, 0, Instr.gqpop 31 30), (0x0B, 1, 3, 4, 5, .rrput 3 4 5), (0x0B, 2, 3, 4, 5, .ertget 3 4 5), (0x0B, 3, 3, 4, 5, .ertset 3 4 5),
        (0x2B, 0, 3, 4, 5, .park 3 4 5), (0x2B, 1, 3, 4, 0, .unpark 3 4), (0x2B, 2, 3, 4, 5, .fwdrow 3 4 5), (0x2B, 3, 3, 4, 0, .dtile 3 4)].all
        (fun (o, f, rd, a, b, i) => decide (decodeTableWord 32 (o + rd * 2 ^ 7 + f * 2 ^ 12 + a * 2 ^ 15 + b * 2 ^ 20) = some i))) = true := by decide +kernel

/-! ## Single steps -/

/-- A state with scalars and predicates, user mode, the trap vector at 0x8000; the context and core after one step on a syllable of a slot. -/
def U (s : List (Nat × BitVec 64)) (p : List (Nat × Bool) := []) : State :=
  st { C4 with sp := { Special.init with prio := 3 }, clock := 100, regs := { C4.regs with s := s, p := p, armed := [], shadow := [] } } { K3 with tvec := 0x8000 }
def nextOf (r : Host.Outcome State Fault Refusal) : Option State := match r with | .next t => some t | _ => none
def after (s : State) (slot w : Nat) : Option State := nextOf (step (s.withFetchWord 128 (2 ^ slot + 256 + w * 2 ^ 64)))
def sees (s : State) (slot w : Nat) (f : Ctx → Bool) : Bool := (after s slot w).any (fun t => f (ctxOf t 0 0))
/-- The word of an SX syllable with PATH 7 (05 R84, R100). -/
def sx (opc d a b : Nat) (fn : Nat := 0) : Nat := opc * 2 ^ 48 + 7 * 2 ^ 45 + d * 2 ^ 32 + a * 2 ^ 26 + b * 2 ^ 20 + fn
/-- What waits in the shadow record to land n cycles after the group. -/
def lands (c : Ctx) (n : Nat) (l : Land) : Bool := c.regs.shadow.any (fun p => decide (p.due = 100 + n ∧ p.what = l))

theorem test_add_wraps : sees (U [(1, 5#64), (2, BitVec.allOnes 64)]) 0 (sx 0 5 1 2) (fun c => readS c 5 == 4#64 && c.pc == 4112 && c.clock == 101) = true := by decide +kernel
theorem test_sub_order : sees (U [(1, 3#64), (2, 5#64)]) 0 (sx 2 1 1 2) (fun c => readS c 1 == BitVec.ofInt 64 (-2)) = true := by decide +kernel
theorem test_mul_lands : sees (U [(1, 3#64), (2, 5#64)]) 0 (sx 3 5 1 2) (fun c => readS c 5 == 0#64 && lands c 3 (.scalar 5 15#64)) = true := by decide +kernel
theorem test_div_by_zero : sees (U [(4, 7#64)]) 0 (sx 6 3 4 5) (fun c => lands c 18 (.scalar 3 (BitVec.allOnes 64))) = true := by decide +kernel
theorem test_rem_by_zero : sees (U [(4, 7#64)]) 0 (sx 8 3 4 5) (fun c => lands c 18 (.scalar 3 7#64)) = true := by decide +kernel
theorem test_sra_sign : sees (U [(1, 0x8000000000000000#64)]) 0 (sx 0x16 5 1 0 (64 + 63)) (fun c => readS c 5 == BitVec.allOnes 64) = true := by decide +kernel
theorem test_li_signs : sees (U []) 0 (0x25 * 2 ^ 48 + 7 * 2 ^ 45 + 9 * 2 ^ 32 + 0x9ABCDEF0) (fun c => readS c 9 == 0xFFFFFFFF9ABCDEF0#64) = true := by decide +kernel
theorem test_lih_upper : sees (U [(9, 0xFFFFFFFF9ABCDEF0#64)]) 0 (0x26 * 2 ^ 48 + 7 * 2 ^ 45 + 9 * 2 ^ 32 + 0x12345678) (fun c => readS c 9 == 0x123456789ABCDEF0#64) = true := by decide +kernel
theorem test_s0_discards : sees (U [(1, 5#64)]) 0 (sx 0 0 1 1) (fun c => readS c 0 == 0#64 && c.pc == 4112) = true := by decide +kernel
theorem test_sfcvt_bf16 : sees (U [(4, 0x40490FDB#64)]) 0 (sx 0x44 6 4 0 (1 + 16 * 3))
    (fun c => c.regs.shadow.any (fun p => p.what == .scalar 6 0x4049#64) || readS c 6 == 0x4049#64) = true := by decide +kernel
theorem test_guard_off : sees (U [(1, 5#64)] [(3, false)]) 0 (sx 0 5 1 1 + 3 * 2 ^ 39) (fun c => readS c 5 == 0#64 && c.pc == 4112) = true := by decide +kernel
theorem test_hint_advances : sees (U []) 3 (0xFF * 2 ^ 48 + 2 ^ 47) (fun c => c.pc == 4112 && c.sp.cause == 0) = true := by decide +kernel

/-- The trees of the example in 05 R94, at 0x4000: leaf 1 to 0x4030, leaf 2 to 0x3EC0, leaf 0 falls through to 0x4018; ADDI executes on leaf 1. -/
def treeStep (p5 p6 : Bool) : Option State :=
  let s := U [(7, 41#64)] [(5, p5), (6, p6)]
  let c := { ctxOf s 0 0 with pc := 0x4000 }
  nextOf (step { setCtx s 0 0 c with mem := setBytes [] 0x4000 (words [0x0000000230520181, 0x060120071C000001, 0x000000000003FB00]), turns := [.core 0] })
theorem test_tree_leaf1 : (treeStep true true).any (fun t => (ctxOf t 0 0).pc == 0x4030 && readS (ctxOf t 0 0) 7 == 42#64) = true := by decide +kernel
theorem test_tree_leaf2 : (treeStep false false).any (fun t => (ctxOf t 0 0).pc == 0x3EC0 && readS (ctxOf t 0 0) 7 == 41#64) = true := by decide +kernel
theorem test_tree_leaf0 : (treeStep false true).any (fun t => (ctxOf t 0 0).pc == 0x4018 && readS (ctxOf t 0 0) 7 == 41#64) = true := by decide +kernel

/-- 22 R376 to R384: EPC names the group, ESLOT the slot, and the handler begins at TVEC 6 cycles later. -/
theorem test_illegal_opcode : sees (U []) 0 (0x0F * 2 ^ 48 + 7 * 2 ^ 45)
    (fun c => c.sp.cause == 1 && c.sp.epc == 4096 && c.sp.einfo == BitVec.ofNat 64 (0x0F * 2 ^ 48 + 7 * 2 ^ 45) && c.sp.hmode && c.pc == 0x8000) = true := by decide +kernel
theorem test_reserved_bit : sees (U []) 0 (sx 0 5 1 1 1) (fun c => c.sp.cause == 2 && c.pc == 0x8000) = true := by decide +kernel
theorem test_wrong_slot : sees (U []) 1 (0x22 * 2 ^ 48 + 7 * 2 ^ 45 + 2 * 2 ^ 36 + 2 ^ 32 + 2 * 2 ^ 8) (fun c => c.sp.cause == 3) = true := by decide +kernel
theorem test_path_one : sees (U []) 0 (sx 0 5 1 1 - 6 * 2 ^ 45) (fun c => c.sp.cause == 0x0C) = true := by decide +kernel
theorem test_trap_takes_0E : sees (U []) 7 (0x30 * 2 ^ 48 + 7 * 2 ^ 45 + 77) (fun c => c.sp.cause == 0x0E && c.sp.hmode && c.pc == 0x8000 && c.sp.epc == 4096) = true := by decide +kernel
theorem test_movts_needs_mode : sees (U [(1, 5#64)]) 0 (0x61 * 2 ^ 48 + 7 * 2 ^ 45 + 2 ^ 32) (fun c => c.sp.cause == 5) = true := by decide +kernel
theorem test_eret_resumes : sees (setCtx (U []) 0 0 { ctxOf (U []) 0 0 with sp := { Special.init with hmode := true, epc := 0x6000, cause := 0x0E } }) 7 (0x32 * 2 ^ 48 + 7 * 2 ^ 45)
    (fun c => c.pc == 0x6000 && !c.sp.hmode) = true := by decide +kernel
theorem test_queue_unconfigured : sees (U []) 2 (0x00 * 2 ^ 48 + 7 * 2 ^ 45 + 2 * 2 ^ 36 + 2 ^ 32 + 0x7F * 2 ^ 16 + 5 * 2 ^ 8 + 0x88)
    (fun c => c.sp.cause == 8 && c.sp.einfo == 5#64) = true := by decide +kernel

/-- 12 R241: a WAITS below its count stalls; once the count stands it goes on. -/
theorem test_waits_stalls : sees (U []) 7 (0x09 * 2 ^ 48 + 7 * 2 ^ 45 + 0x22) (fun c => c.pc == 4096 && c.stalled == 1 && c.clock == 101) = true := by decide +kernel
theorem test_waits_goes : sees (setCtx (U []) 0 0 { ctxOf (U []) 0 0 with sems := [(2, 1)] }) 7 (0x09 * 2 ^ 48 + 7 * 2 ^ 45 + 0x22) (fun c => c.pc == 4112) = true := by decide +kernel
theorem test_loop_example : sees (U []) 7 0x04E00000000B20 (fun c => c.pc == 4112 && c.regs.armed.length == 1) = true := by decide +kernel

/-- The Shuttle runs RV64 as well: ADDI x10, x10, -1 (R311), and DTILE of a key without a tile. -/
theorem test_shuttle_addi : (nextOf (step (State.reset.withFetchWord 32 0xFFF50513))).any (fun t => xOf t 10 == BitVec.allOnes 64 && (shOf t 0).pc == 4) = true := by decide +kernel
theorem test_reset_not_due : nextOf (exec (.extentFillComplete) State.reset) = some State.reset := by decide +kernel

end Sys2Proof.Tests
end

section
/-! PROOFS. What reset leaves (O54). The stores of a fresh module list nothing, so an agent is its initial record and a register holds its
reset value; what the spec states is then read off the initial records. -/

namespace Sys2Proof.Machine

/-! ## A store that lists nothing -/

@[simp] theorem mapGet_nil {α : Type} (d : α) (k : Nat) : mapGet [] d k = d := rfl

/-! ## The agents of a fresh module -/

@[simp] theorem ctxOf_reset (k x : Nat) : ctxOf State.reset k x = Ctx.init := mapGet_nil _ _
@[simp] theorem coreOf_reset (k : Nat) : coreOf State.reset k = Core.init k := mapGet_nil _ _
@[simp] theorem dieOf_reset (d : Nat) : dieOf State.reset d = Die.init := mapGet_nil _ _
@[simp] theorem taskOf_reset (d r : Nat) : taskOf State.reset d r = TaskRec.init := by
  rw [taskOf, dieOf_reset]; exact mapGet_nil _ _
@[simp] theorem joinOf_reset (d j : Nat) : joinOf State.reset d j = JoinCtr.init := by
  rw [joinOf, dieOf_reset]; exact mapGet_nil _ _

/-! ## The registers of a context at task start (02 R28, 03 R46) -/

@[simp] theorem readS_init (n : Nat) : readS Ctx.init n = 0#64 := ite_self _
theorem readP_zero (c : Ctx) : readP c 0 = true := if_pos rfl
theorem readP_init {n : Nat} (hn : n ≠ 0) : readP Ctx.init n = false := if_neg hn
@[simp] theorem readC_init (n : Nat) : readC Ctx.init n = Cap.zero := mapGet_nil _ _
@[simp] theorem readE_init (n : Nat) : readE Ctx.init n = 0#128 := mapGet_nil _ _
@[simp] theorem semOf_init (n : Nat) : semOf Ctx.init n = 0 := mapGet_nil _ _
@[simp] theorem portOf_init (n : Nat) : portOf Ctx.init n = Port.init := mapGet_nil _ _

/-! ## Banks and die registers -/

/-- No context owns a bank of a core at reset (03 R48, R49). -/
@[simp] theorem bankOwner_init (k b : Nat) : bankOwner (Core.init k).vrf b = 0 := mapGet_nil _ _

@[simp] theorem regRaw_init (off : Nat) : regRaw Die.init off = regReset off := mapGet_nil _ _

/-- EVTHRn starts at its largest value (02 R36): the 64 thresholds lie above the pattern banks and away from every register listed alone. -/
theorem regReset_evthr {n : Nat} (hn : n < 64) : regReset (0x3300 + 8 * n) = 0xFFFFFFFF := by
  have habove : ¬ (0x3300 + 8 * n < 0x3000) := by omega
  have hbelow : 0x3300 + 8 * n < 0x3500 := by omega
  simp (disch := omega) only [regReset, habove, hbelow, decide_true, decide_false, Nat.le_add_right, Bool.and_true, Bool.and_false,
    Bool.false_eq_true, if_neg, if_true, if_false]

/-- Settles O54: contexts, cores and dies are their initial records, and what lies outside them is empty or at its start. -/
theorem resetState : Obligations.ResetState := by
  unfold Obligations.ResetState
  refine ⟨fun k x => ?context, fun k => ?core, fun d => ?die, ?module⟩
  case context =>
    rw [ctxOf_reset]
    exact ⟨rfl, rfl, rfl, rfl, rfl, rfl, readS_init, readP_zero _, fun _ => readP_init, readC_init, readE_init, semOf_init,
      fun n => by rw [portOf_init]; rfl⟩
  case core =>
    rw [coreOf_reset]
    exact ⟨rfl, rfl, rfl, rfl, rfl, rfl, bankOwner_init k, rfl, rfl, rfl⟩
  case die =>
    simp only [dieOf_reset, taskOf_reset, joinOf_reset, regRaw_init]
    exact ⟨rfl, fun _ => rfl, fun _ => rfl, rfl, rfl, rfl, rfl, rfl, fun _ => regReset_evthr⟩
  case module => exact ⟨rfl, rfl, rfl, rfl, rfl, rfl, rfl, rfl⟩

end Sys2Proof.Machine
end

section
/-! PROOFS. Sync lines and semaphores (O25, 02 R39, R40, 12 R238, R239): what SYNC does in each state of its core's wait, and WAITS on each side of
its count; the statement then follows by the laws of issue. -/

namespace Sys2Proof.Machine

/-! ## SYNC by the state of the wait -/

/-- A SYNC on no line of its core issues at once. -/
theorem opSync_none {mask : Nat} {j : Iss} (hw : j.core.syncWait = none) (hl : mask &&& j.core.lines = 0) : opSync mask j = .ok j := by
  simp [opSync, hw, maskTo, hl]

/-- A SYNC that has not arrived does so, when nothing else holds its group back. -/
theorem opSync_arrives {mask : Nat} {j : Iss} (hj : j.Sound) (hw : j.core.syncWait = none) (hl : mask &&& j.core.lines ≠ 0) :
    opSync mask j = .error (.stall (fun s =>
      checkLines (setActCore s { actCore s with arrived := (actCore s).arrived ||| (mask &&& j.core.lines), syncWait := some (mask &&& j.core.lines, s.now) })
        s.core (mask &&& j.core.lines))) := by
  obtain ⟨-, -, hport, hwait⟩ := hj
  simp [opSync, hw, maskTo, hl, hport, hwait]

/-- A SYNC that has arrived waits while one of its lines stands, and issues once none does. -/
theorem opSync_arrived {mask ls since : Nat} {j : Iss} (hw : j.core.syncWait = some (ls, since)) :
    opSync mask j = if j.core.arrived &&& ls = 0 then .ok (j.setCore { j.core with syncWait := none }) else stallNow := by
  simp only [opSync, hw]; rfl

/-! ## WAITS by the semaphore's count -/

theorem waits_below {j : Iss} {m n : Nat} (h : semOf j.ctx m < n) : j.waits m n = stallNow := if_pos h

theorem waits_core {j : Iss} {m n : Nat} (h : n ≤ semOf j.ctx m) (hw : j.ctx.semWide.testBit m = false) :
    j.waits m n = .ok (j.setCtx { j.ctx with sems := mapSet j.ctx.sems 0 m (semOf j.ctx m - n) }) := by
  rw [Nat.testBit_eq_decide_div_mod_eq, decide_eq_false_iff_not] at hw
  simp only [Iss.waits, if_neg (Nat.not_lt.mpr h), field, Nat.pow_one, if_neg hw]

/-- A count of a scope wider than the core drops the core's lines as the group ends. -/
theorem waits_wide {j : Iss} {m n : Nat} (h : n ≤ semOf j.ctx m) (hw : j.ctx.semWide.testBit m = true) :
    j.waits m n = .ok ((j.setCtx { j.ctx with sems := mapSet j.ctx.sems 0 m (semOf j.ctx m - n) }).atEnd (fun s => dropLines s s.core s.cx)) := by
  rw [Nat.testBit_eq_decide_div_mod_eq, decide_eq_true_eq] at hw
  simp only [Iss.waits, if_neg (Nat.not_lt.mpr h), field, Nat.pow_one, if_pos hw]

theorem opWaitsReg_clean {f : YX} {j : Iss} (hc : Clean [f.xa] j) :
    opWaitsReg f j = j.waits (f.fn % 16) ((readS j.ctx f.xa).toNat % 65536) := by
  rw [opWaitsReg, s_clean (hc _ List.mem_cons_self)]

/-- What either WAITS does, once its operands have been read: below n it stalls, else it subtracts. -/
theorem waits_laws {i : Instr} {op : Op} {clean : Iss → Prop} {m : Nat} {n : Iss → Nat} (he : ∀ s, exec i s = .next (issueSyl i op s))
    (ho : ∀ s, clean (began s i) → op (began s i) = (began s i).waits m (n (began s i))) :
    Waits i (fun j => clean j ∧ semOf j.ctx m < n j) (fun _ s => s)
    ∧ Completes i (fun j => clean j ∧ n j ≤ semOf j.ctx m ∧ j.ctx.semWide.testBit m = false)
        (fun j => j.setCtx { j.ctx with sems := mapSet j.ctx.sems 0 m (semOf j.ctx m - n j) })
    ∧ Completes i (fun j => clean j ∧ n j ≤ semOf j.ctx m ∧ j.ctx.semWide.testBit m = true)
        (fun j => (j.setCtx { j.ctx with sems := mapSet j.ctx.sems 0 m (semOf j.ctx m - n j) }).atEnd (fun s => dropLines s s.core s.cx)) := by
  refine ⟨waits_of he ?below, completes_of he ?core fun s _ => began_sound s i, completes_of he ?wide fun s _ => began_sound s i⟩
  case below =>
    rintro s ⟨hc, hn⟩
    rw [ho s hc, waits_below hn]; rfl
  case core =>
    rintro s ⟨hc, hn, hw⟩
    rw [ho s hc, waits_core hn hw]
  case wide =>
    rintro s ⟨hc, hn, hw⟩
    rw [ho s hc, waits_wide hn hw]

/-- Settles O25: SYNC by the three states of its wait, WAITS by its count. -/
theorem syncAndSemaphores : Obligations.SyncAndSemaphores := by
  unfold Obligations.SyncAndSemaphores
  refine ⟨fun mask => ⟨?none, ?arrives, fun ls since => ⟨?stands, ?released⟩⟩, fun g f => ⟨?imm, ?reg⟩⟩
  case none => exact completes_of (op := opSync mask) (fun _ => rfl) (fun _ ⟨hw, hl⟩ => opSync_none hw hl) fun s _ => began_sound s _
  case arrives => exact waits_of (op := opSync mask) (fun _ => rfl) fun s ⟨hw, hl⟩ => opSync_arrives (began_sound s _) hw hl
  case stands => exact waits_of (op := opSync mask) (fun _ => rfl) fun s ⟨hw, hl⟩ => (opSync_arrived hw).trans (if_neg hl)
  case released =>
    exact completes_of (op := opSync mask) (fun _ => rfl) (fun s ⟨hw, hl⟩ => (opSync_arrived hw).trans (if_pos hl)) fun s _ => began_sound s (.sync mask)
  case imm => exact waits_laws (op := opWaitsImm f) (fun _ => rfl) fun _ _ => rfl
  case reg => exact waits_laws (op := opWaitsReg f) (fun _ => rfl) fun s hc => opWaitsReg_clean hc

end Sys2Proof.Machine
end

section
/-! PROOFS. The task instructions (O26, 02 R23 to R34, 12 R240 to R245, R460, 26 R442, R443): what reading a template gives, and what each
instruction's meaning is on clean operands; the statement then follows by the laws of issue. -/

namespace Sys2Proof.Machine

/-! ## The record template of an instruction (12 R241) -/

/-- Where the template lies in the S buffer, and its eight words. -/
def templateAddr (f : YX) (j : Iss) : Nat := (readS j.ctx f.xb).toNat % 1048576
def templateWords (f : YX) (j : Iss) : List Nat := words8 (readBuf j.st j.st.core j.st.cx 3 (templateAddr f j) 64).1
/-- The template is read without a trap or a stall, and its fields are in range. -/
def TemplateGood (f : YX) (j : Iss) : Prop :=
  Clean [f.xb] j ∧ templateAddr f j % 64 = 0 ∧ templateAddr f j + 64 ≤ bufSize 3 ∧ Owns j 3 (templateAddr f j) 64
  ∧ templateBad (templateWords f j) = false
/-- The record it describes, and the die whose table takes that. -/
def newRecord (f : YX) (j : Iss) : TaskRec := j.record f.xc (templateWords f j)
def newHome (f : YX) (j : Iss) : Nat := dieFor j.st j.die (newRecord f j).scope (newRecord f j).core

theorem checkBuf_ok {j : Iss} {code a n align sz : Nat} (ha : a % align = 0) (hb : a + n ≤ bufSize code) (ho : Owns j code a n) :
    j.checkBuf code a n align sz true = .ok () := by
  have hs : ¬ bufSize code < a + n := Nat.not_lt.mpr hb
  simp only [Owns] at ho
  simp [Iss.checkBuf, ha, hs, Iss.ownRegion, ho, Iss.ownFrom]

theorem template_good {f : YX} {j : Iss} (h : TemplateGood f j) : j.template f.xb = .ok (j, templateWords f j) := by
  obtain ⟨hclean, halign, hsize, hown, hgood⟩ := h
  have hcheck : j.checkBuf 3 (templateAddr f j) 64 64 0 true = .ok () := checkBuf_ok halign hsize hown
  have hs : j.s f.xb = (j, readS j.ctx f.xb) := s_clean (hclean _ List.mem_cons_self)
  simp only [templateAddr, templateWords] at hcheck hgood
  simp [Iss.template, hs, hcheck, hgood, templateWords, templateAddr, bind, Except.bind]

/-! ## Join counters (02 R32, 26 R442) -/

/-- The form names a counter of the partition. -/
def OwnForm (j : Iss) (m : Nat) : Prop := m.testBit 15 = true ∧ sameGroup j.st j.die (joinDie m) = true

theorem counter_own {j : Iss} {m : Nat} (h : OwnForm j m) : j.counter m = joinOf j.st (joinDie m) (joinIx m) := by
  obtain ⟨hbit, hgroup⟩ := h
  have hfield : field m 15 1 = 1 := by rwa [Nat.testBit_eq_decide_div_mod_eq, decide_eq_true_eq] at hbit
  simp [Iss.counter, hfield, hgroup]

/-- EINFO of a signaller that finds no counter is its JOIN form alone. -/
theorem joinInfo_form (m : Nat) : joinInfo m 0 0 = m := by simp [joinInfo]
theorem fullInfo_record (d : Nat) : fullInfo false d = 2 * d := by simp [fullInfo]
theorem fullInfo_counter (d : Nat) : fullInfo true d = 1 + 2 * d := rfl

/-- What a seal of counter c does as its group's mark has passed: it fires a counter whose signals are all there, and seals another. -/
def sealEffect (f : YX) (j : Iss) (m n r : Nat) (c : JoinCtr) (s : State) : State :=
  let t := countNew (setRec s (joinDie m) r (newRecord f j)) (newRecord f j)
  if c.signals = n then
    awaitAct (setJoin t (joinDie m) (joinIx m) JoinCtr.init) (dieOfCore t.core) t.core t.cx (uptoNow t t.core) (.ready (joinDie m) r)
  else
    awaitAct (setJoin t (joinDie m) (joinIx m) ⟨.sealed, c.signals, n, r, c.since⟩) (joinDie m) t.core t.cx (uptoNow t t.core)
      (.seal (joinDie m) (joinIx m) n r)

/-! ## TSPAWN and TLVREC: a record is taken, or the table is full -/

section
variable {f : YX} {j : Iss} (hp : j.poisoned = false) (ht : TemplateGood f j)
include hp ht

theorem opTspawn_takes {r : Nat} (hr : freeRec j.st (newHome f j) = some r) :
    opTspawn f j = .ok ((j.writeS 8 f.xa (BitVec.ofNat 64 (r + 16384 * newHome f j))).afterMark (fun s =>
      awaitAct (countNew (setRec s (newHome f j) r (newRecord f j)) (newRecord f j)) (dieOfCore s.core) s.core s.cx (uptoNow s s.core)
        (.ready (newHome f j) r))) := by
  simp only [newHome, newRecord] at hr
  simp [opTspawn, template_good ht, bind, Except.bind, hp, hr, newHome, newRecord]

theorem opTspawn_full (hr : freeRec j.st (newHome f j) = none) : opTspawn f j = trapNow 0x22 (2 * newHome f j) := by
  simp only [newHome, newRecord] at hr
  simp [opTspawn, template_good ht, bind, Except.bind, hp, hr, newHome, newRecord, fullInfo_record]

theorem levelRecord_takes {id r : Nat} (hr : freeRec j.st (newHome f j) = some r) :
    j.levelRecord f id = .ok (j.afterMark (fun s =>
      awaitAct (setRec s (newHome f j) r (newRecord f j)) (dieOfCore s.core) s.core s.cx (uptoNow s s.core)
        (.record (levelKey (newRecord f j).job (field f.fn 16 2) id) (newHome f j) r))) := by
  simp only [newHome, newRecord] at hr
  simp [Iss.levelRecord, template_good ht, bind, Except.bind, hp, hr, newHome, newRecord]

theorem levelRecord_full {id : Nat} (hr : freeRec j.st (newHome f j) = none) : j.levelRecord f id = trapNow 0x22 (2 * newHome f j) := by
  simp only [newHome, newRecord] at hr
  simp [Iss.levelRecord, template_good ht, bind, Except.bind, hp, hr, newHome, newRecord, fullInfo_record]

/-! ## TSEAL: the counter must be open and not past its count -/

theorem seal_notOpen {m n : Nat} (ho : OwnForm j m) (hc : (joinOf j.st (joinDie m) (joinIx m)).state ≠ .opened) :
    j.seal f m n = trapNow 0x20 (joinInfo m (joinOf j.st (joinDie m) (joinIx m)).signals n) := by
  simp [Iss.seal, template_good ht, bind, Except.bind, hp, counter_own ho, hc]

theorem seal_past {m n : Nat} (ho : OwnForm j m) (hc : (joinOf j.st (joinDie m) (joinIx m)).state = .opened)
    (hn : n < (joinOf j.st (joinDie m) (joinIx m)).signals) :
    j.seal f m n = trapNow 0x21 (joinInfo m (joinOf j.st (joinDie m) (joinIx m)).signals n) := by
  simp [Iss.seal, template_good ht, bind, Except.bind, hp, counter_own ho, hc, hn]

theorem seal_takes {m n r : Nat} (ho : OwnForm j m) (hc : (joinOf j.st (joinDie m) (joinIx m)).state = .opened)
    (hn : (joinOf j.st (joinDie m) (joinIx m)).signals ≤ n) (hr : freeRec j.st (joinDie m) = some r) :
    j.seal f m n = .ok (j.afterMark (sealEffect f j m n r (joinOf j.st (joinDie m) (joinIx m)))) := by
  simp [Iss.seal, template_good ht, bind, Except.bind, hp, counter_own ho, hc, Nat.not_lt.mpr hn, hr]
  rfl

end

/-- What either TSEAL does, once its operands have been read. -/
theorem seal_laws {i : Instr} {op : Op} {f : YX} {clean : Iss → Prop} {n : Iss → Nat} {m : Iss → Nat} (he : ∀ s, exec i s = .next (issueSyl i op s))
    (ho : ∀ s, clean (began s i) → op (began s i) = (began s i).seal f (m (began s i)) (n (began s i))) :
    let c : Iss → JoinCtr := fun j => joinOf j.st (joinDie (m j)) (joinIx (m j))
    (∀ r, Completes i (fun j => clean j ∧ TemplateGood f j ∧ OwnForm j (m j) ∧ (c j).state = .opened ∧ (c j).signals ≤ n j
        ∧ freeRec j.st (joinDie (m j)) = some r) (fun j => j.afterMark (sealEffect f j (m j) (n j) r (c j))))
    ∧ Traps i (fun j => clean j ∧ TemplateGood f j ∧ OwnForm j (m j) ∧ (c j).state ≠ .opened) 0x20 (fun j => joinInfo (m j) (c j).signals (n j))
    ∧ Traps i (fun j => clean j ∧ TemplateGood f j ∧ OwnForm j (m j) ∧ (c j).state = .opened ∧ n j < (c j).signals) 0x21
        (fun j => joinInfo (m j) (c j).signals (n j)) := by
  refine ⟨fun r => completes_of he ?takes fun s _ => began_sound s i, traps_of he ?notOpen, traps_of he ?past⟩
  case takes =>
    rintro s ⟨hclean, ht, hown, hopen, hn, hr⟩
    rw [ho s hclean, seal_takes rfl ht hown hopen hn hr]
  case notOpen =>
    rintro s ⟨hclean, ht, hown, hopen⟩
    exact (ho s hclean).trans (seal_notOpen rfl ht hown hopen)
  case past =>
    rintro s ⟨hclean, ht, hown, hopen, hn⟩
    exact (ho s hclean).trans (seal_past rfl ht hown hopen hn)

/-- What either TLVREC does. -/
theorem levelRecord_laws {i : Instr} {op : Op} {f : YX} {clean : Iss → Prop} {id : Iss → Nat} (he : ∀ s, exec i s = .next (issueSyl i op s))
    (ho : ∀ s, clean (began s i) → op (began s i) = (began s i).levelRecord f (id (began s i))) :
    (∀ r, Completes i (fun j => clean j ∧ TemplateGood f j ∧ freeRec j.st (newHome f j) = some r) (fun j => j.afterMark (fun s =>
        awaitAct (setRec s (newHome f j) r (newRecord f j)) (dieOfCore s.core) s.core s.cx (uptoNow s s.core)
          (.record (levelKey (newRecord f j).job (field f.fn 16 2) (id j)) (newHome f j) r))))
    ∧ Traps i (fun j => clean j ∧ TemplateGood f j ∧ freeRec j.st (newHome f j) = none) 0x22 (fun j => 2 * newHome f j) := by
  refine ⟨fun r => completes_of he ?takes fun s _ => began_sound s i, traps_of he ?full⟩
  case takes =>
    rintro s ⟨hclean, ht, hr⟩
    rw [ho s hclean, levelRecord_takes rfl ht hr]
  case full =>
    rintro s ⟨hclean, ht, hr⟩
    exact (ho s hclean).trans (levelRecord_full rfl ht hr)

/-! ## TSIGNAL -/

/-- The JOIN form that XA holds. -/
def signalForm (f : YX) (j : Iss) : Nat := (readS j.ctx f.xa).toNat % 65536

/-- A task that signals its own counter gives no implicit signal as it ends (02 R33). -/
def noteOwnSignal (m : Nat) (s : State) : State :=
  match (actCtx s).task with
  | some (d, r) => if (taskOf s d r).join = m then setRec s d r { taskOf s d r with signalled := true } else s
  | none => s

/-- A signaller finds a counter FREE if it is, or was as the cycle began (26 R442). -/
theorem foundFree_iff (s : State) (c : JoinCtr) : foundFree s c = true ↔ c.state = .free ∨ c.since = s.now + 1 := by
  simp [foundFree]

theorem opTsignal_free {f : YX} {j : Iss} (hp : j.poisoned = false) (hc : Clean [f.xa] j) (ho : OwnForm j (signalForm f j))
    (hf : foundFree j.st (joinOf j.st (joinDie (signalForm f j)) (joinIx (signalForm f j))) = true) :
    opTsignal f j = trapNow 0x20 (signalForm f j) := by
  have hs : j.s f.xa = (j, readS j.ctx f.xa) := s_clean (hc _ List.mem_cons_self)
  rw [← counter_own ho] at hf
  simp only [signalForm] at hf
  simp [opTsignal, hs, hp, hf, joinInfo_form, signalForm]

theorem opTsignal_counts {f : YX} {j : Iss} (hp : j.poisoned = false) (hc : Clean [f.xa] j) (ho : OwnForm j (signalForm f j))
    (hf : foundFree j.st (joinOf j.st (joinDie (signalForm f j)) (joinIx (signalForm f j))) = false) :
    opTsignal f j = .ok (j.afterMark (fun s =>
      let t := noteOwnSignal (signalForm f j) s
      awaitAct t (dieOfCore t.core) t.core t.cx (uptoNow t t.core) (.signal (joinDie (signalForm f j)) (joinIx (signalForm f j))))) := by
  have hs : j.s f.xa = (j, readS j.ctx f.xa) := s_clean (hc _ List.mem_cons_self)
  rw [← counter_own ho] at hf
  simp only [signalForm] at hf
  simp [opTsignal, hs, hp, hf, signalForm]
  rfl

/-- Settles O26: each instruction by what it finds in its tables. -/
theorem taskOperations : Obligations.TaskOperations := by
  unfold Obligations.TaskOperations
  intro g f
  have one : ∀ {n : Nat} {j : Iss}, Clean [n] j → j.s n = (j, readS j.ctx n) := fun h => s_clean (h _ List.mem_cons_self)
  refine ⟨fun r => ?spawn, ?spawnFull, fun n => ?join, ?joinFull, ⟨?sealImm, ?sealReg⟩, ?signal, ?signalFree, ?exit,
    ⟨?cancelImm, ?cancelReg, ?prioImm, ?prioReg⟩, ?levelImm, ?levelReg⟩
  case spawn => exact completes_of (op := opTspawn f) (fun _ => rfl) (fun s ⟨ht, hr⟩ => opTspawn_takes rfl ht hr) fun s _ => began_sound s (.tspawn g f)
  case spawnFull => exact traps_of (op := opTspawn f) (fun _ => rfl) fun s ⟨ht, hr⟩ => opTspawn_full rfl ht hr
  case join =>
    refine completes_of (op := opTjoin f) (fun _ => rfl) (fun s hn => ?_) fun s _ => began_sound s (.tjoin g f)
    rw [opTjoin, show freeJoin _ (began s (.tjoin g f)).die = some n from hn]; rfl
  case joinFull =>
    refine traps_of (op := opTjoin f) (fun _ => rfl) fun s hn => ?_
    rw [opTjoin, show freeJoin _ (began s (.tjoin g f)).die = none from hn]; rfl
  case sealImm =>
    refine seal_laws (op := opTsealImm f) (fun _ => rfl) fun s hc => ?_
    rw [opTsealImm, one hc]
  case sealReg =>
    refine seal_laws (op := opTsealReg f) (fun _ => rfl) fun s hc => ?_
    rw [opTsealReg, s_clean (hc _ List.mem_cons_self), s_clean (hc _ (List.mem_cons_of_mem _ List.mem_cons_self))]
  case signal =>
    refine completes_of (op := opTsignal f) (fun _ => rfl) (fun s ⟨hc, ho, hfree, hsince⟩ => opTsignal_counts rfl hc ho ?_)
      fun s _ => began_sound s (.tsignal g f)
    exact Bool.eq_false_iff.mpr fun h => ((foundFree_iff _ _).mp h).elim hfree hsince
  case signalFree => exact traps_of (op := opTsignal f) (fun _ => rfl) fun s ⟨hc, ho, hfree⟩ => opTsignal_free rfl hc ho ((foundFree_iff _ _).mpr hfree)
  case exit => exact completes_of (op := opTexit f) (fun _ => rfl) (fun _ _ => rfl) fun s _ => began_sound s (.texit g f)
  case cancelImm => exact completes_of (op := opTcancelImm f) (fun _ => rfl) (fun _ _ => rfl) fun s _ => began_sound s (.tcancelImm g f)
  case cancelReg =>
    refine completes_of (op := opTcancelReg f) (fun _ => rfl) (fun s hc => ?_) fun s _ => began_sound s (.tcancelReg g f)
    rw [opTcancelReg, one hc]; rfl
  case prioImm => exact completes_of (op := opTprioImm f) (fun _ => rfl) (fun _ _ => rfl) fun s _ => began_sound s (.tprioImm g f)
  case prioReg =>
    refine completes_of (op := opTprioReg f) (fun _ => rfl) (fun s hc => ?_) fun s _ => began_sound s (.tprioReg g f)
    rw [opTprioReg, one hc]; rfl
  case levelImm => exact levelRecord_laws (op := opTlvrecImm f) (fun _ => rfl) fun _ _ => rfl
  case levelReg =>
    refine levelRecord_laws (op := opTlvrecReg f) (fun _ => rfl) fun s hc => ?_
    rw [opTlvrecReg, one hc]

end Sys2Proof.Machine
end

section
/-! PROOFS. The issue logic between groups (O32, 02 R30, R31, 14 R284, R288). The search upwards from the last issuer meets the candidates in the
order of their distance from it, so it stops at the nearest of highest PRIO; the landing and counting that follow leave the choice as it was made. -/

namespace Sys2Proof.Machine

/-! ## The choice (02 R31) -/

/-- How far a context lies from the one after the last issuer. -/
def distance (last y : Nat) : Nat := (y + 8 - (last + 1) % 8) % 8
/-- The contexts of a core as the search takes them. -/
def searchOrder (last : Nat) : List Nat := (List.range 8).map (fun i => (last + 1 + i) % 8)

theorem distance_search {last i : Nat} (h : i < 8) : distance last ((last + 1 + i) % 8) = i := by
  unfold distance; omega
theorem mem_searchOrder {last y : Nat} : y ∈ searchOrder last ↔ y < 8 := by
  simp only [searchOrder, List.mem_map, List.mem_range]
  constructor
  · rintro ⟨i, -, rfl⟩; omega
  · exact fun h => ⟨distance last y, by unfold distance; omega, by unfold distance; omega⟩
theorem searchOrder_sorted (last : Nat) : (searchOrder last).Pairwise (fun a b => distance last a < distance last b) := by
  rw [searchOrder, List.pairwise_map]
  refine List.pairwise_lt_range.imp_of_mem fun ha hb hab => ?_
  rwa [distance_search (List.mem_range.mp ha), distance_search (List.mem_range.mp hb)]

/-- The running maximum of a list is a bound of it that some element, or the start, attains. -/
theorem foldl_max_eq {f : Nat → Nat} {b : Nat} (l : List Nat) {m : Nat} (hm : m ≤ b) (hle : ∀ y ∈ l, f y ≤ b)
    (hat : m = b ∨ ∃ y ∈ l, f y = b) :
    l.foldl (fun m y => Nat.max m (f y)) m = b := by
  induction l generalizing m with
  | nil => simpa using hat
  | cons a l ih =>
    have ha : f a ≤ b := hle a List.mem_cons_self
    refine ih (Nat.max_le.mpr ⟨hm, ha⟩) (fun y hy => hle y (List.mem_cons_of_mem a hy)) ?_
    rcases hat with rfl | ⟨y, hy, rfl⟩
    · exact .inl (Nat.max_eq_left ha)
    · rcases List.mem_cons.mp hy with rfl | hy
      · exact .inl (Nat.max_eq_right hm)
      · exact .inr ⟨y, hy, rfl⟩

/-- In a list in rising order of `d`, the search stops at the element that passes and is nearest of those that do. -/
theorem find?_nearest {l : List Nat} {d : Nat → Nat} {p : Nat → Bool} {x : Nat} (hs : l.Pairwise (fun a b => d a < d b)) (hx : x ∈ l) (hp : p x = true)
    (hmin : ∀ y ∈ l, p y = true → d x ≤ d y) : l.find? p = some x := by
  induction l with
  | nil => cases hx
  | cons a l ih =>
    obtain ⟨ha, hs⟩ := List.pairwise_cons.mp hs
    by_cases hpa : p a = true
    · rcases List.mem_cons.mp hx with rfl | hx
      · exact List.find?_cons_of_pos hpa
      · exact absurd (hmin a List.mem_cons_self hpa) (Nat.not_le.mpr (ha x hx))
    · have hxl : x ∈ l := (List.mem_cons.mp hx).resolve_left fun h => hpa (h ▸ hp)
      rw [List.find?_cons_of_neg hpa]
      exact ih hs hxl fun y hy => hmin y (List.mem_cons_of_mem a hy)

/-- The nearest candidate of highest PRIO is chosen. -/
theorem pickContext_nearest {s : State} {k x : Nat} (hx : x < 8) (hc : isCandidate s k x = true)
    (hbest : ∀ y, y < 8 → isCandidate s k y = true → prioOf s k y < prioOf s k x
      ∨ (prioOf s k y = prioOf s k x ∧ distance (coreOf s k).lastIssued x ≤ distance (coreOf s k).lastIssued y)) :
    pickContext s k = some x := by
  let cand := (searchOrder (coreOf s k).lastIssued).filter (isCandidate s k)
  have hmem : ∀ {y}, y ∈ cand ↔ y < 8 ∧ isCandidate s k y = true := by simp [cand, mem_searchOrder]
  have hmax : cand.foldl (fun m y => Nat.max m (prioOf s k y)) 0 = prioOf s k x := by
    refine foldl_max_eq cand (Nat.zero_le _) (fun y hy => ?_) (.inr ⟨x, hmem.mpr ⟨hx, hc⟩, rfl⟩)
    obtain ⟨hy, hcy⟩ := hmem.mp hy
    exact (hbest y hy hcy).elim Nat.le_of_lt (fun h => Nat.le_of_eq h.1)
  show cand.find? (fun y => prioOf s k y == cand.foldl (fun m y => Nat.max m (prioOf s k y)) 0) = some x
  rw [hmax]
  refine find?_nearest ((searchOrder_sorted (coreOf s k).lastIssued).filter (isCandidate s k)) (hmem.mpr ⟨hx, hc⟩) (beq_self_eq_true _) fun y hy hp => ?_
  obtain ⟨hy, hcy⟩ := hmem.mp hy
  exact (hbest y hy hcy).elim (fun h => absurd (beq_iff_eq.mp hp) (Nat.ne_of_lt h)) (·.2)

theorem pickContext_none {s : State} {k : Nat} (h : ∀ y, y < 8 → isCandidate s k y = false) : pickContext s k = none := by
  have hempty : (searchOrder (coreOf s k).lastIssued).filter (isCandidate s k) = [] :=
    List.filter_eq_nil_iff.mpr fun y hy => by simp [h y (mem_searchOrder.mp hy)]
  show List.find? _ ((searchOrder (coreOf s k).lastIssued).filter (isCandidate s k)) = none
  rw [hempty]; rfl

/-! ## The choice stands while what is due lands and the cycle is counted -/

/-- Context x of the acting core k holds issue and was the last to take it, with `left` cycles of the exchange left. -/
structure Issuing (k x left : Nat) (s : State) : Prop where
  core : s.core = k
  holder : (coreOf s k).holder = some x
  last : (coreOf s k).lastIssued = x
  exch : (coreOf s k).exchLeft = left

/-- A core record that names a holder is not that of reset, and is read back as stored. -/
theorem coreOf_setCore_held (s : State) {k x : Nat} {c : Core} (h : c.holder = some x) : coreOf (setCore s k c) k = c := by
  refine mapGet_mapSet_same _ _ fun he => ?_
  rw [he] at h
  cases h

namespace Issuing
variable {k x n : Nat} {s : State}

theorem setCore {c : Core} (hk : s.core = k) (hh : c.holder = some x) (hl : c.lastIssued = x) (he : c.exchLeft = n) :
    Issuing k x n (setCore s k c) := by
  have hc := coreOf_setCore_held s (k := k) hh
  exact ⟨hk, by rw [hc, hh], by rw [hc, hl], by rw [hc, he]⟩

theorem actAs {c : Core} (hh : c.holder = some x) (hl : c.lastIssued = x) (he : c.exchLeft = n) :
    Issuing k x n (actAs (Machine.setCore s k c) k x) := by
  have hc := coreOf_setCore_held s (k := k) hh
  exact ⟨rfl, (congrArg Core.holder hc).trans hh, (congrArg Core.lastIssued hc).trans hl, (congrArg Core.exchLeft hc).trans he⟩

variable (h : Issuing k x n s)
include h

theorem setCtx (l y : Nat) (c : Ctx) : Issuing k x n (setCtx s l y c) := ⟨h.core, h.holder, h.last, h.exch⟩
theorem setDie (d : Nat) (v : Die) : Issuing k x n (setDie s d v) := ⟨h.core, h.holder, h.last, h.exch⟩
theorem dropLines (y : Nat) : Issuing k x n (dropLines s k y) := by
  refine setCtx ?_ k y _
  exact setCore h.core h.holder h.last h.exch

theorem landRow (y q r : Nat) (v : Row) : Issuing k x n (landRow s k y q r v) := by
  have hrow : Issuing k x n (Machine.setCore s k { coreOf s k with vrf := vrfWrite (coreOf s k).vrf y r v }) := setCore h.core h.holder h.last h.exch
  simp only [Machine.landRow]
  split
  · exact hrow.setCtx k y _
  · exact hrow

theorem landPort (y g : Nat) (v : Row) : Issuing k x n (landPort s k y g v) := by
  simp only [Machine.landPort]
  split
  · exact h.setCtx k y _
  · refine setCtx ?_ k y _
    exact setCore h.core h.holder h.last h.exch

/-- A landing touches its context, the register file, the gate and the lines of its core. -/
theorem landOne (y : Nat) (p : Pend) : Issuing k x n (landOne s k y p) := by
  unfold Machine.landOne
  extract_lets p' s0 c s1 s2 s3
  have h0 : Issuing k x n s0 := by
    simp only [s0]; split
    · exact h.setCtx k y _
    · exact h
  have h1 : Issuing k x n s1 := by
    simp only [s1]; split <;> apply_rules [setCtx, landRow, landPort]
  have h2 : Issuing k x n s2 := by
    simp only [s2]; split
    · exact h1.setCtx k y _
    · exact h1
  have h3 : Issuing k x n s3 := by
    simp only [s3]; split
    · exact h2.dropLines y
    · exact h2
  split <;> apply_rules [setCtx]

theorem landDue (y : Nat) : Issuing k x n (landDue s k y) :=
  List.foldlRecOn _ _ (h.setCtx k y _) fun _ ht p _ => ht.landOne y p

theorem countMissed (t : Nat) : Issuing k x n (countMissed s k t) := setCore h.core h.holder h.last h.exch

theorem countCycle (busy : Bool) : Issuing k x n (countCycle s busy) := by
  unfold Machine.countCycle
  extract_lets s1 p c o s2
  have h1 : Issuing k x n s1 := h.core ▸ h.countMissed s.now
  have hc : c = coreOf s1 k := by simp only [c, actCore, h1.core]
  have h2 : Issuing k x n s2 := by
    simp only [s2, setActCore, h1.core, hc]
    exact setCore h1.core h1.holder h1.last h1.exch
  split
  · exact h2
  · exact h2.setDie _ _

end Issuing

/-- A context that is picked takes issue, in the last of two exchange cycles where another left it just before (02 R31). -/
theorem chooseContext_picks {s : State} {k x : Nat} (hh : (coreOf s k).holder = none) (hs : swapping s k = false) (hp : pickContext s k = some x) :
    Issuing k x (if (coreOf s k).exchLeft = 4 ∧ x ≠ (coreOf s k).lastIssued then 1 else 0) (chooseContext s k) := by
  simp only [chooseContext, hh, hs, hp, Option.isSome_none, Bool.or_self, Bool.false_eq_true, if_false, Bool.and_eq_true, decide_eq_true_eq]
  refine Issuing.countCycle (Issuing.landDue ?_ x) false
  exact Issuing.actAs rfl rfl rfl

/-- A cycle without a candidate is IDLE (14 R288). -/
theorem chooseContext_idle {s : State} {k : Nat} (hh : (coreOf s k).holder = none) (hs : swapping s k = false) (hp : pickContext s k = none)
    (he : (coreOf s k).exchLeft = 0) : chooseContext s k = countIdle s k := by
  simp [chooseContext, hh, hs, hp, he]

/-! ## Pre-emption (14 R284) -/

/-- A candidate PREEMPT_GAP above the holder asks for issue, outside handler mode. -/
theorem wantsPreempt_gap {s : State} {k x y : Nat} (hm : (ctxOf s k x).sp.hmode = false) (hg : pgap (dieOf s (dieOfCore k)) ≠ 0) (hy : y < 8) (hne : y ≠ x)
    (hc : isCandidate s k y = true) (hp : prioOf s k x + pgap (dieOf s (dieOfCore k)) ≤ prioOf s k y) : wantsPreempt s k x = true := by
  have hany : (List.range 8).any (fun y => y != x && isCandidate s k y
      && decide ((ctxOf s k x).sp.prio + pgap (dieOf s (dieOfCore k)) ≤ prioOf s k y)) = true :=
    List.any_eq_true.mpr ⟨y, List.mem_range.mpr hy, by simp only [bne_iff_ne.mpr hne, hc, Bool.and_self, Bool.true_and]; exact decide_eq_true hp⟩
  simp [wantsPreempt, hm, hg, hany, -List.any_eq_true]

theorem wantsPreempt_handler {s : State} {k x : Nat} (hm : (ctxOf s k x).sp.hmode = true) (hv : isVictim s k x = false) : wantsPreempt s k x = false := by
  simp [wantsPreempt, hm, hv]

/-- Settles O32: the search finds the nearest candidate of highest PRIO, and what the choice sets stands; a gap ends the stretch at a boundary. -/
theorem issueChoice : Obligations.IssueChoice := by
  unfold Obligations.IssueChoice
  refine ⟨?choice, ?idle, ?gap, ?handler⟩
  case choice =>
    intro s k x away hh hs hx hc hbest
    have ht := chooseContext_picks hh hs (pickContext_nearest hx hc hbest)
    exact ⟨_, rfl, ht.holder, ht.last, ht.exch⟩
  case idle =>
    intro s k hh hs hnone he
    exact congrArg _ (chooseContext_idle hh hs (pickContext_none hnone) he)
  case gap =>
    intro s k x y gap hh he hw hm hv hg hy hne hc hp
    have hwants : wantsPreempt s k x = true := wantsPreempt_gap hm hg hy hne hc hp
    show Host.Outcome.next (preemptIssue s k) = _
    simp [preemptIssue, hh, he, hw, hwants, hv]
  case handler =>
    intro s k x hh hm hv
    show Host.Outcome.next (preemptIssue s k) = _
    simp [preemptIssue, hh, wantsPreempt_handler hm hv]

end Sys2Proof.Machine
end

section
/-! PROOFS. The task unit (O35, 02 R28, 14 R280): the statement names any number as a die, and a module has dies 0 to 7. A record that waits in the
task unit of a die 8 is looked for where no task unit is, and stays HELD. -/

namespace Sys2Proof.Machine

theorem noWaiting_found {s : State} (h : ∀ u, u < 8 → (dieOf s u).tasks.waiting = []) (p : Waiting → Bool) :
    (List.range 8).find? (fun u => (dieOf s u).tasks.waiting.any p) = none :=
  List.find?_eq_none.mpr fun u hu => by simp [h u (List.mem_range.mp hu)]

/-- A record becomes READY from what waits in the dies of the module (01 R13): with nothing waiting there, nothing changes. -/
theorem contReady_elsewhere {s : State} (d r : Nat) (h : ∀ u, u < 8 → (dieOf s u).tasks.waiting = []) : contReady s d r = s := by
  unfold contReady
  simp only
  rw [noWaiting_found h]

/-- A wait for nothing, for record 0 of die 8, in the task unit of die 8, which holds that record. -/
def strayWait : Waiting := ⟨0, 0, 0, .ready 8 0⟩
def strayDie : State :=
  setDie State.reset 8 { Die.init with tasks := { Tasks.init with recs := [(0, { TaskRec.init with state := .held })], waiting := [strayWait] } }

/-- Refutes O35: die 8 is none of the module's, and the wait of its record is never found; the clause of CONTINUATION_READY lacks d < 8, which
WellFormed asks of the event. -/
theorem not_taskUnit : ¬ Obligations.TaskUnit := by
  unfold Obligations.TaskUnit
  rintro ⟨-, -, -, hready, -⟩
  have hwait : strayWait ∈ (dieOf strayDie 8).tasks.waiting := List.mem_cons_self
  obtain ⟨u, hu, hstate, -⟩ := hready strayDie 8 0 strayWait hwait rfl rfl rfl rfl
  have hsame : contReady strayDie 8 0 = strayDie := contReady_elsewhere 8 0 (by decide)
  cases hsame.symm.trans (Host.Outcome.next.inj hu)
  cases hstate

end Sys2Proof.Machine
end

section
/-! PROOFS. What the vector syllables share (08 R144 to R151): a syllable reads its sources and then makes one result of the rows; a masked result is
the operation on the active elements. The statements of 08 rest on these. -/

namespace Sys2Proof.Machine

/-! ## From a vector meaning to its instruction -/

/-- A meaning that reads its sources first completes with what it makes of the rows. -/
theorem completesTo_sources {i : Instr} {op : Op} {b n : Nat} {sels : List Nat} {make : Iss → Iss → List Row → Except Halt Iss}
    (he : ∀ s, exec i s = .next (issueSyl i op s)) (ho : ∀ j, op j = (j.sources b n sels []).bind (fun r => make j r.1 r.2)) :
    CompletesTo i (fun j k => ∃ j' rows, j.sources b n sels [] = .ok (j', rows) ∧ make j j' rows = .ok k) := by
  refine completesTo_of he ?_
  rintro s k ⟨j', rows, hs, hk⟩
  rw [ho, hs]
  exact hk

/-- The same, when what it makes is a row of elements. -/
theorem givesRow_of {i : Instr} {op : Op} {b n vd lat eb : Nat} {sels : List Nat} {res : Ctx → (Nat → BitVec 1024) → List FRes}
    (he : ∀ s, exec i s = .next (issueSyl i op s))
    (ho : ∀ j, op j = (j.sources b n sels []).bind (fun r => r.1.vectorOut vd lat eb (res j.ctx (rowBits r.2)) r.2)) :
    GivesRow i b n sels vd lat eb res := completesTo_sources he ho

/-! ## Elements under a mask (R146) -/

theorem elem_lt (b : Nat) (v : BitVec 1024) (e : Nat) : elem b v e < 2 ^ b := Nat.mod_lt _ (Nat.two_pow_pos b)

theorem masked_eq (c : Ctx) (msk z b n : Nat) (merge : Nat → Nat) (fn : Nat → FRes) :
    masked c msk z b n merge fn =
      (List.range n).map (fun e => if activeElem c msk b e then fn e else if z = 1 then ⟨0, 0⟩ else ⟨merge e, 0⟩) := by
  have hmerge : ∀ e, (⟨if z = 1 then 0 else merge e, 0⟩ : FRes) = if z = 1 then ⟨0, 0⟩ else ⟨merge e, 0⟩ := fun e =>
    apply_ite (fun a => (⟨a, 0⟩ : FRes)) _ _ _
  simp only [masked, hmerge]

/-- A two-source meaning gives `fn` element by element, when its operation agrees with `fn` on codes of the element's width. -/
theorem lanes2_of {i : Instr} {f : VX} {lat : VX → Nat} {el : Nat → VX → Nat → Nat → FRes} {l : Nat} {fn : Ctx → Nat → Nat → FRes}
    (he : ∀ s, exec i s = .next (issueSyl i (vx2 lat el f) s)) (hl : lat f = l)
    (hel : ∀ (c : Ctx) (x y : Nat), x < 2 ^ elemBits f.t → y < 2 ^ elemBits f.t → el c.sp.flush f x y = fn c x y) : Lanes2 i f l fn := by
  unfold Lanes2
  refine givesRow_of he fun j => ?_
  simp only [vx2, masked_eq, hl, Iss.flush, hel _ _ _ (elem_lt _ _ _) (elem_lt _ _ _)]
  rfl

/-- The same of a meaning on one source. -/
theorem lanes1_of {i : Instr} {f : VX} {lat : VX → Nat} {el : Nat → VX → Nat → FRes} {l : Nat} {fn : Ctx → Nat → FRes}
    (he : ∀ s, exec i s = .next (issueSyl i (vx1 lat el f) s)) (hl : lat f = l)
    (hel : ∀ (c : Ctx) (x : Nat), x < 2 ^ elemBits f.t → el c.sp.flush f x = fn c x) : Lanes1 i f l fn := by
  unfold Lanes1
  refine givesRow_of he fun j => ?_
  simp only [vx1, masked_eq, hl, Iss.flush, hel _ _ (elem_lt _ _ _)]
  rfl

/-- Three sources are not masked (R153). -/
theorem lanes3_of {i : Instr} {f : VY} {t lat : Nat} {el : Nat → Nat → Nat → Nat → FRes} (he : ∀ s, exec i s = .next (issueSyl i (vy t lat el f) s)) :
    Lanes3 i f (elemBits t) lat (fun c => el c.sp.flush) := givesRow_of he fun _ => rfl

/-! ## The kinds of element (R98, R149) -/

theorem isFloatV_of_lt {t : Nat} (h : t < 4) : isFloatV t = true := by simp only [isFloatV, decide_eq_true h, Bool.true_or]
theorem isFloatV_int {t : Nat} (h4 : 4 ≤ t) (h : t < 12) : isFloatV t = false := by
  simp only [isFloatV, Bool.or_eq_false_iff, decide_eq_false_iff_not]; omega
theorem isComplex_of_lt {t : Nat} (h : t < 12) : isComplex t = false := by
  simp only [isComplex, Bool.or_eq_false_iff, beq_eq_false_iff_ne]; omega
theorem isComplex_of {t : Nat} (h : t = 12 ∨ t = 13) : isComplex t = true := by
  simpa only [isComplex, Bool.or_eq_true, beq_iff_eq] using h

theorem latAdd_int {f : VX} (h4 : 4 ≤ f.t) (h : f.t < 12) : latAdd f = 2 := by
  simp only [latAdd, isFloatV_int h4 h, isComplex_of_lt h, Bool.or_self, Bool.false_eq_true, if_false]
theorem latAdd_float {f : VX} (h : f.t < 4) : latAdd f = 3 := by
  simp only [latAdd, isFloatV_of_lt h, Bool.true_or, if_true]
theorem latAdd_complex {f : VX} (h : f.t = 12 ∨ f.t = 13) : latAdd f = 3 := by
  simp only [latAdd, isComplex_of h, Bool.or_true, if_true]
theorem latMul_int {f : VX} (h4 : 4 ≤ f.t) (h : f.t < 12) : latMul f = 3 := by
  simp only [latMul, isFloatV_int h4 h, if_neg (show f.t ≠ 0 by omega), Bool.false_eq_true, if_false]
theorem latMul_float {f : VX} (h : f.t < 4) : latMul f = if f.t = 0 then 6 else 5 := by
  simp only [latMul, isFloatV_of_lt h, if_true]

end Sys2Proof.Machine
end

section
/-! PROOFS. Element-wise integer operations (O8, 08 R149, R151, 04 R66). An element and the integer it stands for agree modulo 2^b, so the low bits of a
result do not depend on the sign; each element operation then has an equation on codes below 2^b. -/

namespace Sys2Proof.Machine

/-! ## Low bits -/

theorem wrap_of_emod {b n : Nat} {z : Int} (h : z % (2 ^ b : Nat) = (n : Int) % (2 ^ b : Nat)) : wrap b z = n % 2 ^ b := by
  rw [wrap, h, ← Int.natCast_emod, Int.toNat_natCast]

theorem signed_emod (b x : Nat) : signed b x % (2 ^ b : Nat) = (x : Int) % (2 ^ b : Nat) := by
  unfold signed
  split
  · rw [Int.natCast_emod, Int.emod_emod_of_dvd _ (Int.dvd_refl _)]
  · rw [Int.sub_emod_right, Int.natCast_emod, Int.emod_emod_of_dvd _ (Int.dvd_refl _)]

theorem intOf_emod (t b x : Nat) : intOf t b x % (2 ^ b : Nat) = (x : Int) % (2 ^ b : Nat) := by
  unfold intOf
  split
  · exact signed_emod b x
  · rw [Int.natCast_emod, Int.emod_emod_of_dvd _ (Int.dvd_refl _)]

theorem wrap_intOf (t : Nat) {b x : Nat} (hx : x < 2 ^ b) : wrap b (intOf t b x) = x :=
  (wrap_of_emod (intOf_emod t b x)).trans (Nat.mod_eq_of_lt hx)

theorem intOf_of_lt (t : Nat) {b x : Nat} (hx : x < 2 ^ b) : intOf t b x = if t < 8 then signed b x else x := by
  rw [intOf, Nat.mod_eq_of_lt hx]

theorem wrap_add_intOf (t b x y : Nat) : wrap b (intOf t b x + intOf t b y) = (x + y) % 2 ^ b := by
  apply wrap_of_emod
  rw [Int.add_emod, intOf_emod, intOf_emod, ← Int.add_emod, Int.natCast_add]

theorem wrap_sub_intOf (t : Nat) {b x y : Nat} (hy : y < 2 ^ b) : wrap b (intOf t b x - intOf t b y) = (x + 2 ^ b - y) % 2 ^ b := by
  have hcast : ((x + 2 ^ b - y : Nat) : Int) = (x : Int) - y + (2 ^ b : Nat) := by omega
  apply wrap_of_emod
  rw [Int.sub_emod, intOf_emod, intOf_emod, ← Int.sub_emod, hcast, Int.add_emod_right]

theorem wrap_mul_intOf (t b x y : Nat) : wrap b (intOf t b x * intOf t b y) = x * y % 2 ^ b := by
  apply wrap_of_emod
  rw [Int.mul_emod, intOf_emod, intOf_emod, ← Int.mul_emod, Int.natCast_mul]

theorem wrap_neg_intOf (t : Nat) {b x : Nat} (hx : x < 2 ^ b) : wrap b (-intOf t b x) = (2 ^ b - x) % 2 ^ b := by
  have hcast : ((2 ^ b - x : Nat) : Int) = 0 - (x : Int) + (2 ^ b : Nat) := by omega
  apply wrap_of_emod
  rw [← Int.zero_sub, Int.sub_emod, intOf_emod, ← Int.sub_emod, hcast, Int.add_emod_right]

/-! ## Each element operation on codes of its width -/

section
variable {f : VX} {x y : Nat} (flush : Nat) (h4 : 4 ≤ f.t) (h12 : f.t < 12)
include h4 h12

theorem addElem_int : addElem flush f x y = ⟨(x + y) % 2 ^ elemBits f.t, 0⟩ := by
  simp only [addElem, isFloatV_int h4 h12, isComplex_of_lt h12, intRes, wrap_add_intOf, Bool.false_eq_true, if_false]

theorem subElem_int (hy : y < 2 ^ elemBits f.t) : subElem flush f x y = ⟨(x + 2 ^ elemBits f.t - y) % 2 ^ elemBits f.t, 0⟩ := by
  simp only [subElem, isFloatV_int h4 h12, isComplex_of_lt h12, intRes, wrap_sub_intOf _ hy, Bool.false_eq_true, if_false]

theorem mulElem_int : mulElem flush f x y = ⟨x * y % 2 ^ elemBits f.t, 0⟩ := by
  simp only [mulElem, isFloatV_int h4 h12, intRes, wrap_mul_intOf, Bool.false_eq_true, if_false]

theorem minElem_int (hx : x < 2 ^ elemBits f.t) (hy : y < 2 ^ elemBits f.t) :
    minElem flush f x y = ⟨if intOf f.t (elemBits f.t) y < intOf f.t (elemBits f.t) x then y else x, 0⟩ := by
  simp only [minElem, isFloatV_int h4 h12, intRes, apply_ite (wrap _), wrap_intOf _ hx, wrap_intOf _ hy, Bool.false_eq_true, if_false]

theorem maxElem_int (hx : x < 2 ^ elemBits f.t) (hy : y < 2 ^ elemBits f.t) :
    maxElem flush f x y = ⟨if intOf f.t (elemBits f.t) x < intOf f.t (elemBits f.t) y then y else x, 0⟩ := by
  simp only [maxElem, isFloatV_int h4 h12, intRes, apply_ite (wrap _), wrap_intOf _ hx, wrap_intOf _ hy, Bool.false_eq_true, if_false]

theorem absElem_int (hx : x < 2 ^ elemBits f.t) :
    absElem flush f x = ⟨if intOf f.t (elemBits f.t) x < 0 then (2 ^ elemBits f.t - x) % 2 ^ elemBits f.t else x, 0⟩ := by
  simp only [absElem, isFloatV_int h4 h12, intRes, apply_ite (wrap _), wrap_intOf _ hx, wrap_neg_intOf _ hx, Bool.false_eq_true, if_false]

theorem negElem_int (hx : x < 2 ^ elemBits f.t) : negElem flush f x = ⟨(2 ^ elemBits f.t - x) % 2 ^ elemBits f.t, 0⟩ := by
  simp only [negElem, isFloatV_int h4 h12, intRes, wrap_neg_intOf _ hx, Bool.false_eq_true, if_false]

end

/-- Settles O8: element by element; a shift's equation is its definition, the others are those above. -/
theorem vectorIntegerResults : Obligations.VectorIntegerResults := by
  unfold Obligations.VectorIntegerResults
  intro g w f h4 h12
  refine ⟨?add, ?sub, ?mul, ?min, ?max, ?abs, ?neg, ?shl, ?shr, ?sra⟩
  case add => exact lanes2_of (fun _ => rfl) (latAdd_int h4 h12) fun c x y _ _ => addElem_int _ h4 h12
  case sub => exact lanes2_of (fun _ => rfl) (latAdd_int h4 h12) fun c x y _ hy => subElem_int _ h4 h12 hy
  case mul => exact lanes2_of (fun _ => rfl) (latMul_int h4 h12) fun c x y _ _ => mulElem_int _ h4 h12
  case min =>
    refine lanes2_of (el := minElem) (fun _ => rfl) rfl fun c x y hx hy => ?_
    rw [minElem_int _ h4 h12 hx hy, intOf_of_lt _ hx, intOf_of_lt _ hy]
  case max =>
    refine lanes2_of (el := maxElem) (fun _ => rfl) rfl fun c x y hx hy => ?_
    rw [maxElem_int _ h4 h12 hx hy, intOf_of_lt _ hx, intOf_of_lt _ hy]
  case abs =>
    refine lanes1_of (el := absElem) (fun _ => rfl) rfl fun c x hx => ?_
    rw [absElem_int _ h4 h12 hx, intOf_of_lt _ hx]
  case neg => exact lanes1_of (fun _ => rfl) rfl fun c x hx => negElem_int _ h4 h12 hx
  case shl => exact lanes2_of (el := shlElem) (fun _ => rfl) rfl fun _ _ _ _ _ => rfl
  case shr => exact lanes2_of (el := shrElem) (fun _ => rfl) rfl fun _ _ _ _ _ => rfl
  case sra =>
    refine lanes2_of (el := sraElem) (fun _ => rfl) rfl fun c x y _ _ => ?_
    rw [sraElem, Int.natCast_pow]
    rfl

end Sys2Proof.Machine
end

section
/-! PROOFS. Element-wise bit, floating, complex and three-operand operations (O9, 08 R149 to R151, R153, R157, R159, 04 R68 to R75). An operation that
bears several kinds of element takes its floating branch for T codes 0 to 3 and its complex one for 12 and 13; the others bear one kind alone. -/

namespace Sys2Proof.Machine

/-! ## Operations that bear integers too, on floating elements -/

section
variable {f : VX} (flush x y : Nat) (h : f.t < 4)
include h

theorem addElem_float : addElem flush f x y = addF (fmtOf f.t) f.rm (ftzOf flush f.t) (fpIn flush f.t x) (fpIn flush f.t y) := by
  simp only [addElem, isFloatV_of_lt h, isComplex_of_lt (Nat.lt_trans h (by decide)), Bool.false_eq_true, if_false, if_true]
theorem subElem_float : subElem flush f x y = addF (fmtOf f.t) f.rm (ftzOf flush f.t) (fpIn flush f.t x) (fpIn flush f.t y).negate := by
  simp only [subElem, isFloatV_of_lt h, isComplex_of_lt (Nat.lt_trans h (by decide)), Bool.false_eq_true, if_false, if_true]
theorem mulElem_float : mulElem flush f x y = mulF (fmtOf f.t) f.rm (ftzOf flush f.t) (fpIn flush f.t x) (fpIn flush f.t y) :=
  if_pos (isFloatV_of_lt h)
theorem minElem_float : minElem flush f x y = fpOut flush f.t 0 (minV (fpIn flush f.t x) (fpIn flush f.t y)) := if_pos (isFloatV_of_lt h)
theorem maxElem_float : maxElem flush f x y = fpOut flush f.t 0 (maxV (fpIn flush f.t x) (fpIn flush f.t y)) := if_pos (isFloatV_of_lt h)
theorem absElem_float :
    absElem flush f x = fpOut flush f.t 0 (if (fpIn flush f.t x).isNeg then (fpIn flush f.t x).negate else fpIn flush f.t x) :=
  if_pos (isFloatV_of_lt h)
theorem negElem_float : negElem flush f x = fpOut flush f.t 0 (fpIn flush f.t x).negate := if_pos (isFloatV_of_lt h)

end

/-! ## Complex elements: the real part in the low half (04 R68) -/

theorem partOf_real (t w : Nat) : partOf t 0 w = w % 2 ^ (elemBits t / 2) := by rw [partOf, Nat.mul_zero, Nat.pow_zero, Nat.div_one]
theorem partOf_imag (t w : Nat) : partOf t 1 w = w / 2 ^ (elemBits t / 2) % 2 ^ (elemBits t / 2) := by rw [partOf, Nat.mul_one]
theorem cxIn_eq (flush t w : Nat) :
    cxIn flush t w = (fpIn flush t (w % 2 ^ (elemBits t / 2)), fpIn flush t (w / 2 ^ (elemBits t / 2) % 2 ^ (elemBits t / 2))) := by
  rw [cxIn, partOf_real, partOf_imag]

theorem addElem_complex {f : VX} (flush x y : Nat) (h : f.t = 12 ∨ f.t = 13) :
    addElem flush f x y = cxOut f.t (addF (fmtOf f.t) f.rm (ftzOf flush f.t) (cxIn flush f.t x).1 (cxIn flush f.t y).1)
      (addF (fmtOf f.t) f.rm (ftzOf flush f.t) (cxIn flush f.t x).2 (cxIn flush f.t y).2) := if_pos (isComplex_of h)
theorem subElem_complex {f : VX} (flush x y : Nat) (h : f.t = 12 ∨ f.t = 13) :
    subElem flush f x y = cxOut f.t (addF (fmtOf f.t) f.rm (ftzOf flush f.t) (cxIn flush f.t x).1 (cxIn flush f.t y).1.negate)
      (addF (fmtOf f.t) f.rm (ftzOf flush f.t) (cxIn flush f.t x).2 (cxIn flush f.t y).2.negate) := if_pos (isComplex_of h)

/-- Settles O9: by the kind of element; where one kind alone is borne, the operation is the stated one. -/
theorem vectorFloatResults : Obligations.VectorFloatResults := by
  unfold Obligations.VectorFloatResults
  refine ⟨fun g w f => ⟨⟨?and, ?or, ?xor⟩, fun h => ⟨?add, ?sub, ?mul, ?min, ?max, ?abs, ?neg, ?rnd, ?scl, ?rcp, ?rsq, ?exp2, ?log2⟩,
    fun h => ⟨?cadd, ?csub, ?cmul, ?conj⟩⟩, fun g w f => ⟨?fma, ?fms, ?fnma, ?imad, ?cma⟩⟩
  case and => exact lanes2_of (el := bitElem (· &&& ·)) (fun _ => rfl) rfl fun _ _ _ _ _ => rfl
  case or => exact lanes2_of (el := bitElem (· ||| ·)) (fun _ => rfl) rfl fun _ _ _ _ _ => rfl
  case xor => exact lanes2_of (el := bitElem (· ^^^ ·)) (fun _ => rfl) rfl fun _ _ _ _ _ => rfl
  case add => exact lanes2_of (fun _ => rfl) (latAdd_float h) fun c x y _ _ => addElem_float c.sp.flush x y h
  case sub => exact lanes2_of (fun _ => rfl) (latAdd_float h) fun c x y _ _ => subElem_float c.sp.flush x y h
  case mul => exact lanes2_of (fun _ => rfl) (latMul_float h) fun c x y _ _ => mulElem_float c.sp.flush x y h
  case min => exact lanes2_of (fun _ => rfl) rfl fun c x y _ _ => minElem_float c.sp.flush x y h
  case max => exact lanes2_of (fun _ => rfl) rfl fun c x y _ _ => maxElem_float c.sp.flush x y h
  case abs => exact lanes1_of (fun _ => rfl) rfl fun c x _ => absElem_float c.sp.flush x h
  case neg => exact lanes1_of (fun _ => rfl) rfl fun c x _ => negElem_float c.sp.flush x h
  case rnd => exact lanes1_of (el := rndElem) (fun _ => rfl) rfl fun _ _ _ => rfl
  case scl => exact lanes2_of (el := sclElem) (fun _ => rfl) rfl fun _ _ _ _ _ => rfl
  case rcp => exact lanes1_of (el := fun flush f a => rcpF f.t (dazOf flush f.t) a) (fun _ => rfl) rfl fun _ _ _ => rfl
  case rsq => exact lanes1_of (el := fun flush f a => rsqF f.t (dazOf flush f.t) a) (fun _ => rfl) rfl fun _ _ _ => rfl
  case exp2 => exact lanes1_of (el := fun flush f a => exp2F f.t (dazOf flush f.t) (ftzOf flush f.t) a) (fun _ => rfl) rfl fun _ _ _ => rfl
  case log2 => exact lanes1_of (el := fun flush f a => log2F f.t (dazOf flush f.t) (ftzOf flush f.t) a) (fun _ => rfl) rfl fun _ _ _ => rfl
  case cadd =>
    refine lanes2_of (el := addElem) (fun _ => rfl) (latAdd_complex h) fun c x y _ _ => ?_
    rw [addElem_complex _ _ _ h, cxIn_eq, cxIn_eq]
    rfl
  case csub =>
    refine lanes2_of (el := subElem) (fun _ => rfl) (latAdd_complex h) fun c x y _ _ => ?_
    rw [subElem_complex _ _ _ h, cxIn_eq, cxIn_eq]
    rfl
  case cmul =>
    refine lanes2_of (el := cmulElem) (fun _ => rfl) rfl fun c x y _ _ => ?_
    rw [cmulElem, cxIn_eq, cxIn_eq]
    rfl
  case conj =>
    refine lanes1_of (el := conjElem) (fun _ => rfl) rfl fun c x _ => ?_
    rw [conjElem, cxIn_eq]
    rfl
  case fma => exact lanes3_of (el := fmaElem id id f) fun _ => rfl
  case fms => exact lanes3_of (el := fmaElem id FVal.negate f) fun _ => rfl
  case fnma => exact lanes3_of (el := fmaElem FVal.negate id f) fun _ => rfl
  case imad => exact lanes3_of (el := fun _ a b c => ⟨(a * b + c) % 2 ^ elemBits (7 - f.ft), 0⟩) fun _ => rfl
  case cma => exact lanes3_of (el := cmaElem (13 - f.ft) f) fun _ => rfl

end Sys2Proof.Machine
end

section
/-! PROOFS. Vector conversions (O10, 08 R154 to R156): each reads its source and makes one row; what is left is where VUNPK's scale byte comes from and
that `.sat` spares the infinities. -/

namespace Sys2Proof.Machine

/-- `.sat` bears on every value but the two infinities (04 R70). -/
theorem satFinite_eq (sat : Nat) (v : FVal) : satFinite sat v = decide (sat = 1 ∧ v ≠ .inf false ∧ v ≠ .inf true) := by
  rw [Bool.eq_iff_iff, decide_eq_true_iff]
  cases v with
  | nan => simp [satFinite]
  | inf neg => cases neg <;> simp [satFinite]
  | num neg m e => simp [satFinite]

/-- Settles O10: VUNPK by its source, a row or a broadcast; the others are their definitions. -/
theorem vectorConversions : Obligations.VectorConversions := by
  unfold Obligations.VectorConversions
  intro g w f
  refine ⟨?vcvt, ?vsat, ?vpack, fun h => ?row, fun h => ?broadcast⟩
  case vcvt => exact completesTo_sources (op := opVcvt f) (fun _ => rfl) fun _ => rfl
  case vsat =>
    refine givesRow_of (op := opVsat f) (fun _ => rfl) fun j => ?_
    simp only [opVsat, masked_eq]
    rfl
  case vpack => exact completesTo_sources (op := opVpack f) (fun _ => rfl) fun _ => rfl
  case row =>
    refine completesTo_sources (op := opVunpk f) (fun _ => rfl) fun j => ?_
    simp only [opVunpk, if_neg (Nat.not_le.mpr h), satFinite_eq]
    rfl
  case broadcast =>
    refine completesTo_sources (op := opVunpk f) (fun _ => rfl) fun j => ?_
    simp only [opVunpk, if_pos h, satFinite_eq]
    rfl

end Sys2Proof.Machine
end

section
/-! PROOFS. Reductions (O11, 08 R158, 04 R79): a fold that skips the inactive elements is a fold over the active ones; the floating reductions are their
definitions. -/

namespace Sys2Proof.Machine

/-! ## Folds over the active elements -/

theorem foldl_add_active (active : Nat → Bool) (val : Nat → Int) (es : List Nat) :
    es.foldl (fun z e => if active e then z + val e else z) 0 = ((es.filter active).map val).sum := by
  rw [← List.foldl_filter, List.sum_eq_foldl, List.foldl_map]

theorem foldl_max_active (active : Nat → Bool) (val : Nat → Int) (lo : Int) (es : List Nat) :
    es.foldl (fun z e => if active e && decide (z < val e) then val e else z) lo = (es.filter active).foldl (fun m e => max m (val e)) lo := by
  have hmax : ∀ z e, (if active e && decide (z < val e) then val e else z) = if active e then max z (val e) else z := by
    intro z e
    cases active e with
    | false => simp only [Bool.false_and, Bool.false_eq_true, if_false]
    | true => simp only [Bool.true_and, decide_eq_true_eq, if_true]; omega
  simp only [hmax, List.foldl_filter]

theorem sumInts_eq (c : Ctx) (f : VX) (n : Nat) (val : Nat → Int) :
    sumInts c f n val = wrap (elemBits f.t) (((List.range n).filter (fun e => activeElem c f.msk (elemBits f.t) e)).map val).sum := by
  rw [sumInts, foldl_add_active]

/-- Leaves without events of their own. -/
theorem leavesOf_plain (c : Ctx) (f : VX) (n : Nat) (val : Nat → FVal) (rest : FVal) :
    leavesOf c f n (fun e => ⟨val e, none⟩) rest =
      (List.range n).map (fun e => ⟨if activeElem c f.msk (elemBits f.t) e then val e else rest, none⟩) :=
  List.map_congr_left fun _ _ => (apply_ite (fun v => (⟨v, none⟩ : Node)) _ _ _).symm

/-- VDOT's leaf notes an event where the product is NaN and neither factor is (22 R391). -/
theorem newNan_iff (v p q : FVal) : (v.isNan && !p.isNan && !q.isNan) = true ↔ v.isNan = true ∧ ¬p.isNan = true ∧ ¬q.isNan = true := by
  simp only [Bool.and_eq_true, Bool.not_eq_true', Bool.not_eq_true, and_assoc]

/-- Settles O11: integers by the folds above, floating elements by their leaves. -/
theorem vectorReductions : Obligations.VectorReductions := by
  unfold Obligations.VectorReductions
  intro g w f
  refine ⟨fun h => ⟨?isum, ?idot, ?imax⟩, fun h => ⟨?fsum, ?fdot, ?fmax⟩⟩
  case isum =>
    refine completesTo_sources (op := opVsum f) (fun _ => rfl) fun j => ?_
    simp only [opVsum, h, Bool.false_eq_true, if_false, sumInts_eq]
    rfl
  case idot =>
    refine completesTo_sources (op := opVdot f) (fun _ => rfl) fun j => ?_
    simp only [opVdot, h, Bool.false_eq_true, if_false, sumInts_eq]
    rfl
  case imax =>
    refine completesTo_sources (op := opVmaxr f) (fun _ => rfl) fun j => ?_
    simp only [opVmaxr, h, Bool.false_eq_true, if_false, foldl_max_active]
    rfl
  case fsum =>
    refine completesTo_sources (op := opVsum f) (fun _ => rfl) fun j => ?_
    simp only [opVsum, h, if_true]
    rfl
  case fdot =>
    refine completesTo_sources (op := opVdot f) (fun _ => rfl) fun j => ?_
    simp only [opVdot, h, if_true, newNan_iff]
    rfl
  case fmax =>
    refine completesTo_sources (op := opVmaxr f) (fun _ => rfl) fun j => ?_
    simp only [opVmaxr, h, if_true, leavesOf_plain]
    rfl

end Sys2Proof.Machine
end

section
/-! PROOFS. Moves and permutations (O12, 08 R160 to R162): each names the source element in its definition; a masked one has its elements by the rule of
the mask. -/

namespace Sys2Proof.Machine

/-- Settles O12: each row by the definition of its instruction. -/
theorem vectorMoves : Obligations.VectorMoves := by
  unfold Obligations.VectorMoves
  refine ⟨fun g w f => ⟨?vperm, ?vsel, ?vmov⟩, fun g w f => ⟨?vshuf, ?vbcast⟩⟩
  case vperm =>
    refine givesRow_of (op := opVperm f) (fun _ => rfl) fun j => ?_
    simp only [opVperm, masked_eq]
    rfl
  case vsel =>
    refine givesRow_of (op := opVsel f) (fun _ => rfl) fun j => ?_
    simp only [opVsel, masked_eq, Nat.zero_ne_one, if_false]
    rfl
  case vmov =>
    refine givesRow_of (op := opVmov f) (fun _ => rfl) fun j => ?_
    simp only [opVmov, masked_eq, Bool.and_eq_true, decide_eq_true_eq]
    rfl
  case vshuf => exact givesRow_of (op := opVshuf f) (fun _ => rfl) fun _ => rfl
  case vbcast => exact givesRow_of (op := opVbcast f) (fun _ => rfl) fun _ => rfl

end Sys2Proof.Machine
end

section
/-! PROOFS. Lane masks and QADV (O13, 08 R152, R163, R164): a mask holds b / 8 equal bits for each element, and the mask instructions land one value. -/

namespace Sys2Proof.Machine

/-! ## The bits of a mask -/

theorem maskBits_testBit {b : Nat} (hb : 0 < b / 8) (flags : List Bool) (i : Nat) :
    (maskBits b flags).testBit i = flags.getD (i / (b / 8)) false := by
  induction flags generalizing i with
  | nil => rw [maskBits, Nat.zero_testBit, List.getD_nil]
  | cons x rest ih =>
    have hlow : (if x then 2 ^ (b / 8) - 1 else 0) < 2 ^ (b / 8) := by
      have := Nat.two_pow_pos (b / 8)
      split <;> omega
    rw [maskBits, Nat.add_comm, Nat.testBit_two_pow_mul_add _ hlow]
    by_cases hi : i < b / 8
    · rw [if_pos hi, Nat.div_eq_of_lt hi, List.getD_cons_zero]
      cases x with
      | false => exact Nat.zero_testBit i
      | true => rw [if_pos rfl, Nat.testBit_two_pow_sub_one, decide_eq_true hi]
    · rw [if_neg hi, ih, Nat.div_eq_sub_div hb (Nat.not_lt.mp hi), List.getD_cons_succ]

/-! ## What a mask instruction lands -/

theorem add_sound {j : Iss} {lat kind : Nat} {what : Land} {ring : Option Bool} (h : j.Sound) : (j.add lat what ring kind).Sound := h
theorem setCtx_sound {j : Iss} {c : Ctx} (h : j.Sound) : (j.setCtx c).Sound := h

/-- A meaning that lands one value issues. -/
theorem completes_lands {i : Instr} {op : Op} {h : Iss → Prop} {lat : Nat} {what : Iss → Land} (he : ∀ s, exec i s = .next (issueSyl i op s))
    (ho : ∀ j, h j → op j = .ok (j.add lat (what j) none 0)) : Completes i h (fun j => j.add lat (what j) none 0) :=
  completes_of he (fun _ hs => ho _ hs) fun _ _ => add_sound (began_sound _ _)

theorem opVmset_clean {f : VM} {j : Iss} (hc : Clean [f.sd] j) :
    opVmset f j = .ok (j.writeMask f (2 ^ (min (readS j.ctx f.sd).toNat (widthOf f.w / maskElem f) * (maskElem f / 8)) - 1)) := by
  rw [opVmset, s_clean (hc _ List.mem_cons_self)]

/-- QADV of a configured queue that holds the rows moves its head past them. -/
theorem opQadv_moves {f : VQ} {j : Iss} (hc : (qcfgOf j.ctx f.qn).cls ≠ 0) (hn : f.cnt ≤ (qptrOf j.ctx f.qn).count)
    (hd : f.cnt ≤ (qcfgOf j.ctx f.qn).depth) : opQadv f j = .ok (j.setCtx (advance j.ctx f.qn f.cnt)) := by
  have hrow : j.needRow f.qn f.cnt = .ok () := (if_neg hc).trans (if_pos hn)
  simp only [opQadv, decide_eq_false (Nat.not_lt.mpr hd), Bool.and_false, Bool.false_eq_true, if_false, hrow]
  rfl

/-- Settles O13: the bits of a mask, what each instruction lands, and QADV's move. -/
theorem laneMaskResults : Obligations.LaneMaskResults := by
  unfold Obligations.LaneMaskResults
  refine ⟨fun g w f => ⟨?vcmp, ?bits⟩, fun g w f => ⟨?vmset, ?vmand, ?vmor, ?vmnot, ?vmcnt, ?vmfirst⟩, fun g w f => ?qadv⟩
  case vcmp =>
    refine completesTo_of (op := opVcmp f) (fun _ => rfl) ?_
    rintro s k ⟨j', rows, hs, rfl⟩
    rw [opVcmp, hs]
    rfl
  case bits =>
    intro flags i hi
    exact maskBits_testBit (Nat.pos_of_mul_pos_left (Nat.zero_lt_of_lt hi)) flags i
  case vmset => exact completes_lands (fun _ => rfl) fun _ hc => opVmset_clean hc
  case vmand => exact completes_lands (op := opVmand f) (fun _ => rfl) fun _ _ => rfl
  case vmor => exact completes_lands (op := opVmor f) (fun _ => rfl) fun _ _ => rfl
  case vmnot => exact completes_lands (op := opVmnot f) (fun _ => rfl) fun _ _ => rfl
  case vmcnt => exact completes_lands (op := opVmcnt f) (fun _ => rfl) fun _ _ => rfl
  case vmfirst => exact completes_lands (op := opVmfirst f) (fun _ => rfl) fun _ _ => rfl
  case qadv => exact completes_of (op := opQadv f) (fun _ => rfl) (fun _ ⟨hc, hn, hd⟩ => opQadv_moves hc hn hd) fun _ _ => setCtx_sound (began_sound _ _)

end Sys2Proof.Machine
end

section
/-! PROOFS. What storing an agent's record gives back (03, 10): the record of a context, core or die that differs from that of reset is read as it was
stored, and the records of the others stand. -/

namespace Sys2Proof.Machine

/-- Storing another value than the unlisted one leaves every other key, whatever the list. -/
theorem mapGet_mapSet_ne {α : Type} [DecidableEq α] (m : List (Nat × α)) {d v : α} {k a : Nat} (hv : v ≠ d) (ha : a ≠ k) :
    mapGet (mapSet m d k v) d a = mapGet m d a := by
  induction m with
  | nil => simp [mapSet, hv, mapGet, ha]
  | cons p t ih =>
    obtain ⟨j, u⟩ := p
    simp only [mapSet, if_neg hv]
    split
    case isTrue hkj =>
      by_cases hak : a < k
      · simp [mapGet, hak, show a ≠ k by omega, show a ≠ j by omega, show a < j by omega]
      · simp [mapGet, hak, ha]
    case isFalse hkj =>
      split
      case isTrue hk => subst hk; simp [mapGet, ha]
      case isFalse => simp only [mapGet, ih]

theorem coreOf_setCore {s : State} {k : Nat} {c : Core} (h : c ≠ Core.init k) : coreOf (setCore s k c) k = c := mapGet_mapSet_same _ _ h
theorem ctxOf_setCtx {s : State} {k x : Nat} {c : Ctx} (h : c ≠ Ctx.init) : ctxOf (setCtx s k x c) k x = c := mapGet_mapSet_same _ _ h
theorem dieOf_setDie {s : State} {d : Nat} {v : Die} (h : v ≠ Die.init) : dieOf (setDie s d v) d = v := mapGet_mapSet_same _ _ h
theorem dieOf_setDie_ne {s : State} {d e : Nat} {v : Die} (h : v ≠ Die.init) (he : e ≠ d) : dieOf (setDie s d v) e = dieOf s e :=
  mapGet_mapSet_ne _ h he

/-! ## Records that are not those of reset -/

theorem core_ne_init_of_released {k : Nat} {c : Core} (h : c.ms.released ≠ []) : c ≠ Core.init k := fun he => h (he ▸ rfl)
theorem ctx_ne_init_of_bound {c : Ctx} (h : c.status = .bound) : c ≠ Ctx.init := fun he => by rw [he] at h; cases h
theorem ctx_ne_init_of_pendA {c : Ctx} (h : c.pendA ≠ []) : c ≠ Ctx.init := fun he => h (he ▸ rfl)
theorem die_ne_init_of_held {v : Die} (h : v.held ≠ []) : v ≠ Die.init := fun he => h (he ▸ rfl)
theorem die_ne_init_of_brg {v : Die} (h : v.brg ≠ []) : v ≠ Die.init := fun he => h (he ▸ rfl)

/-! ## Agents of one kind stand beside a store of another -/

@[simp] theorem coreOf_setCtx (s : State) (k l x : Nat) (c : Ctx) : coreOf (setCtx s l x c) k = coreOf s k := rfl
@[simp] theorem coreOf_setDie (s : State) (k d : Nat) (v : Die) : coreOf (setDie s d v) k = coreOf s k := rfl
@[simp] theorem ctxOf_setCore (s : State) (k l x : Nat) (c : Core) : ctxOf (setCore s l c) k x = ctxOf s k x := rfl
@[simp] theorem ctxOf_setDie (s : State) (k x d : Nat) (v : Die) : ctxOf (setDie s d v) k x = ctxOf s k x := rfl
@[simp] theorem dieOf_setCtx (s : State) (d k x : Nat) (c : Ctx) : dieOf (setCtx s k x c) d = dieOf s d := rfl
@[simp] theorem dieOf_setCore (s : State) (d k : Nat) (c : Core) : dieOf (setCore s k c) d = dieOf s d := rfl

end Sys2Proof.Machine
end

section
/-! PROOFS. Requests at the stacks (O38, 10 R212, 11 R220, R225, 22 R390, 24 R422, R423): what each event does to the one request that is due. -/

namespace Sys2Proof.Machine

/-! ## Stores and atomics whose cycle has come -/

theorem performStores_one {s : State} {k : Nat} {t : Store} (ht : (coreOf s k).ms.released = [t]) (hr : reqReady s k t.fin t.view false = true)
    (hf : flagBefore (coreOf s k) t.ctx t.cls t.seq = false) :
    performStores s k = performStore (setCore s k { coreOf s k with ms := { (coreOf s k).ms with released := [] } }) k t := by
  simp [performStores, ht, hr, hf]

/-- An atomic alone has no flag write before it. -/
theorem flagBefore_alone {c : Core} {m : AtomReq} (hm : c.ms.atoms = [m]) : flagBefore c m.ctx m.cls m.seq = false := by
  simp [flagBefore, hm]

theorem performAtoms_one {s : State} {k : Nat} {m : AtomReq} (hm : (coreOf s k).ms.atoms = [m]) (hr : reqReady s k m.fin m.view (2 ≤ m.ord) = true)
    (hf : m.op = 18 → flagHeld s k m = false) :
    performAtoms s k = performAtom (setCore s k { coreOf s k with ms := { (coreOf s k).ms with atoms := [] } }) k m := by
  have hfree : (m.op == 18 && flagHeld s k m) = false := by
    rw [Bool.and_eq_false_imp, beq_iff_eq]; exact hf
  simp only [performAtoms, hm, List.foldl_cons, List.foldl_nil, hr, flagBefore_alone hm, hfree, Bool.not_false, Bool.and_self, if_true]
  simp

/-! ## BRG slots (10 R207, R212) -/

theorem le_findBrg (d : Nat) (bound : List Nat) (c fuel : Nat) : c ≤ findBrg d bound c fuel := by
  induction fuel generalizing c with
  | zero => exact Nat.le_refl c
  | succ fuel ih =>
    rw [findBrg]
    split
    · exact Nat.le_refl c
    · exact Nat.le_of_succ_le (ih (c + 1))

/-- A slot bound lies no earlier than the arrival and is listed with the die. -/
theorem bindBrg_bound (s : State) (d c : Nat) : c ≤ (bindBrg s d c).2 ∧ (bindBrg s d c).2 ∈ (dieOf (bindBrg s d c).1 d).brg := by
  refine ⟨le_findBrg _ _ _ _, ?_⟩
  rw [bindBrg, dieOf_setDie (die_ne_init_of_brg (by simp))]
  simp

/-- The last slot of a span is that of one bind, in the state or after a first bind. -/
theorem bindBrgSpan_last (s : State) (d c : Nat) (ps : List (Nat × Nat × Nat)) :
    bindBrgSpan s d c ps = bindBrg s d c ∨ bindBrgSpan s d c ps = bindBrg (bindBrg s d c).1 d c := by
  unfold bindBrgSpan
  split
  case h_1 =>
    split
    · exact .inl rfl
    · exact .inr rfl
  case h_2 => exact .inr rfl

theorem bindBrgSpan_bound (s : State) (d c : Nat) (ps : List (Nat × Nat × Nat)) :
    c ≤ (bindBrgSpan s d c ps).2 ∧ (bindBrgSpan s d c ps).2 ∈ (dieOf (bindBrgSpan s d c ps).1 d).brg := by
  obtain h | h := bindBrgSpan_last s d c ps <;> rw [h] <;> exact bindBrg_bound _ d c

@[simp] theorem coreOf_bindBrgSpan (s : State) (d c k : Nat) (ps : List (Nat × Nat × Nat)) : coreOf (bindBrgSpan s d c ps).1 k = coreOf s k := by
  obtain h | h := bindBrgSpan_last s d c ps <;> rw [h] <;> rfl

/-! ## A far request reaches its die (10 R212) -/

/-- The one store of a core that has reached die d takes the slot bound for it. -/
theorem farReach_one {s : State} {d k : Nat} {t : Store} (ht : (coreOf s k).ms.released = [t]) (ha : (coreOf s k).ms.atoms = [])
    (hl : (coreOf s k).ms.loads = []) (hd : reachedDie s d t.reach k (storePieces t) = true) :
    farReach s d k =
      (let b := bindBrgSpan s d s.now (storePieces t)
       setCore b.1 k { coreOf s k with ms := { (coreOf s k).ms with released := [{ t with reach := none, slot := some b.2, fin := some (b.2 + 152) }] } }) := by
  simp [farReach, ht, ha, hl, hd]

/-! ## Held requests (24 R422) -/

/-- The one held request of a stack whose calendar cycle comes round is bound to this cycle. -/
theorem serveHeld_one {s : State} {st : Nat} {h : HeldReq} {t : Store} (hs : stackHeld s st = false) (hh : (dieOf s (st / 2)).held = [h])
    (hst : h.stack = st) (hc : h.slot % 64 = s.now % 64) (ht : (coreOf s h.core).ms.released = [t]) (hq : t.seq = h.seq) :
    (coreOf (serveHeld s st) h.core).ms.released = [{ t with slot := some s.now, fin := some (s.now + 152) }] := by
  simp only [serveHeld, hs, hh, hst, hc, List.filter_cons, List.filter_nil, beq_self_eq_true, Bool.and_self, Bool.false_eq_true, if_true, if_false,
    List.foldl_cons, List.foldl_nil, coreOf_setDie, ht, List.map_cons, List.map_nil, hq, setDie_now]
  rw [coreOf_setCore (core_ne_init_of_released (List.cons_ne_nil _ _))]

/-! ## Late data (22 R390) -/

theorem writeS_status (c : Ctx) (n : Nat) (v : BitVec 64) : (writeS c n v).status = c.status := by
  unfold writeS; split <;> rfl

theorem writeLate_scalar {s : State} {k x key n : Nat} {v : BitVec 64} {bs : List Byte} (hm : sMarkOf (ctxOf s k x) n = .late key) :
    writeLate s k x key (.scalar n v) bs false = setCtx s k x (writeS (ctxOf s k x) n (BitVec.ofNat 64 (leVal bs))) := by
  simp [writeLate, hm]

/-- Data that no row request and no shadow-record entry waits for is late. -/
theorem deliver_late {s : State} {k x key : Nat} {exact bad tag : Bool} {dst : Land} {bs : List Byte} (hr : ∀ r ∈ (ctxOf s k x).reqs, r.tag ≠ key)
    (hw : waitsFor (ctxOf s k x) key = false) : deliver s k x key exact dst bs bad tag = writeLate s k x key dst bs bad := by
  have hnone : (ctxOf s k x).reqs.find? (fun r => r.tag == key && r.peer == Config.moduleNumber && r.push) = none := by
    rw [List.find?_eq_none]
    intro r hmem
    simp [hr r hmem]
  simp [deliver, hnone, hw]

/-- Late data of a load is written where its mark stands, once the core has let go of the load. -/
theorem deliverLoad_late {s : State} {k : Nat} {l : LoadReq} {bs : List Byte} {bad tag : Bool} (hg : l.got = some (bs, bad, tag))
    (hr : ∀ r ∈ (ctxOf s k l.ctx).reqs, r.tag ≠ l.key) (hw : waitsFor (ctxOf s k l.ctx) l.key = false) :
    deliverLoad s k l = writeLate (setCore s k { coreOf s k with ms := { (coreOf s k).ms with
      loads := (coreOf s k).ms.loads.filter (fun u => u.seq != l.seq) } }) k l.ctx l.key l.dst bs bad := by
  rw [deliverLoad, hg]
  exact deliver_late (s := setCore s k _) hr hw

/-- A load with its data back and its cycle come is arriving. -/
theorem arriving_one {s : State} {k f : Nat} {l : LoadReq} {g : List Byte × Bool × Bool} (hl : (coreOf s k).ms.loads = [l]) (hg : l.got = some g)
    (hf : l.fin = some f) (hn : f ≤ s.now) (hd : l.dst ≠ .spoil 64) : arriving s k = [l] := by
  simp [arriving, hl, hg, hf, hn, hd]

/-- Settles O38: each event meets the one request that is due, and the record it stores is not that of reset. -/
theorem requestsPerformed : Obligations.RequestsPerformed := by
  unfold Obligations.RequestsPerformed
  refine ⟨?store, ?atomic, ?far, ?held, ?late, ?freeze, ?unfreeze⟩
  case store =>
    intro s k t ht hr hf
    exact congrArg Host.Outcome.next (performStores_one ht hr hf)
  case atomic =>
    intro s k m hm hr hf
    exact congrArg Host.Outcome.next (performAtoms_one hm hr hf)
  case far =>
    intro s d k r c t hs ht ha hl hr hn hd
    have hc : coreOf s k = c := by simp [coreOf, hs, mapGet]
    subst hc
    have hreach : reachedDie s d t.reach k (storePieces t) = true := by simp [reachedDie, hr, hn, hd]
    obtain ⟨hle, hmem⟩ := bindBrgSpan_bound s d s.now (storePieces t)
    refine ⟨_, congrArg Host.Outcome.next (show (s.cores.map (·.1)).foldl (fun s k => farReach s d k) s = farReach s d k by rw [hs]; rfl), ?_, hle, ?_⟩
    · rw [farReach_one ht ha hl hreach, coreOf_setCore (core_ne_init_of_released (List.cons_ne_nil _ _))]
    · rw [farReach_one ht ha hl hreach]
      exact hmem
  case held =>
    intro s st h t hs hh hst hc ht hq
    exact ⟨_, rfl, serveHeld_one hs hh hst hc ht hq⟩
  case late =>
    intro s k x tag n f l bs g hl hx hk he hg hf hn hd _ hb hr hw hm
    subst hx hk
    have hrun : (arriving s k).foldl (fun s m => if m.ctx == l.ctx && m.key == l.key then deliverLoad s k m else s) s = deliverLoad s k l := by
      rw [arriving_one hl hg hf hn (by simp [hd])]
      simp
    refine ⟨_, congrArg Host.Outcome.next hrun, ?_⟩
    rw [deliverLoad_late hg hr hw, hd, writeLate_scalar (s := setCore s k _) hm]
    exact ctxOf_setCtx (ctx_ne_init_of_bound ((writeS_status _ _ _).trans hb))
  case freeze =>
    intro s k x hm hf
    exact congrArg Host.Outcome.next (by simp [freezeCtx, hm, hf])
  case unfreeze =>
    intro s k x hm hf
    exact congrArg Host.Outcome.next (by simp [unfreezeCtx, hm, hf])

end Sys2Proof.Machine
end

section
/-! PROOFS. What befalls the memory (O39, 10 R201, R211, 24 R416, R422 to R426). First bytes, numbers and fields: what a write of a number reads as, and
what replacing a field of a number leaves of the others. -/

namespace Sys2Proof.Machine

/-! ## Numbers in bytes (00 R6) -/

theorem leBytes_length (n v : Nat) : (leBytes n v).length = n := by
  induction n generalizing v with
  | zero => rfl
  | succ n ih => rw [leBytes, List.length_cons, ih]

theorem leVal_leBytes (n v : Nat) : leVal (leBytes n v) = v % 256 ^ n := by
  induction n generalizing v with
  | zero => rw [leBytes, leVal, Nat.pow_zero, Nat.mod_one]
  | succ n ih =>
    rw [leBytes, leVal, ih, BitVec.toNat_ofNat, Nat.pow_succ' (m := 256)]
    exact Nat.mod_mul.symm

theorem leVal_lt (bs : List Byte) : leVal bs < 256 ^ bs.length := by
  induction bs with
  | nil => exact Nat.one_pos
  | cons b rest ih =>
    have hb : b.toNat < 256 := b.isLt
    rw [leVal, List.length_cons, Nat.pow_succ']
    omega

theorem getBytes_length (m : List Host.Cell) (a n : Nat) : (getBytes m a n).length = n := by simp [getBytes]

theorem getBytes_congr {m m' : List Host.Cell} {a n : Nat} (h : ∀ i, i < n → getByte m (a + i) = getByte m' (a + i)) :
    getBytes m a n = getBytes m' a n :=
  List.map_congr_left fun i hi => h i (List.mem_range.mp hi)

/-- A word of 8 bytes is less than 2^64. -/
theorem word_lt (m : List Host.Cell) (a : Nat) : leVal (getBytes m a 8) < 2 ^ 64 := by
  have h := leVal_lt (getBytes m a 8)
  rwa [getBytes_length] at h

theorem getBytes_setBytes {m : List Host.Cell} {a : Nat} {bs : List Byte} (h : memWf m = true) : getBytes (setBytes m a bs) a bs.length = bs := by
  refine List.ext_getElem (getBytes_length _ _ _) fun i h1 h2 => ?_
  simp only [getBytes, List.getElem_map, List.getElem_range]
  rw [getByte_setBytes h, if_pos (by omega), Nat.add_sub_cancel_left, List.getD_eq_getElem?_getD, List.getElem?_eq_getElem h2, Option.getD_some]

/-- A word stored is read back. -/
theorem word_setBytes {m : List Host.Cell} {a v : Nat} (h : memWf m = true) (hv : v < 2 ^ 64) :
    leVal (getBytes (setBytes m a (leBytes 8 v)) a 8) = v := by
  have hb : getBytes (setBytes m a (leBytes 8 v)) a 8 = leBytes 8 v := by
    have := getBytes_setBytes (a := a) (bs := leBytes 8 v) h
    rwa [leBytes_length] at this
  rw [hb, leVal_leBytes]
  exact Nat.mod_eq_of_lt hv

/-! ## Fields -/

theorem field_scaled_le (e lo len : Nat) : 2 ^ lo * field e lo len ≤ e :=
  Nat.le_trans (Nat.mul_le_mul_left _ (Nat.mod_le _ _)) (Nat.mul_div_le e (2 ^ lo))

theorem putField_le {e lo len v : Nat} (h : v ≤ field e lo len) : putField e lo len v ≤ e := by
  have h1 := field_scaled_le e lo len
  have h2 : 2 ^ lo * (v % 2 ^ len) ≤ 2 ^ lo * field e lo len := Nat.mul_le_mul_left _ (Nat.le_trans (Nat.mod_le _ _) h)
  rw [putField]
  omega

/-- Above its lower end a number with a field replaced is that number with the field's value replaced. -/
theorem putField_div (e lo len v : Nat) : putField e lo len v / 2 ^ lo = e / 2 ^ lo / 2 ^ len * 2 ^ len + v % 2 ^ len := by
  have hq : e / 2 ^ lo - field e lo len = e / 2 ^ lo / 2 ^ len * 2 ^ len := by
    have := Nat.div_add_mod' (e / 2 ^ lo) (2 ^ len)
    rw [field]
    omega
  rw [putField, Nat.add_mul_div_left _ _ (Nat.two_pow_pos lo), Nat.sub_mul_div_of_le _ _ _ (field_scaled_le e lo len), hq]

/-- A field replaced reads as its new value. -/
theorem field_putField (e lo len v : Nat) : field (putField e lo len v) lo len = v % 2 ^ len := by
  rw [field, putField_div, Nat.add_comm, Nat.add_mul_mod_self_right, Nat.mod_mod]

/-- The field that follows one replaced keeps its value. -/
theorem field_putField_next (e lo len v n : Nat) : field (putField e lo len v) (lo + len) n = field e (lo + len) n := by
  have hv : v % 2 ^ len < 2 ^ len := Nat.mod_lt _ (Nat.two_pow_pos len)
  have hd : putField e lo len v / 2 ^ lo / 2 ^ len = e / 2 ^ lo / 2 ^ len := by
    rw [putField_div, Nat.add_comm, Nat.add_mul_div_right _ _ (Nat.two_pow_pos len), Nat.div_eq_of_lt hv, Nat.zero_add]
  rw [field, field, Nat.pow_add, ← Nat.div_div_eq_div_mul, hd, Nat.div_div_eq_div_mul]

theorem putField_same {e lo len v : Nat} (h : field e lo len = v) : putField e lo len v = e := by
  have h1 := field_scaled_le e lo len
  have hv : v % 2 ^ len = v := by rw [← h, field, Nat.mod_mod]
  rw [putField, hv, ← h]
  omega

end Sys2Proof.Machine
end

section
/-! PROOFS. Sparse stores as lists of their entries, and the fill of a block (O39, 24 R416): the block's old cells go, the tier's come in their place,
and the leaf entry names the block. -/

namespace Sys2Proof.Machine

/-! ## Entries of a store -/

section
variable {α : Type} [DecidableEq α]

theorem mapGet_of_mem {m : List (Nat × α)} {d v : α} {lo k : Nat} (h : mapWfFrom m d lo = true) (hm : (k, v) ∈ m) : lo ≤ k ∧ mapGet m d k = v := by
  induction m generalizing lo with
  | nil => cases hm
  | cons p t ih =>
    obtain ⟨j, u⟩ := p
    simp only [mapWfFrom, Bool.and_eq_true, decide_eq_true_eq] at h
    obtain ⟨⟨hj, -⟩, ht⟩ := h
    obtain he | hm := List.mem_cons.mp hm
    · cases he
      exact ⟨hj, by simp [mapGet]⟩
    · obtain ⟨hk, hv⟩ := ih ht hm
      refine ⟨by omega, ?_⟩
      rw [mapGet, if_neg (by omega), if_neg (by omega), hv]

omit [DecidableEq α] in
theorem mapGet_of_not_mem {m : List (Nat × α)} {d : α} {k : Nat} (h : ∀ c ∈ m, c.1 ≠ k) : mapGet m d k = d := by
  induction m with
  | nil => rfl
  | cons p t ih =>
    have hp : k ≠ p.1 := (h p List.mem_cons_self).symm
    simp only [mapGet, if_neg hp, ih fun c hc => h c (List.mem_cons_of_mem _ hc), ite_self]

theorem mapWfFrom_filter {m : List (Nat × α)} {d : α} {lo : Nat} (p : Nat × α → Bool) (h : mapWfFrom m d lo = true) :
    mapWfFrom (m.filter p) d lo = true := by
  induction m generalizing lo with
  | nil => rfl
  | cons c t ih =>
    obtain ⟨j, u⟩ := c
    simp only [mapWfFrom, Bool.and_eq_true, decide_eq_true_eq] at h
    obtain ⟨⟨hj, hu⟩, ht⟩ := h
    rw [List.filter_cons]
    split
    · simp only [mapWfFrom, Bool.and_eq_true, decide_eq_true_eq]
      exact ⟨⟨hj, hu⟩, ih ht⟩
    · exact mapWfFrom_mono (ih ht) (by omega)

/-- A store keeps the entries whose keys are kept. -/
theorem mapGet_filter {m : List (Nat × α)} {d : α} {k : Nat} (p : Nat → Bool) (h : mapWf m d = true) :
    mapGet (m.filter fun c => p c.1) d k = if p k = true then mapGet m d k else d := by
  by_cases hk : ∃ v, (k, v) ∈ m.filter fun c => p c.1
  · obtain ⟨v, hv⟩ := hk
    obtain ⟨hm, hp⟩ := List.mem_filter.mp hv
    rw [if_pos hp, (mapGet_of_mem (mapWfFrom_filter _ h) hv).2, (mapGet_of_mem h hm).2]
  · rw [mapGet_of_not_mem fun c hc (he : c.1 = k) => hk ⟨c.2, he ▸ hc⟩]
    split
    case isTrue hp => exact (mapGet_of_not_mem fun c hc (he : c.1 = k) => hk ⟨c.2, List.mem_filter.mpr ⟨he ▸ hc, hp⟩⟩).symm
    case isFalse => rfl

end

/-! ## Cells written one after the other -/

/-- A byte after cells have been written: what each cell at its address holds, or, where there is none, what it was. -/
theorem getByte_foldl_setByte {cells m : List Host.Cell} {a : Nat} {v : Byte} (h : memWf m = true) (hc : ∀ c ∈ cells, c.1 = a → c.2 = v)
    (h0 : (∀ c ∈ cells, c.1 ≠ a) → getByte m a = v) : getByte (cells.foldl (fun m c => setByte m c.1 c.2) m) a = v := by
  induction cells generalizing m with
  | nil => exact h0 fun _ hmem => absurd hmem List.not_mem_nil
  | cons c t ih =>
    refine ih (setByte_wf h) (fun c' hmem => hc c' (List.mem_cons_of_mem _ hmem)) fun ht => ?_
    rw [getByte_setByte h]
    split
    case isTrue ha => exact hc c List.mem_cons_self ha.symm
    case isFalse ha => exact h0 (List.forall_mem_cons.mpr ⟨Ne.symm ha, ht⟩)

theorem memWf_foldl_setByte {cells m : List Host.Cell} (h : memWf m = true) : memWf (cells.foldl (fun m c => setByte m c.1 c.2) m) = true := by
  induction cells generalizing m with
  | nil => exact h
  | cons c t ih => exact ih (setByte_wf h)

/-! ## A block filled from the tier (24 R416) -/

theorem mem_blockCells {m : List Host.Cell} {b pbn : Nat} {c : Host.Cell} :
    c ∈ blockCells m b pbn ↔ ∃ e ∈ m, e.1 / 65536 = b ∧ (pbn * 65536 + e.1 % 65536, e.2) = c := by
  simp only [blockCells, List.mem_map, List.mem_filter, beq_iff_eq, and_assoc]

/-- Byte `o` of a block, among the cells of the block moved. -/
theorem blockCells_value {m : List Host.Cell} {b pbn o : Nat} {c : Host.Cell} (h : memWf m = true) (ho : o < 65536) (hc : c ∈ blockCells m b pbn)
    (ha : c.1 = 65536 * pbn + o) : c.2 = getByte m (65536 * b + o) := by
  obtain ⟨e, he, hb, rfl⟩ := mem_blockCells.mp hc
  have hk : e.1 = 65536 * b + o := by simp only at ha; omega
  rw [getByte, ← hk, (mapGet_of_mem (v := e.2) h he).2]

/-- A byte that no moved cell holds is not listed in the block they come from. -/
theorem blockCells_absent {m : List Host.Cell} {b pbn o : Nat} (ho : o < 65536) (hc : ∀ c ∈ blockCells m b pbn, c.1 ≠ 65536 * pbn + o) :
    getByte m (65536 * b + o) = memDefault := by
  refine mapGet_of_not_mem fun e he hk => hc _ (mem_blockCells.mpr ⟨e, he, by omega, rfl⟩) ?_
  simp only
  omega

section
variable {s : State} (hf : s.ck.frozen = [])
include hf

/-- With no frozen block nothing is preserved before a fill. -/
theorem fillBlock_eq (base t pbn : Nat) : fillBlock s base t pbn =
    { s with
      mem := (blockCells s.tier (base + t) pbn).foldl (fun m c => setByte m c.1 c.2) (s.mem.filter (fun c => c.1 / 65536 != pbn))
      tags := s.tags.filter (fun g => g.1 / 4096 != pbn)
      poison := s.poison.filter (fun g => g.1 / 1024 != pbn) } := by
  simp [fillBlock, hf]

theorem fillBlock_memWf (base t pbn : Nat) (hm : memWf s.mem = true) : memWf (fillBlock s base t pbn).mem = true := by
  rw [fillBlock_eq hf]
  exact memWf_foldl_setByte (mapWfFrom_filter _ hm)

theorem getByte_fillBlock_in (base t : Nat) {pbn o : Nat} (hm : memWf s.mem = true) (ht : memWf s.tier = true) (ho : o < 65536) :
    getByte (fillBlock s base t pbn).mem (65536 * pbn + o) = getByte s.tier (65536 * (base + t) + o) := by
  rw [fillBlock_eq hf]
  refine getByte_foldl_setByte (mapWfFrom_filter _ hm) (fun c => blockCells_value ht ho) fun hc => ?_
  have hold : ((65536 * pbn + o) / 65536 != pbn) = false := by
    rw [show (65536 * pbn + o) / 65536 = pbn by omega, bne_self_eq_false]
  rw [blockCells_absent ho hc, getByte, mapGet_filter (fun a => a / 65536 != pbn) hm, hold]
  rfl

theorem getByte_fillBlock_out (base t : Nat) {pbn a : Nat} (hm : memWf s.mem = true) (ha : a / 65536 ≠ pbn) :
    getByte (fillBlock s base t pbn).mem a = getByte s.mem a := by
  rw [fillBlock_eq hf]
  refine getByte_foldl_setByte (mapWfFrom_filter _ hm) (fun c hc he => ?_) fun _ => ?_
  · obtain ⟨e, -, -, rfl⟩ := mem_blockCells.mp hc
    simp only at he
    omega
  · rw [getByte, mapGet_filter (fun a => a / 65536 != pbn) hm, if_pos (bne_iff_ne.mpr ha)]
    rfl

end

/-- The one extent fill, which no context waits for, ends: first its block is filled, then its leaf entry is written. -/
theorem extentDone_one {s : State} {f : Fill} {leaf d pbn info : Nat} (hs : s.fills = [f]) (hk : f.kind = .extent leaf d pbn info [])
    (hf : s.ck.frozen = []) (hm : memWf s.mem = true) (ht : memWf s.tier = true) :
    ∃ t, extentDone s = putUnit t leaf (leBytes 8 (pbn + 17179869184 + 34359738368 * field (leVal (getBytes t.mem leaf 8)) 35 25))
      ∧ t.fills = [] ∧ memWf t.mem = true
      ∧ (∀ o, o < 65536 → getByte t.mem (65536 * pbn + o) = getByte s.tier (65536 * (f.base + f.tblk) + o))
      ∧ (∀ a, a / 65536 ≠ pbn → getByte t.mem a = getByte s.mem a) := by
  have hx : isExtent f = true := by rw [isExtent, hk]
  refine ⟨fillBlock { s with fills := [] } f.base f.tblk pbn, by simp [extentDone, hs, hx, hk], ?_, ?_, fun o ho => ?_, fun a ha => ?_⟩
  · rw [fillBlock_eq (s := { s with fills := [] }) hf]
  · exact fillBlock_memWf (s := { s with fills := [] }) hf _ _ _ hm
  · exact getByte_fillBlock_in (s := { s with fills := [] }) hf _ _ hm ht ho
  · exact getByte_fillBlock_out (s := { s with fills := [] }) hf _ _ hm ha

theorem getByte_putUnit {s : State} {a : Nat} {bs : List Byte} (h : memWf s.mem = true) {b : Nat} (hb : b < a ∨ a + bs.length ≤ b) :
    getByte (putUnit s a bs).mem b = getByte s.mem b := by
  rw [putUnit, getByte_setBytes h, if_neg (by omega)]

/-- A fill with its leaf entry outside the block: the block's bytes are the tier's, the entry names the block and keeps its WOV, and every other
byte stands. -/
theorem extentDone_mem {s : State} {f : Fill} {leaf d pbn info : Nat} (hs : s.fills = [f]) (hk : f.kind = .extent leaf d pbn info [])
    (hf : s.ck.frozen = []) (hm : memWf s.mem = true) (ht : memWf s.tier = true) (hl : leaf % 8 = 0) (hb : leaf / 65536 ≠ pbn) (hp : pbn < 2 ^ 24) :
    (extentDone s).fills = []
    ∧ (∀ o, o < 65536 → getByte (extentDone s).mem (65536 * pbn + o) = getByte s.tier (65536 * (f.base + f.tblk) + o))
    ∧ leVal (getBytes (extentDone s).mem leaf 8) = pbn + 2 ^ 34 + 2 ^ 35 * field (leVal (getBytes s.mem leaf 8)) 35 25
    ∧ (∀ a, a / 65536 ≠ pbn → (a < leaf ∨ leaf + 8 ≤ a) → getByte (extentDone s).mem a = getByte s.mem a) := by
  obtain ⟨t, hdone, hfills, hwf, hin, hout⟩ := extentDone_one hs hk hf hm ht
  have hleaf : getBytes t.mem leaf 8 = getBytes s.mem leaf 8 := getBytes_congr fun i hi => hout _ (by omega)
  rw [hdone, hleaf]
  refine ⟨hfills, fun o ho => ?_, ?_, fun a ha hne => ?_⟩
  · rw [getByte_putUnit hwf (by rw [leBytes_length]; omega), hin o ho]
  · have hw : field (leVal (getBytes s.mem leaf 8)) 35 25 < 2 ^ 25 := Nat.mod_lt _ (Nat.two_pow_pos 25)
    exact word_setBytes hwf (by omega)
  · rw [getByte_putUnit hwf (by rw [leBytes_length]; exact hne), hout a ha]

end Sys2Proof.Machine
end

section
/-! PROOFS. Heat sweeps, holds, storage errors and refresh (O39, 10 R201, R211, 24 R422 to R426). -/

namespace Sys2Proof.Machine

/-! ## Heat (10 R201) -/

/-- A leaf entry that is cooled has each heat field one lower, or 0. -/
theorem coolLeaf_word {s : State} (la : Nat) (h : memWf s.mem = true) :
    leVal (getBytes (coolLeaf s la).mem la 8) =
      (let l := leVal (getBytes s.mem la 8)
       putField (putField l 30 2 (field l 30 2 - 1)) 32 2 (field l 32 2 - 1)) := by
  have hl := word_lt s.mem la
  simp only [coolLeaf]
  generalize hx : leVal (getBytes s.mem la 8) = l at hl ⊢
  have hw (v : Nat) : field (putField l 30 2 v) 32 2 = field l 32 2 := field_putField_next l 30 2 v 2
  split
  case isTrue hcold =>
    obtain ⟨hr0, hw0⟩ : field l 30 2 = 0 ∧ field l 32 2 = 0 := by simpa using hcold
    rw [hr0, hw0, putField_same hr0, putField_same hw0]
    exact hx
  case isFalse =>
    have h1 : putField l 30 2 (field l 30 2 - 1) ≤ l := putField_le (Nat.sub_le _ _)
    have h2 := putField_le (e := putField l 30 2 (field l 30 2 - 1)) (lo := 32) (len := 2) (v := field l 32 2 - 1) (by rw [hw]; exact Nat.sub_le _ _)
    exact word_setBytes h (by omega)

/-- An object of one block in the die's stacks: the entries of its one leaf page are lowered. -/
theorem coolObject_one {s : State} {j : Job} {d dir ix : Nat} (ho : objEntry s j d ix = some (dir, 1))
    (he : field (leVal (getBytes s.mem (dir * 65536) 8)) 24 1 = 1 ∧ field (leVal (getBytes s.mem (dir * 65536) 8)) 0 24 / 2097152 = d) :
    coolObject s j d d ix =
      (List.range 8192).foldl (fun u i => coolEntry u (field (leVal (getBytes s.mem (dir * 65536) 8)) 0 24 * 65536 + 8 * i)) s := by
  have hpages : (1 + 8191) / 8192 = 1 := rfl
  rw [coolObject, ho]
  simp only [hpages, List.range_one]
  rw [List.foldl_cons, List.foldl_nil, Nat.mul_zero, Nat.add_zero]
  exact if_pos (by simp [he])

/-- A sweep of a die with one job, of one object: its entries are lowered, and then the residency entries. -/
theorem sweepHeat_one {s : State} {d ix dir : Nat} {j : Job} (hs : s.jobs = [(ix, j)]) (hj : jobHolds s j d = true) (hn : j.nobj = 1)
    (ho : objEntry s j d 0 = some (dir, 1))
    (he : field (leVal (getBytes s.mem (dir * 65536) 8)) 24 1 = 1 ∧ field (leVal (getBytes s.mem (dir * 65536) 8)) 0 24 / 2097152 = d) :
    sweepHeat s d =
      (let t := (List.range 8192).foldl (fun u i => coolEntry u (field (leVal (getBytes s.mem (dir * 65536) 8)) 0 24 * 65536 + 8 * i)) s
       if (objEntry t (tableJob t d) d (ertObj t d)).isNone then t else coolErt t d) := by
  rw [sweepHeat, hs, List.foldl_cons, List.foldl_nil, if_pos hj, hn, List.range_one, List.foldl_cons, List.foldl_nil, coolObject_one ho he]

/-! ## Thermal holds (24 R422) -/

/-- A register that holds another value than at reset is read as it was stored, and its die is not that of reset. -/
theorem regRaw_setReg {v : Die} {off n : Nat} (h : n ≠ regReset off) : regRaw (setReg v off n) off = n := mapGet_mapSet_same _ _ h
theorem die_ne_init_of_regRaw {v : Die} {off : Nat} (h : regRaw v off ≠ regReset off) : v ≠ Die.init := fun he => h (he ▸ regRaw_init off)
theorem regRaw_setDie_setReg {s : State} {d off n : Nat} {v : Die} (h : n ≠ regReset off) : regRaw (dieOf (setDie s d (setReg v off n)) d) off = n := by
  rw [dieOf_setDie (die_ne_init_of_regRaw (by rwa [regRaw_setReg h])), regRaw_setReg h]

/-- A stack whose hold begins is held. -/
theorem stackHeld_setHeld (s : State) (st : Nat) : stackHeld (setHeld s st true) st = true := by
  have hbit (v : Nat) : field (putField v (16 + st % 2) 1 1) (16 + st % 2) 1 = 1 := field_putField v _ 1 1
  have hne (v : Nat) : putField v (16 + st % 2) 1 1 ≠ regReset 0x3020 := by
    intro he
    have h := hbit v
    rw [he] at h
    obtain h2 | h2 := Nat.mod_two_eq_zero_or_one st
    · rw [h2] at h
      exact absurd h (by decide)
    · rw [h2] at h
      exact absurd h (by decide)
  simp only [stackHeld, setHeld, if_true, regRaw_setDie_setReg (hne _), hbit, decide_true]

/-! ## HOLD_LIMIT (24 R424) -/

/-- The holds of die d that have lasted too long for context x of core k are told to it. -/
def tellHeld (k x : Nat) (s : State) (d : Nat) : State :=
  match (dieOf s d).held.find? (fun h => h.core == k && h.ctx == x && limitExceeded s h) with
  | none => s
  | some h =>
    let s := setDie s d { dieOf s d with
      held := (dieOf s d).held.map (fun e => if e.core == k && e.ctx == x && e.stack == h.stack then { e with told := true } else e) }
    setCtx s k x { raiseA (ctxOf s k x) 0x1B 0 with frozen := false }

theorem raiseLimit_eq (s : State) (k x : Nat) : raiseLimit s k x = (List.range 8).foldl (tellHeld k x) s := rfl

/-- A die that holds nothing of a context tells it nothing. -/
theorem tellHeld_none {s : State} {k x d : Nat} (h : ∀ g ∈ (dieOf s d).held, g.core ≠ k ∨ g.ctx ≠ x) : tellHeld k x s d = s := by
  have hnone : (dieOf s d).held.find? (fun h => h.core == k && h.ctx == x && limitExceeded s h) = none := by
    rw [List.find?_eq_none]
    intro g hg
    obtain hc | hc := h g hg <;> simp [hc]
  rw [tellHeld, hnone]

theorem foldl_tellHeld_none {s : State} {k x : Nat} {ds : List Nat} (h : ∀ d ∈ ds, ∀ g ∈ (dieOf s d).held, g.core ≠ k ∨ g.ctx ≠ x) :
    ds.foldl (tellHeld k x) s = s := by
  induction ds with
  | nil => rfl
  | cons d ds ih =>
    rw [List.foldl_cons, tellHeld_none (h d List.mem_cons_self)]
    exact ih fun e he => h e (List.mem_cons_of_mem _ he)

/-- A die whose one held request has lasted too long tells its context. -/
theorem tellHeld_one {s : State} {d : Nat} {h : HeldReq} (hh : (dieOf s d).held = [h]) (hl : limitExceeded s h = true) :
    tellHeld h.core h.ctx s d =
      setCtx (setDie s d { dieOf s d with held := [{ h with told := true }] }) h.core h.ctx
        { raiseA (ctxOf s h.core h.ctx) 0x1B 0 with frozen := false } := by
  simp [tellHeld, hh, hl]

/-- Of the eight dies only d has anything to tell, and it tells it once. -/
theorem raiseLimit_one {s : State} {d : Nat} {h : HeldReq} (hd : d < 8) (hh : (dieOf s d).held = [h]) (hl : limitExceeded s h = true)
    (hothers : ∀ e, e < 8 → e ≠ d → ∀ g ∈ (dieOf s e).held, g.core ≠ h.core ∨ g.ctx ≠ h.ctx) :
    raiseLimit s h.core h.ctx = tellHeld h.core h.ctx s d := by
  obtain ⟨l, r, hrange⟩ := List.append_of_mem (List.mem_range.mpr hd)
  have hother (e : Nat) (he : e ∈ l ∨ e ∈ r) : e < 8 ∧ e ≠ d := by
    have hnd := List.nodup_range (n := 8)
    rw [hrange, List.nodup_append, List.nodup_cons] at hnd
    obtain ⟨-, ⟨hr, -⟩, hl⟩ := hnd
    have hmem : e ∈ List.range 8 := by
      rw [hrange, List.mem_append, List.mem_cons]
      exact he.imp_right .inr
    refine ⟨List.mem_range.mp hmem, ?_⟩
    obtain hel | her := he
    · exact hl e hel d List.mem_cons_self
    · exact fun heq => hr (heq ▸ her)
  have hleft : ∀ e ∈ l, ∀ g ∈ (dieOf s e).held, g.core ≠ h.core ∨ g.ctx ≠ h.ctx := fun e he =>
    hothers e (hother e (.inl he)).1 (hother e (.inl he)).2
  rw [raiseLimit_eq, hrange, List.foldl_append, foldl_tellHeld_none hleft, List.foldl_cons]
  refine foldl_tellHeld_none fun e he => ?_
  obtain ⟨h8, hne⟩ := hother e (.inr he)
  rw [tellHeld_one hh hl, dieOf_setCtx, dieOf_setDie_ne (die_ne_init_of_held (List.cons_ne_nil _ _)) hne]
  exact hothers e h8 hne

/-! ## Storage errors (24 R420, R426) -/

/-- ECCCNT and UELOG are 0 at reset. -/
theorem regReset_errors {i : Nat} (hi : i < 2) : regReset (0x3028 + 8 * i) = 0 ∧ regReset (0x3038 + 8 * i) = 0 := by
  obtain rfl | rfl : i = 0 ∨ i = 1 := by omega
  · decide
  · decide

/-- A granule's stack, as its die and its place in the die. -/
theorem stackOf_granule (gran : Nat) : stackOf (64 * gran) / 2 = gran / 2 ^ 31 ∧ stackOf (64 * gran) % 2 = gran / 2 ^ 30 % 2 := by
  simp only [stackOf]
  omega

@[simp] theorem noteHw_poison (s : State) (u r cur : Nat) (f : Nat → Nat) : (noteHw s u r cur f).poison = s.poison := by
  unfold noteHw; split <;> rfl
@[simp] theorem noteHw_mem (s : State) (u r cur : Nat) (f : Nat → Nat) : (noteHw s u r cur f).mem = s.mem := by
  unfold noteHw; split <;> rfl

section
variable {gran : Nat} (h : gran < 2 ^ 34)
include h

/-- A corrected error adds 1 to its stack's count. -/
theorem memoryEccError_corrected (s : State) : execMemoryEccError gran 0 s = .next (
    let d := gran / 2 ^ 31
    let cnt := 0x3028 + 8 * (gran / 2 ^ 30 % 2)
    setDie (noteHw (countRow s gran) d cnt (regRaw (dieOf s d) cnt) (fun n => n + 1)) d
      (setReg (dieOf s d) cnt (Nat.min 4294967295 (regRaw (dieOf s d) cnt + 1)))) := by
  obtain ⟨hd, hi⟩ := stackOf_granule gran
  have hin : ¬ deviceBytes ≤ 64 * gran := by simp only [deviceBytes]; omega
  simp [execMemoryEccError, hd, hi, hin]

/-- An uncorrectable one poisons its granule, and an empty log takes it. -/
theorem memoryEccError_logged {s : State} {kind : Nat} (hk : kind = 1 ∨ 5 < kind)
    (he : field (regRaw (dieOf s (gran / 2 ^ 31)) (0x3038 + 8 * (gran / 2 ^ 30 % 2))) 34 1 = 0) : execMemoryEccError gran kind s = .next (
    let d := gran / 2 ^ 31
    let log := 0x3038 + 8 * (gran / 2 ^ 30 % 2)
    setDie (noteHw { s with poison := mapSet s.poison false gran true } d log (regRaw (dieOf s d) log) (fun n => n ||| (gran + 17179869184))) d
      (setReg (dieOf s d) log (gran + 17179869184))) := by
  obtain ⟨hd, hi⟩ := stackOf_granule gran
  have hin : ¬ deviceBytes ≤ 64 * gran := by simp only [deviceBytes]; omega
  have h0 : kind ≠ 0 := by omega
  have h2 : kind ≠ 2 := by omega
  have h3 : kind ≠ 3 := by omega
  have h4 : kind ≠ 4 := by omega
  have h5 : kind ≠ 5 := by omega
  have hempty : ¬ field (regRaw (dieOf s (gran / 2 ^ 31)) (0x3038 + 8 * (gran / 2 ^ 30 % 2))) 34 1 = 1 := by omega
  simp only [execMemoryEccError, hd, hi, hin, h0, h2, h3, h4, h5, hempty, if_false]

end

/-! ## The poll (24 R426) -/

/-- Only the rows logged and what the host is told differ. -/
def ReportsOnly (s t : State) : Prop := t = { s with repairs := t.repairs, out := t.out }

theorem ReportsOnly.trans {s t u : State} (h : ReportsOnly s t) (g : ReportsOnly t u) : ReportsOnly s u := by
  unfold ReportsOnly at *; rw [g, h]
theorem ReportsOnly.hwLeft_eq {s t : State} (h : ReportsOnly s t) (u r : Nat) : hwLeft t u r = hwLeft s u r := by rw [h]; rfl
theorem ReportsOnly.dieOf_eq {s t : State} (h : ReportsOnly s t) (d : Nat) : dieOf t d = dieOf s d := by rw [h]; rfl

/-- A row is logged and the host told of something. -/
theorem report_logRow_reportsOnly (s : State) (row cause detail : Nat) : ReportsOnly s (report (logRow s row) cause detail) := by
  unfold logRow; split <;> rfl

theorem reportRows_reportsOnly (s : State) (st : Nat) : ReportsOnly s (reportRows s st) := by
  unfold reportRows
  generalize (s.repairs.corrected.filter _).map (·.1) = rows
  induction rows generalizing s with
  | nil => rfl
  | cons r rows ih => exact (report_logRow_reportsOnly s r 0x105 r).trans (ih _)

/-- What the poll of a stack tells the host of. -/
theorem reported_reportsOnly (s : State) (granule : Prop) [Decidable granule] (row v st : Nat) :
    ReportsOnly s (reportRows (if granule then report (logRow s row) 0x101 v else s) st) := by
  refine ReportsOnly.trans ?_ (reportRows_reportsOnly _ st)
  split
  · exact report_logRow_reportsOnly s row 0x101 v
  · rfl

/-- Settles O39: each event does what its lemma above says, and what it stores is read back as stored. -/
theorem memoryCare : Obligations.MemoryCare := by
  unfold Obligations.MemoryCare
  refine ⟨?sweep, ?cooled, ?fill, ?hold, ?limit, ?storage, ?poll, ?refresh⟩
  case sweep =>
    rintro s d ix dir leaf j hs hj hn ho ⟨hv, hd, rfl⟩
    exact congrArg Host.Outcome.next (sweepHeat_one hs hj hn ho ⟨hv, hd⟩)
  case cooled => exact fun s la h => coolLeaf_word la h
  case fill =>
    intro s f leaf d pbn info hs hk hf hm ht hl hb hp
    exact ⟨_, rfl, extentDone_mem hs hk hf hm ht hl hb hp⟩
  case hold =>
    intro s st temp hst
    refine ⟨fun ht hh => ⟨report (setHeld s st true) 0x102 st, ?_, stackHeld_setHeld s st, rfl⟩, fun ht hh => ?_⟩
    · exact congrArg Host.Outcome.next (by simp [hh, Nat.not_lt.mpr ht, Nat.not_le.mpr hst])
    · exact congrArg Host.Outcome.next (by simp [hh, Nat.not_lt.mpr ht, Nat.not_le.mpr hst, setHeld])
  case limit =>
    rintro s k x d h hd hh rfl rfl hl hothers
    refine ⟨_, congrArg Host.Outcome.next ((raiseLimit_one hd hh hl hothers).trans (tellHeld_one hh hl)), ?_, ?_, ?_⟩
    · rw [ctxOf_setCtx (ctx_ne_init_of_pendA (by simp [raiseA]))]; rfl
    · rw [ctxOf_setCtx (ctx_ne_init_of_pendA (by simp [raiseA]))]
    · rw [dieOf_setCtx, dieOf_setDie (die_ne_init_of_held (List.cons_ne_nil _ _))]
  case storage =>
    intro s gran h
    obtain ⟨hcnt, hlog⟩ := regReset_errors (Nat.mod_lt (gran / 2 ^ 30) Nat.two_pos)
    refine ⟨⟨_, memoryEccError_corrected h s, ?_, ?_⟩, fun kind hk he => ⟨_, memoryEccError_logged h hk he, ?_, ?_, ?_⟩⟩
    · exact regRaw_setDie_setReg (by rw [hcnt]; exact Nat.ne_of_gt (Nat.lt_min.mpr ⟨by decide, Nat.succ_pos _⟩))
    · rw [setDie_poison, noteHw_poison]; rfl
    · rw [setDie_poison, noteHw_poison]; exact mapGet_mapSet_same _ _ (by decide)
    · exact regRaw_setDie_setReg (by rw [hlog]; omega)
    · rw [setDie_mem, noteHw_mem]
  case poll =>
    intro s d poll
    refine congrArg Host.Outcome.next ?_
    simp only [poll, pollErrors, List.foldl_cons, List.foldl_nil, (reported_reportsOnly _ _ _ _ _).hwLeft_eq, (reported_reportsOnly _ _ _ _ _).dieOf_eq]
  case refresh =>
    intro s st die x a b
    refine ⟨fun h => congrArg Host.Outcome.next (if_pos h), fun h => congrArg Host.Outcome.next (if_neg ?_)⟩
    rw [h]; decide

end Sys2Proof.Machine
end

section
/-! PROOFS. What the memory instructions share (10 R196, R207, 11 R216 to R226): the address of clean operands, what finding a place in memory leaves, and what
a new request leaves of its core's and its context's records. -/

namespace Sys2Proof.Machine

/-! ## Address operands (10 R196, 11 R216, R222) -/

theorem globalOff_clean {j : Iss} {so : Nat} (h : sMarkOf j.ctx so = .clean) (imm unit : Nat) :
    j.globalOff so imm unit = (j, globalAddr j.ctx so imm unit) := by
  simp only [Iss.globalOff, s_clean h, globalAddr]
theorem bufferOff_clean {j : Iss} {so : Nat} (h : sMarkOf j.ctx so = .clean) (imm unit : Nat) :
    j.bufferOff so imm unit = (j, bufferAddr j.ctx so imm unit) := by
  simp only [Iss.bufferOff, s_clean h, bufferAddr]

/-! ## Finding a place -/

/-- An access that resolves to bytes of memory has met no failure: of what its group has gathered, the state alone is another. -/
theorem resolve_mem {j k : Iss} {c : Cap} {ci off n sz : Nat} {write : Bool} {far : Option Nat} {p : Nat × Nat × Nat} {ps : List (Nat × Nat × Nat)}
    (h : j.resolve c ci off n sz write far = .ok (k, .mem (p :: ps))) : ∃ t, k = { j with st := t } := by
  simp only [Iss.resolve, trapNow, bind, Except.bind] at h
  split at h
  case isTrue => cases h -- another module's object
  split at h
  case h_1 => cases h -- no entry
  split at h
  case isTrue => cases h -- past the object's blocks
  split at h
  case h_1 => cases h -- a far block where none is allowed
  split at h
  case h_1 => -- a block that is not resident leaves an empty place
    split at h
    · cases h
    · simp at h
  split at h
  case isTrue => exact ⟨j.st, (congrArg Prod.fst (Except.ok.inj h)).symm⟩
  case isFalse => exact ⟨_, (congrArg Prod.fst (Except.ok.inj h)).symm⟩

theorem locate_mem {j k : Iss} {ci off n align rights sz rc : Nat} {write : Bool} {far : Option Nat} {p : Nat × Nat × Nat} {ps : List (Nat × Nat × Nat)}
    (h : j.locate ci off n align rights sz write rc far = .ok (k, .mem (p :: ps))) : ∃ t, k = { j with st := t } := by
  simp only [Iss.locate, trapNow, bind, Except.bind] at h
  split at h
  case h_1 => cases h -- the object's entry is not in the core's cache
  split at h
  case h_1 => cases h -- the capability does not allow the access
  split at h
  case h_1 => split at h <;> cases h -- a register object is no place in memory
  case h_2 => exact resolve_mem h

/-! ## What a request leaves of the records (10 R207, R208, 11 R220) -/

theorem core_ne_init_of_seq {k : Nat} {c : Core} (h : c.ms.seq ≠ 0) : c ≠ Core.init k := fun he => h (he ▸ rfl)
theorem core_ne_init_of_bound {k : Nat} {c : Core} (h : c.ms.bound ≠ []) : c ≠ Core.init k := fun he => h (he ▸ rfl)
theorem core_ne_init_of_loads {k : Nat} {c : Core} (h : c.ms.loads ≠ []) : c ≠ Core.init k := fun he => h (he ▸ rfl)
theorem core_ne_init_of_atoms {k : Nat} {c : Core} (h : c.ms.atoms ≠ []) : c ≠ Core.init k := fun he => h (he ▸ rfl)
theorem core_ne_init_of_gated {k : Nat} {c : Core} (h : c.ms.gated ≠ []) : c ≠ Core.init k := fun he => h (he ▸ rfl)
theorem ctx_ne_init_of_nextReq {c : Ctx} (h : c.nextReq ≠ 0) : c ≠ Ctx.init := fun he => h (he ▸ rfl)

theorem CoresOnly.actCtx {s t : State} (h : CoresOnly s t) : actCtx t = actCtx s := by rw [h]; rfl

/-- Numbering a request changes the number of the next alone. -/
theorem coreOf_takeSeq (s : State) (k : Nat) :
    coreOf (takeSeq s k).1 k = { coreOf s k with ms := { (coreOf s k).ms with seq := (coreOf s k).ms.seq + 1 } } :=
  coreOf_setCore (core_ne_init_of_seq (Nat.succ_ne_zero _))

/-- Binding slots changes the bound cycles alone. -/
theorem coreOf_bindSlot (s : State) (k : Nat) :
    ∃ b, coreOf (bindSlot s k).1 k = { coreOf s k with ms := { (coreOf s k).ms with bound := b } } :=
  ⟨_, coreOf_setCore (core_ne_init_of_bound (by simp))⟩
theorem coreOf_bindSpan (s : State) (k : Nat) (ps : List (Nat × Nat × Nat)) :
    ∃ b, coreOf (bindSpan s k ps).1 k = { coreOf s k with ms := { (coreOf s k).ms with bound := b } } := by
  obtain ⟨b, hone⟩ := coreOf_bindSlot s k
  obtain ⟨b', htwo⟩ := coreOf_bindSlot (bindSlot s k).1 k
  rw [hone] at htwo
  unfold bindSpan
  split
  · split
    · exact ⟨b, hone⟩
    · exact ⟨b', htwo⟩
  · exact ⟨b', htwo⟩

/-- The group after a request of the context has taken its number and the slots of its pieces, and the later slot. -/
def Iss.bound (j : Iss) (ps : List (Nat × Nat × Nat)) : Iss := { j with st := (bindSpan (takeSeq j.st j.st.core).1 j.st.core ps).1 }
def Iss.boundSlot (j : Iss) (ps : List (Nat × Nat × Nat)) : Nat := (bindSpan (takeSeq j.st j.st.core).1 j.st.core ps).2
/-- Its number and its slots leave the loads of the core as they are. -/
theorem bound_loads (j : Iss) (ps : List (Nat × Nat × Nat)) : (j.bound ps).core.ms.loads = j.core.ms.loads := by
  obtain ⟨b, hb⟩ := coreOf_bindSpan (takeSeq j.st j.st.core).1 j.st.core ps
  have hcore : (j.bound ps).st.core = j.st.core := ((takeSeq_coresOnly _ _).trans (bindSpan_coresOnly _ _ ps)).core
  rw [Iss.core, actCore, hcore, Iss.bound, hb, coreOf_takeSeq]; rfl
theorem newKey_ctx (j : Iss) : j.newKey.1.ctx = { j.ctx with nextReq := j.ctx.nextReq + 1 } := by
  refine ctxOf_setCtx (ctx_ne_init_of_nextReq ?_)
  exact Nat.succ_ne_zero _
/-- Naming a request leaves the clock of its context. -/
theorem newKey_clock (j : Iss) : j.newKey.1.clock = j.clock := by rw [Iss.clock, newKey_ctx]; rfl

end Sys2Proof.Machine
end

section
/-! PROOFS. Loads (O15, 11 R216 to R224, 10 R207, R208): where a load finds its operands, and what it sends for the lines that its core does not hold. -/

namespace Sys2Proof.Machine

/-! ## Requests for lines (10 R207, R208) -/

/-- A load request joins those of the core. -/
def Iss.withLoad (j : Iss) (l : LoadReq) : Iss := j.setCore { j.core with ms := { j.core.ms with loads := j.core.ms.loads ++ [l] } }
/-- The request for the lines that a load misses. -/
def Iss.missed (j : Iss) (cls : Nat) (ps : List (Nat × Nat × Nat)) (dst : Land) (cap : Bool) : LoadReq :=
  { ctx := j.st.cx, key := (j.bound ps).newKey.2, cls := cls, world := j.ctx.world, seq := (takeSeq j.st j.st.core).2, pieces := ps,
    own := (ownStores j.st j.st.core j.st.cx).filter isMem, dst := dst, wantTag := cap, fill := true, exact := true,
    reach := none, slot := some (j.boundSlot ps), fin := some (j.boundSlot ps + 152), got := none }

theorem withLoad_loads (j : Iss) (ps : List (Nat × Nat × Nat)) (l : LoadReq) :
    ((j.bound ps).newKey.1.withLoad l).core.ms.loads = j.core.ms.loads ++ [l] := by
  rw [← bound_loads j ps]
  exact congrArg (fun c : Core => c.ms.loads) (coreOf_setCore (core_ne_init_of_loads (by simp)))
theorem withLoad_clock (j : Iss) (ps : List (Nat × Nat × Nat)) (l : LoadReq) : ((j.bound ps).newKey.1.withLoad l).clock = j.clock :=
  (newKey_clock _).trans (congrArg Ctx.clock ((takeSeq_coresOnly _ _).trans (bindSpan_coresOnly _ _ ps)).actCtx)

/-! ## Hit and miss (11 R217, R218, 10 R208) -/

theorem loadMem_hits {j : Iss} {ps : List (Nat × Nat × Nat)} (hp : ps ≠ []) (hh : j.hits ps = true) (cls : Nat) (dst : Land) (cap : Bool) :
    j.loadMem cls ps dst cap = .ok (j.add 14 (landValue dst (readLines j.st j.st.core j.st.cx j.ctx.world ps) false
      (cap && forwardTag j.st j.st.core j.st.cx (firstView j.ctx.world ps)
        (field (mapGet j.core.ms.lines Line.init (lineKey (firstView j.ctx.world ps) j.ctx.world)).tags (firstView j.ctx.world ps % 128 / 16) 1 = 1))) none 0) := by
  simp [Iss.loadMem, hp, hh]

theorem loadMem_misses {j : Iss} {cls : Nat} {ps : List (Nat × Nat × Nat)} (hp : ps ≠ []) (hh : j.hits ps = false)
    (hw : j.waitsOrder cls ps false false = false) (dst : Land) (cap : Bool) :
    j.loadMem cls ps dst cap = .ok (((j.bound ps).newKey.1.withLoad (j.missed cls ps dst cap)).await (j.boundSlot ps - j.st.now + 192) dst
      (j.bound ps).newKey.2 false) := by
  simp only [Iss.loadMem, List.isEmpty_iff, hp, hh, hw, Bool.false_eq_true, if_false]
  rfl

/-! ## Where a load finds its place (R216, R219) -/

theorem loadPlace_found {j j1 k : Iss} {f : MM} {imm rc : Nat} {far : Option Nat} {d : Land} {p : Place} (hc : Clean [f.so] j)
    (hd : j.loadDest f.sz f.ds = .ok (j1, d))
    (hl : j1.locate f.cb (globalAddr j.ctx f.so imm (sizeUnit f.sz)) (sizeBytes f.sz) (sizeAlign f.sz) rLOAD f.sz false rc far = .ok (k, p)) :
    j.loadPlace f imm rc far = .ok (k, d, p, globalAddr j.ctx f.so imm (sizeUnit f.sz)) := by
  simp only [Iss.loadPlace, globalOff_clean (hc f.so (by simp)), hd, hl, bind, Except.bind]

/-! ## PREF (R224) -/

theorem opPref_skips {j : Iss} {f : MM}
    (h : (readC j.ctx f.cb).tag = false ∨ (readC j.ctx f.cb).grants rLOAD = false ∨ globalAddr j.ctx f.so f.imm 1 < (readC j.ctx f.cb).lower
      ∨ (readC j.ctx f.cb).upper ≤ globalAddr j.ctx f.so f.imm 1 ∨ (readC j.ctx f.cb).home ≠ Config.moduleNumber) : opPref f j = .ok j := by
  refine if_pos ?_
  unfold globalAddr at h
  rcases h with h | h | h | h | h <;> simp [h]

/-- A capability allows PREF to read at its operand. -/
def PrefAllowed (f : MM) (j : Iss) : Prop :=
  (readC j.ctx f.cb).tag = true ∧ (readC j.ctx f.cb).grants rLOAD = true ∧ (readC j.ctx f.cb).lower ≤ globalAddr j.ctx f.so f.imm 1
  ∧ globalAddr j.ctx f.so f.imm 1 < (readC j.ctx f.cb).upper ∧ (readC j.ctx f.cb).home = Config.moduleNumber ∧ (readC j.ctx f.cb).index < 67108856
/-- The entry of its object is in the core's cache, and the block that holds its operand is resident. -/
def PrefResident (f : MM) (j : Iss) (dir nblk p leaf : Nat) : Prop :=
  j.core.ms.objCache.contains (readC j.ctx f.cb).obj = true
  ∧ objEntry j.st (ctxJob j.st j.st.core j.st.cx) j.die (readC j.ctx f.cb).index = some (dir, nblk)
  ∧ globalAddr j.ctx f.so f.imm 1 / 65536 < nblk ∧ walk j.st j.die dir (globalAddr j.ctx f.so f.imm 1 / 256 * 256) = .hbm p leaf

/-- The request of a PREF for the 256 bytes at p, and the group after it. -/
def Iss.prefetch (j : Iss) (p leaf : Nat) : LoadReq :=
  { ({ j with st := raiseHeat j.st leaf false } : Iss).missed 16 [(p, leaf, 256)] (.none Row.zero) false with own := [] }
def Iss.prefetched (j : Iss) (p leaf : Nat) : Iss :=
  (({ j with st := raiseHeat j.st leaf false } : Iss).bound [(p, leaf, 256)]).newKey.1.withLoad (j.prefetch p leaf)

theorem prefetched_pends (j : Iss) (p leaf : Nat) : (j.prefetched p leaf).pends = j.pends := rfl
theorem prefetched_sends {j : Iss} (p leaf : Nat) (hj : j.pends = []) :
    ∃ (slot : Nat) (l : LoadReq), (j.prefetched p leaf).core.ms.loads = j.core.ms.loads ++ [l] ∧ l.pieces = [(p, leaf, 256)]
      ∧ l.slot = some slot ∧ l.fin = some (slot + 152) ∧ l.fill = true ∧ l.world = j.ctx.world ∧ (j.prefetched p leaf).pends = [] :=
  ⟨({ j with st := raiseHeat j.st leaf false } : Iss).boundSlot [(p, leaf, 256)], j.prefetch p leaf, withLoad_loads .., rfl, rfl, rfl, rfl, rfl,
    (prefetched_pends ..).trans hj⟩
theorem prefetched_sound {j : Iss} (p leaf : Nat) (h : j.Sound) : (j.prefetched p leaf).Sound := h

theorem opPref_resident {j : Iss} {f : MM} {dir nblk p leaf : Nat} (ha : PrefAllowed f j) (hr : PrefResident f j dir nblk p leaf) :
    opPref f j = if (decide (dieOfAddr p ≠ j.die) || hitsCache j.st j.st.core j.ctx.world [(p, leaf, 256)]) = true then .ok j
      else .ok (j.prefetched p leaf) := by
  obtain ⟨htag, hright, hlower, hupper, hhome, hindex⟩ := ha
  obtain ⟨hcache, hentry, hblock, hwalk⟩ := hr
  have hreg : regObject (readC j.ctx f.cb) = none := by simp [regObject, hindex]
  have hneed : j.needObject (readC j.ctx f.cb) = .ok () := by simp only [Iss.needObject, hcache, Bool.or_true, if_true]
  have hupper' : ¬ (readC j.ctx f.cb).upper < globalAddr j.ctx f.so f.imm 1 + 1 := Nat.not_lt.mpr hupper
  unfold globalAddr at *
  simp only [opPref, htag, hright, Nat.not_lt.mpr hlower, hupper', hhome, hreg, hneed, hentry, Nat.not_le.mpr hblock, hwalk, bind, Except.bind, Bool.not_true,
    decide_false, ne_eq, not_true_eq_false, Option.isSome_none, Bool.or_self, Bool.false_eq_true, if_false]
  rfl

/-- Settles O15: each load by its operands; a miss leaves the one request its data waits for. -/
theorem loadIssue : Obligations.LoadIssue := by
  unfold Obligations.LoadIssue
  refine ⟨fun g f => ⟨completesTo_of (op := opLds f) (fun _ => rfl) ?ldsMem, completesTo_of (op := opLds f) (fun _ => rfl) ?ldsReg,
    completesTo_of (op := opLdv f) (fun _ => rfl) ?ldv, completesTo_of (op := opLdf f) (fun _ => rfl) ?ldf,
    completesTo_of (op := opLdx f) (fun _ => rfl) ?ldx,
    completes_of (op := opPref f) (fun _ => rfl) (fun s ⟨_, h⟩ => opPref_skips h) (fun s _ => began_sound s _),
    fun dir nblk p leaf => completesWith_of (op := opPref f) (fun _ => rfl) ?pref⟩, fun j cls ps dst cap hp => ⟨fun hh => loadMem_hits hp hh .., ?miss⟩⟩
  case ldsMem =>
    rintro s k ⟨j', d, ps, ⟨hc, j1, hd, hl⟩, hk⟩
    simpa only [opLds, loadPlace_found hc hd hl, bind, Except.bind] using hk
  case ldsReg =>
    rintro s k ⟨j', d, die, off, ⟨hc, j1, hd, hl⟩, rfl⟩
    simp only [opLds, loadPlace_found hc hd hl, bind, Except.bind, Iss.loadReg]
  case ldv =>
    rintro s k ⟨j', d, ps, ⟨hc, j1, hd, hl⟩, hk⟩
    simpa only [opLdv, loadPlace_found hc hd hl, bind, Except.bind] using hk
  case ldf =>
    rintro s k ⟨j', d, ps, ⟨hc, j1, hd, hl⟩, rfl⟩
    simp only [opLdf, loadPlace_found hc hd hl, bind, Except.bind]
  case ldx =>
    rintro s k ⟨hc, j', ps, hl, hk⟩
    simpa only [opLdx, globalOff_clean (hc f.so (by simp)), hl, bind, Except.bind] using hk
  case pref =>
    rintro s ⟨-, htag, hright, hlower, hupper, hhome, hindex, hresident⟩
    have hop := opPref_resident ⟨htag, hright, hlower, hupper, hhome, hindex⟩ hresident
    split
    case isTrue hskip => exact ⟨_, hop.trans (if_pos (by simpa using hskip)), rfl, began_sound s _⟩
    case isFalse hfetch =>
      exact ⟨_, hop.trans (if_neg (by simpa using hfetch)), prefetched_sends p leaf rfl, prefetched_sound p leaf (began_sound s _)⟩
  case miss =>
    intro hh hw
    refine ⟨_, _, _, j.missed cls ps dst cap, loadMem_misses hp hh hw dst cap, ?_, withLoad_loads .., rfl, rfl, rfl, rfl, rfl, rfl, rfl⟩
    simp only [Iss.await, withLoad_clock]; rfl

end Sys2Proof.Machine
end

section
/-! PROOFS. Typed-buffer loads and stores (O16, 11 R222, 10 R202, 23 R396): the operand passes its checks, LDB takes what its context sees and STB gates. -/

namespace Sys2Proof.Machine

/-! ## The row of a push (03 R49, 08 R147) -/

/-- Taking a bank touches the register file of the core alone. -/
theorem touch_ctx {j k : Iss} {r : Nat} (h : j.touch r = .ok k) : k.ctx = j.ctx := by
  simp only [Iss.touch] at h
  split at h
  · cases h; rfl
  · cases h
theorem claim_ctx {j k : Iss} {q r : Nat} (h : j.claim q = .ok (k, r)) : k.ctx = j.ctx := by
  simp only [Iss.claim, trapNow, stallNow, bind, Except.bind] at h
  split at h
  case isTrue => cases h
  split at h
  case isTrue => split at h <;> cases h
  split at h
  case h_1 => cases h
  case h_2 i hi => cases h; exact (touch_ctx hi :)

theorem loadDest_scalar {sz : Nat} (h : sz < 4) (j : Iss) (ds : Nat) : j.loadDest sz ds = .ok (j, .scalar (ds % 64) 0#64) := if_pos h
theorem loadDest_row {j j1 : Iss} {sz ds row : Nat} (h : 4 ≤ sz) (hc : j.claim (ds % 64) = .ok (j1, row)) :
    j.loadDest sz ds = .ok (j1, .row (ds % 64) row Row.zero) := by
  simp only [Iss.loadDest, if_neg (Nat.not_lt.mpr h), hc, bind, Except.bind]

/-! ## LDB -/

/-- The address of a typed-buffer access, and its bytes as the context sees them with their poison. -/
def bufAt (f : MM) (j : Iss) : Nat := bufferAddr j.ctx f.so f.imm (sizeUnit f.sz)
def bufSeen (f : MM) (j : Iss) : List Byte × Bool := readBuf j.st j.st.core j.st.cx (f.cb / 4) (bufAt f j) (sizeBytes f.sz)
/-- A request that the access must follow is on its way (13 R267); an operation of the MX queue uses a tile that it reads (09 R167). -/
def bufLate (f : MM) (j : Iss) : Bool := j.waitsLate ⟨0, f.cl, 0, 1 + f.cb / 4, [(bufAt f j, sizeBytes f.sz)], false⟩ false
def bufTiles (f : MM) (j : Iss) : Bool :=
  (List.range 16).any (fun t => busyTile j.core t && decide (bufAt f j < 81920 * (t + 1)) && decide (81920 * t < bufAt f j + sizeBytes f.sz))
/-- The value v of a typed-buffer load is on its way, and sees what others write by the time it lands. -/
def Iss.landsBuf (j : Iss) (code cls a n : Nat) (v : Land) : Iss :=
  { j with pends := j.pends ++ [(j.slot,
    { due := j.clock + 4, iss := j.clock, what := v, ring := none, waits := none, note := none, src := some ⟨code, cls, a, n, j.core.ms.gates⟩,
      acq := false, check := none, struck := false })] }
theorem landsBuf_sound {j : Iss} (h : j.Sound) (code cls a n : Nat) (v : Land) : (j.landsBuf code cls a n v).Sound := h
/-- What the destination of an LDB takes from the bytes it reads. -/
def ldbValue (d : Land) (r : List Byte × Bool) : Land :=
  match d with
  | .scalar k _ => .scalar k (BitVec.ofNat 64 (leVal r.1))
  | w => landValue w r.1 r.2 false

/-- The operand of a typed-buffer access is aligned, inside the buffer, and in the partition's own regions. -/
structure BufFits (f : MM) (j : Iss) : Prop where
  clean : Clean [f.so] j
  aligned : bufAt f j % sizeAlign f.sz = 0
  inside : bufAt f j + sizeBytes f.sz ≤ bufSize (f.cb / 4)
  owned : Owns j (f.cb / 4) (bufAt f j) (sizeBytes f.sz)

theorem checkBuf_allowed {j : Iss} {f : MM} {allowed : Bool} (h : BufFits f j) (ha : allowed = true) :
    j.checkBuf (f.cb / 4) (bufAt f j) (sizeBytes f.sz) (sizeAlign f.sz) f.sz allowed = .ok () := by
  rw [ha]; exact checkBuf_ok h.aligned h.inside h.owned

/-- LDB, once its destination is found and its operand has passed its checks. -/
theorem opLdb_checked {j j1 : Iss} {f : MM} {d : Land} (hd : j.loadDest f.sz f.ds = .ok (j1, d)) (hx : j1.ctx = j.ctx) (hb : BufFits f j1)
    (hcode : f.cb / 4 ≠ 0) :
    opLdb f j = if bufLate f j1 = true then stallNow
      else if (decide (f.cb / 4 = 2) && bufTiles f j1) = true then stallNow
      else .ok ((if ((bufSeen f j1).2 && decide (f.sz < 4)) = true then j1.consumes 0xFF .corrupt else j1).landsBuf (f.cb / 4) f.cl (bufAt f j1)
        (sizeBytes f.sz) (ldbValue d (bufSeen f j1))) := by
  have hc : sMarkOf j.ctx f.so = .clean := hx ▸ hb.clean f.so (by simp)
  have hat : bufferAddr j.ctx f.so f.imm (sizeUnit f.sz) = bufAt f j1 := by rw [bufAt, hx]
  simp only [opLdb, bufferOff_clean hc, hat, hd, checkBuf_allowed hb (decide_eq_true hcode), bind, Except.bind]
  rfl

theorem opLdb_waits {j j1 : Iss} {f : MM} {d : Land} (hd : j.loadDest f.sz f.ds = .ok (j1, d)) (hx : j1.ctx = j.ctx) (hb : BufFits f j1)
    (hcode : f.cb / 4 ≠ 0) (hw : bufLate f j1 = true ∨ f.cb / 4 = 2 ∧ bufTiles f j1 = true) : opLdb f j = stallNow := by
  rw [opLdb_checked hd hx hb hcode]
  split
  case isTrue => rfl
  case isFalse hl =>
    obtain ⟨hc, ht⟩ := hw.resolve_left hl
    exact if_pos (by rw [hc, ht]; rfl)

/-- Bytes without poison, or a row, which carries it (22 R386). -/
theorem opLdb_lands {j j1 : Iss} {f : MM} {d : Land} (hd : j.loadDest f.sz f.ds = .ok (j1, d)) (hx : j1.ctx = j.ctx) (hb : BufFits f j1)
    (hcode : f.cb / 4 ≠ 0) (hl : bufLate f j1 = false) (ht : f.cb / 4 = 2 → bufTiles f j1 = false) (hp : f.sz < 4 → (bufSeen f j1).2 = false) :
    opLdb f j = .ok (j1.landsBuf (f.cb / 4) f.cl (bufAt f j1) (sizeBytes f.sz) (ldbValue d (bufSeen f j1))) := by
  have htile : (decide (f.cb / 4 = 2) && bufTiles f j1) = false := by simpa using ht
  have hpoison : ((bufSeen f j1).2 && decide (f.sz < 4)) = false := by
    by_cases h4 : f.sz < 4
    · rw [hp h4]; rfl
    · rw [decide_eq_false h4, Bool.and_false]
  rw [opLdb_checked hd hx hb hcode, hl, htile, hpoison]
  rfl

/-! ## STB -/

theorem opStb_scalar {j : Iss} {f : MM} (hs : f.sz < 4) (hc : sMarkOf j.ctx (f.ds % 64) = .clean) (hb : BufFits f j) (hcode : f.cb / 4 = 1 ∨ f.cb / 4 = 3) :
    opStb f j = .ok (j.gate f.cl (.buf (f.cb / 4) (bufAt f j)) (leBytes (sizeBytes f.sz) (readS j.ctx (f.ds % 64)).toNat) false false) := by
  have hk := checkBuf_allowed (allowed := f.cb / 4 = 1 || f.cb / 4 = 3) hb (by simpa using hcode)
  unfold bufAt at *
  simp only [opStb, if_pos hs, s_clean hc, bufferOff_clean (hb.clean f.so (by simp)), hk, bind, Except.bind]

theorem opStb_row {j j1 : Iss} {f : MM} {rows : List Row} (hs : 4 ≤ f.sz) (hr : j.sources 64 16 [f.ds] [] = .ok (j1, rows)) (hb : BufFits f j1)
    (hcode : f.cb / 4 = 1 ∨ f.cb / 4 = 3) :
    opStb f j = .ok (j1.gate f.cl (.buf (f.cb / 4) (bufAt f j1)) (leBytes (sizeBytes f.sz) (rowBits rows 0).toNat) false ((rows.headD Row.zero).isBad)) := by
  have hk := checkBuf_allowed (allowed := f.cb / 4 = 1 || f.cb / 4 = 3) hb (by simpa using hcode)
  have hfirst : rowBits rows 0 = (rows.headD Row.zero).bits := by cases rows <;> rfl
  unfold bufAt at *
  simp only [opStb, if_neg (Nat.not_lt.mpr hs), hr, bufferOff_clean (hb.clean f.so (by simp)), hk, bind, Except.bind, hfirst]

/-! ## The gate (10 R214) -/

theorem gate_core (j : Iss) (cls : Nat) (tgt : Target) (data : List Byte) (tag bad : Bool) :
    (j.gate cls tgt data tag bad).core = { j.core with ms := j.core.ms.gate (Store.fresh j.st.cx cls tgt data tag bad) } :=
  coreOf_setCore (core_ne_init_of_gated (by simp [MemSide.gate]))

theorem gate_sound {j : Iss} (h : j.Sound) (cls : Nat) (tgt : Target) (data : List Byte) (tag bad : Bool) : (j.gate cls tgt data tag bad).Sound := h

/-- Settles O16: LDB by what holds it back, STB by its data; a gated store stands behind the others of its core. -/
theorem typedBufferAccess : Obligations.TypedBufferAccess := by
  unfold Obligations.TypedBufferAccess
  refine ⟨fun g f => ⟨fun hs => ?ldbScalar, fun hs => ?ldbRow, fun hs hcode => ?late, fun hs hcode => ?tiles, fun hs => ?stbScalar, fun hs => ?stbRow⟩,
    fun j cls tgt data tag bad => ⟨?gated, rfl, rfl, ?bufs⟩⟩
  case ldbScalar =>
    refine completes_of (op := opLdb f) (fun _ => rfl) ?_ fun s _ => landsBuf_sound (began_sound s _) ..
    rintro s ⟨⟨hc, ha, hn⟩, hcode, ho, hl, ht, hp⟩
    exact opLdb_lands (loadDest_scalar hs _ _) rfl ⟨hc, ha, hn, ho⟩ hcode hl ht fun _ => hp
  case ldbRow =>
    refine completesTo_of (op := opLdb f) (fun _ => rfl) ?_
    rintro s k ⟨j1, row, hclaim, ⟨hc, ha, hn⟩, hcode, ho, hl, ht, rfl⟩
    exact opLdb_lands (loadDest_row hs hclaim) (claim_ctx hclaim) ⟨hc, ha, hn, ho⟩ hcode hl ht fun h => absurd hs (Nat.not_le.mpr h)
  case late =>
    refine waits_of (op := opLdb f) (fun _ => rfl) ?_
    rintro s ⟨⟨hc, ha, hn⟩, ho, hl⟩
    exact opLdb_waits (loadDest_scalar hs _ _) rfl ⟨hc, ha, hn, ho⟩ hcode (.inl (Bool.eq_true_of_not_eq_false hl))
  case tiles =>
    refine waits_of (op := opLdb f) (fun _ => rfl) ?_
    rintro s ⟨⟨hc, ha, hn⟩, ho, ht⟩
    exact opLdb_waits (loadDest_scalar hs _ _) rfl ⟨hc, ha, hn, ho⟩ (by rw [hcode]; decide) (.inr ⟨hcode, ht⟩)
  case stbScalar =>
    refine completes_of (op := opStb f) (fun _ => rfl) ?_ fun s _ => gate_sound (began_sound s _) ..
    rintro s ⟨⟨hc, ha, hn⟩, hd, hcode, ho⟩
    exact opStb_scalar hs (hd _ (by simp)) ⟨hc, ha, hn, ho⟩ hcode
  case stbRow =>
    refine completesTo_of (op := opStb f) (fun _ => rfl) ?_
    rintro s k ⟨j1, rows, hr, ⟨hc, ha, hn⟩, hcode, ho, rfl⟩
    exact opStb_row hs hr ⟨hc, ha, hn, ho⟩ hcode
  case gated => rw [gate_core]; rfl
  case bufs => rw [gate_core]

end Sys2Proof.Machine
end

section
/-! PROOFS. Stores to global memory (O17, 11 R216 to R221, 10 R214): each reads its data and its address, finds its place, and gates. -/

namespace Sys2Proof.Machine

/-- Rows without C-poison are not consumed. -/
theorem consumeRows_clean {j : Iss} {sel : Nat} {rows : List Row} (h : (rows.headD Row.zero).isBad = false) : j.consumeRows [sel] rows = j := by
  cases rows with
  | nil => rfl
  | cons r rs =>
    have hr : r.isBad = false := h
    cases rs <;> simp [Iss.consumeRows, hr]

/-- Outside a world no overlay record is needed. -/
theorem storeTo_base {j : Iss} {ps : List (Nat × Nat × Nat)} (hp : ps ≠ []) (hw : j.ctx.world = 0) (ci off cls : Nat) (data : List Byte) (tag : Bool) :
    j.storeTo ci off cls (.mem ps) data tag = j.gate cls (.mem 0 ps) data tag false := by
  cases ps with
  | nil => exact absurd rfl hp
  | cons p ps => simp [Iss.storeTo, Iss.overlayRoom, hw]

/-- Settles O17: each store's operands in the order it reads them. -/
theorem storeIssue : Obligations.StoreIssue := by
  unfold Obligations.StoreIssue
  refine ⟨fun g f => ⟨completesTo_of (op := opSts f) (fun _ => rfl) ?sts, completesTo_of (op := opStv f) (fun _ => rfl) ?stv,
    completesTo_of (op := opStx f) (fun _ => rfl) ?stx⟩, fun j ci off cls data tag => ⟨fun _ _ => rfl, fun ps hp hw => storeTo_base hp hw ..⟩⟩
  case sts =>
    rintro s k ⟨hc, j1, p, hl, rfl⟩
    simp only [opSts, s_clean (hc (f.ds % 64) (by simp)), globalOff_clean (hc f.so (by simp)), hl, bind, Except.bind]
  case stv =>
    rintro s k ⟨j1, rows, hr, hb, hc, j2, p, hl, rfl⟩
    simp only [opStv, hr, consumeRows_clean hb, globalOff_clean (hc f.so (by simp)), hl, bind, Except.bind]
    cases rows <;> rfl
  case stx =>
    rintro s k ⟨hc, j1, p, hl, rfl⟩
    simp only [opStx, globalOff_clean (hc f.so (by simp)), hl, bind, Except.bind]

end Sys2Proof.Machine
end

section
/-! PROOFS. ATOM, ARREXP and ARRIVE (O18, 11 R225, R226, R233, R234): the one request that each sends, and what its way to the controller leaves. -/

namespace Sys2Proof.Machine

/-! ## An atomic on its way (10 R207, R212) -/

/-- An atomic request joins those of the core. -/
def Iss.withAtom (j : Iss) (m : AtomReq) : Iss := j.setCore { j.core with ms := { j.core.ms with atoms := j.core.ms.atoms ++ [m] } }
/-- What an instruction asks of its request: all but the number, the arrival and the slots that its way gives it. -/
def AtomReq.asked (m : AtomReq) : AtomReq := { m with seq := 0, reach := none, slot := none, fin := none }

/-- A group's request is on its way: of what was gathered the state alone is another, and of that the cores' records, of which the acting core has
one more atomic, with what was asked. -/
def Sends (j k : Iss) (m : AtomReq) : Prop :=
  ∃ (t : State) (m' : AtomReq), k = { j with st := t } ∧ CoresOnly j.st t ∧ m'.asked = m.asked ∧ k.core.ms.atoms = j.core.ms.atoms ++ [m']

theorem withAtom_sends {j : Iss} {t : State} {m m' : AtomReq} (ht : CoresOnly j.st t) (ha : (coreOf t j.st.core).ms.atoms = j.core.ms.atoms)
    (hm : m'.asked = m.asked) : Sends j (({ j with st := t } : Iss).withAtom m') m := by
  refine ⟨_, m', rfl, ht.trans (setCore_coresOnly _ _ _), hm, ?_⟩
  rw [← ha, ← ht.core]
  exact congrArg (fun c : Core => c.ms.atoms) (coreOf_setCore (core_ne_init_of_atoms (by simp)))

theorem sendAtom_sends (j : Iss) (m : AtomReq) : Sends j (j.sendAtom m) m := by
  have hseq : (coreOf (takeSeq j.st j.st.core).1 j.st.core).ms.atoms = j.core.ms.atoms := by rw [coreOf_takeSeq]; rfl
  cases hfar : farDie j.st.core m.pieces with
  | some e =>
    have hsend : j.sendAtom m = ({ j with st := (takeSeq j.st j.st.core).1 } : Iss).withAtom
        { m with seq := (takeSeq j.st j.st.core).2, reach := some (j.st.now + 48 * hops (dieOfCore j.st.core) e) } := by
      simp only [Iss.sendAtom, hfar]; rfl
    exact hsend ▸ withAtom_sends (takeSeq_coresOnly _ _) hseq rfl
  | none =>
    have hsend : j.sendAtom m = (j.bound m.pieces).withAtom
        { m with seq := (takeSeq j.st j.st.core).2, slot := some (j.boundSlot m.pieces), fin := some (j.boundSlot m.pieces + 152) } := by
      simp only [Iss.sendAtom, hfar]; rfl
    obtain ⟨b, hb⟩ := coreOf_bindSpan (takeSeq j.st j.st.core).1 j.st.core m.pieces
    exact hsend ▸ withAtom_sends ((takeSeq_coresOnly _ _).trans (bindSpan_coresOnly _ _ _)) (by rw [hb]; exact hseq) rfl

/-! ## ATOM (R225, R226) -/

/-- What an ATOM of the group j asks at the place it finds, j1 being the group then. -/
def atomAsked (f : MD) (j j1 : Iss) (ps : List (Nat × Nat × Nat)) : AtomReq :=
  { ctx := j1.st.cx, cls := f.cl, op := f.fn % 16, bytes := 2 ^ (2 + field f.fn 4 1), world := j1.ctx.world, pieces := ps,
    x := readS j.ctx (f.ds % 64), y := if f.fn % 16 = 9 then readS j.ctx (f.ds % 64 + 1) else 0#64, key := some j1.newKey.2, flush := j1.flush,
    ord := field f.fn 5 2, scope := field f.fn 7 3, seq := 0, reach := none, slot := none, fin := none }

theorem opAtom_found {j j1 : Iss} {f : MD} {p : Nat × Nat × Nat} {ps : List (Nat × Nat × Nat)}
    (hc : Clean (if f.fn % 16 = 9 then [f.ds % 64, f.ds % 64 + 1, f.so] else [f.ds % 64, f.so]) j)
    (hl : j.locate f.cb (globalAddr j.ctx f.so 0 1) (2 ^ (2 + field f.fn 4 1)) (2 ^ (2 + field f.fn 4 1)) rATOMIC (2 + field f.fn 4 1) true 0x1C (some 0x1C)
      = .ok (j1, .mem (p :: ps)))
    (hw : j1.waitsOrder f.cl (p :: ps) false (2 ≤ field f.fn 5 2) = false)
    (hr : j1.overlayRoom (readC j1.ctx f.cb) (globalAddr j.ctx f.so 0 1) (p :: ps) = j1) :
    ∃ lat, opAtom f j = .ok ((j1.newKey.1.sendAtom (atomAsked f j j1 (p :: ps))).await lat (.scalar (f.ds % 64) 0#64) j1.newKey.2
      (field f.fn 5 2 % 2 = 1 && 1 < field f.fn 7 3)) := by
  have hx : j.s (f.ds % 64) = (j, readS j.ctx (f.ds % 64)) := s_clean (hc _ (by split <;> simp))
  have ho : j.globalOff f.so 0 1 = (j, globalAddr j.ctx f.so 0 1) := globalOff_clean (hc _ (by split <;> simp)) ..
  have hy : (if f.fn % 16 = 9 then j.s (f.ds % 64 + 1) else (j, 0#64)) = (j, if f.fn % 16 = 9 then readS j.ctx (f.ds % 64 + 1) else 0#64) := by
    split
    case isTrue h9 => exact s_clean (hc _ (by rw [if_pos h9]; simp))
    case isFalse => rfl
  simp only [opAtom, hx, hy, ho, hl, hw, hr, bind, Except.bind, List.isEmpty_cons, Bool.false_eq_true, if_false]
  exact ⟨_, rfl⟩

/-! ## ARREXP and ARRIVE (R233, R234) -/

/-- The barrier's operand is found in memory (R234). -/
theorem barrier_mem {j j1 : Iss} {f : MQ} {rights : Nat} {write : Bool} {ps : List (Nat × Nat × Nat)} (hc : sMarkOf j.ctx f.sa = .clean)
    (hl : j.locate (field f.imm 22 4) (globalAddr j.ctx f.sa 0 1) 16 16 rights 0 write 0x1C none = .ok (j1, .mem ps)) :
    j.barrier f rights write = .ok (j1, globalAddr j.ctx f.sa 0 1, ps) := by
  simp only [Iss.barrier, globalOff_clean hc, hl, bind, Except.bind]

/-- What an update of a barrier by the group j asks at the place it finds, j1 being the group then. -/
def barrierAsked (f : MQ) (op ord : Nat) (j j1 : Iss) (ps : List (Nat × Nat × Nat)) : AtomReq :=
  { ctx := j1.st.cx, cls := 0, op := op, bytes := 16, world := j1.ctx.world, pieces := ps, x := readS j.ctx f.sb &&& 0xFFFFFFFF#64, y := 0#64,
    key := none, flush := 0, ord := ord, scope := field f.imm 19 3, seq := 0, reach := none, slot := none, fin := none }

theorem sendBarrier_found {j j1 : Iss} {f : MQ} {p : Nat × Nat × Nat} {ps : List (Nat × Nat × Nat)} (hc : Clean [f.sb, f.sa] j)
    (hl : j.locate (field f.imm 22 4) (globalAddr j.ctx f.sa 0 1) 16 16 rATOMIC 0 true 0x1C none = .ok (j1, .mem (p :: ps)))
    (hr : j1.overlayRoom (readC j1.ctx (field f.imm 22 4)) (globalAddr j.ctx f.sa 0 1) (p :: ps) = j1) (op ord : Nat) :
    j.sendBarrier f op ord = .ok (j1.sendAtom (barrierAsked f op ord j j1 (p :: ps))) := by
  simp only [Iss.sendBarrier, s_clean (hc f.sb (by simp)), barrier_mem (hc f.sa (by simp)) hl, hr, bind, Except.bind, List.isEmpty_cons, Bool.false_eq_true,
    if_false]
  rfl

/-! ## What is left of the group -/

theorem locate_sound {j k : Iss} {ci off n align rights sz rc : Nat} {write : Bool} {far : Option Nat} {p : Nat × Nat × Nat} {ps : List (Nat × Nat × Nat)}
    (h : j.locate ci off n align rights sz write rc far = .ok (k, .mem (p :: ps))) (hj : j.Sound) : k.Sound := by
  obtain ⟨t, rfl⟩ := locate_mem h; exact hj
theorem locate_pends {j k : Iss} {ci off n align rights sz rc : Nat} {write : Bool} {far : Option Nat} {p : Nat × Nat × Nat} {ps : List (Nat × Nat × Nat)}
    (h : j.locate ci off n align rights sz write rc far = .ok (k, .mem (p :: ps))) : k.pends = j.pends := by
  obtain ⟨t, rfl⟩ := locate_mem h; rfl
theorem newKey_sound {j : Iss} (h : j.Sound) : j.newKey.1.Sound := h
theorem await_sound {j : Iss} (h : j.Sound) (lat key : Nat) (dst : Land) (acq : Bool) : (j.await lat dst key acq).Sound := h

theorem Sends.sound {j k : Iss} {m : AtomReq} (h : Sends j k m) (hj : j.Sound) : k.Sound := by
  obtain ⟨t, m', rfl, -⟩ := h; exact hj
theorem Sends.pends {j k : Iss} {m : AtomReq} (h : Sends j k m) : k.pends = j.pends := by
  obtain ⟨t, m', rfl, -⟩ := h; rfl
theorem Sends.slot {j k : Iss} {m : AtomReq} (h : Sends j k m) : k.slot = j.slot := by
  obtain ⟨t, m', rfl, -⟩ := h; rfl
theorem Sends.clock {j k : Iss} {m : AtomReq} (h : Sends j k m) : k.clock = j.clock := by
  obtain ⟨t, m', rfl, ht, -⟩ := h; exact congrArg Ctx.clock ht.actCtx
theorem Sends.mem {j k : Iss} {m : AtomReq} (h : Sends j k m) : k.st.mem = j.st.mem := by
  obtain ⟨t, m', rfl, ht, -⟩ := h; exact ht.mem
theorem Sends.atoms {j k : Iss} {m : AtomReq} (h : Sends j k m) : ∃ m' : AtomReq, m'.asked = m.asked ∧ k.core.ms.atoms = j.core.ms.atoms ++ [m'] := by
  obtain ⟨t, m', -, -, hm, ha⟩ := h; exact ⟨m', hm, ha⟩

/-- Settles O18: the place is found, the one request is sent, and ATOM awaits its old value. -/
theorem atomicIssue : Obligations.AtomicIssue := by
  unfold Obligations.AtomicIssue
  refine ⟨fun g f j1 p ps => completesWith_of (op := opAtom f) (fun _ => rfl) ?atom, fun g f j1 p ps => ?barrier⟩
  case atom =>
    rintro s ⟨hc, hl, hw, hr⟩
    obtain ⟨lat, hop⟩ := opAtom_found hc hl hw hr
    have hsends := sendAtom_sends j1.newKey.1 (atomAsked f (began s (.atom g f)) j1 (p :: ps))
    obtain ⟨m, hm, hatoms⟩ := hsends.atoms
    have hpends : j1.newKey.1.pends = [] := locate_pends hl
    have hsound : j1.Sound := locate_sound hl (began_sound s _)
    refine ⟨_, hop, ⟨m, j1.newKey.2, j1.clock + lat, hatoms, congrArg AtomReq.ctx hm, congrArg AtomReq.cls hm, congrArg AtomReq.op hm,
      congrArg AtomReq.bytes hm, congrArg AtomReq.world hm, congrArg AtomReq.pieces hm, congrArg AtomReq.x hm, congrArg AtomReq.ord hm,
      congrArg AtomReq.scope hm, fun h9 => (congrArg AtomReq.y hm).trans (if_pos h9), congrArg AtomReq.key hm, ?_, hsends.mem⟩,
      await_sound (hsends.sound (newKey_sound hsound)) ..⟩
    simp only [Iss.await, hsends.pends, hpends, hsends.slot, hsends.clock, newKey_clock]
    rfl
  case barrier =>
    intro sends
    have hsent : ∀ i op ord, (∀ s, exec i s = .next (issueSyl i (fun j => j.sendBarrier f op ord) s)) → sends i op ord := by
      refine fun i op ord he => completesWith_of he ?_
      rintro s ⟨hc, hl, hr⟩
      have hsends := sendAtom_sends j1 (barrierAsked f op ord (began s i) j1 (p :: ps))
      obtain ⟨m, hm, hatoms⟩ := hsends.atoms
      exact ⟨_, sendBarrier_found hc hl hr op ord, ⟨m, hatoms, congrArg AtomReq.ctx hm, congrArg AtomReq.op hm, congrArg AtomReq.bytes hm,
        congrArg AtomReq.world hm, congrArg AtomReq.pieces hm, congrArg AtomReq.x hm, congrArg AtomReq.ord hm, congrArg AtomReq.scope hm,
        congrArg AtomReq.key hm, hsends.pends.trans (locate_pends hl), hsends.mem⟩, hsends.sound (locate_sound hl (began_sound s i))⟩
    exact ⟨hsent _ 16 0 fun _ => rfl, hsent _ 17 2 fun _ => rfl⟩

end Sys2Proof.Machine
end

section
/-! PROOFS. FENCE and ARRIVE.w (O19, 11 R227, R234): each waits on its own condition, and then acquires where its scope is wider than the core. -/

namespace Sys2Proof.Machine

/-- How far the phase that the context sees at a barrier lies past the one it asks for, modulo 2^32 (R234). -/
def phaseGap (f : MQ) (j j1 : Iss) (ps : List (Nat × Nat × Nat)) : Nat :=
  (leVal (((j1.peekMem ps).drop 8).take 4) + 4294967296 - (readS j.ctx f.sb).toNat % 4294967296) % 4294967296
/-- An acquire of a scope drops the lines of the core where the scope is wider than the core (R227). -/
def acquired (scope : Nat) (j : Iss) : Iss := if 1 < scope then j.atEnd (fun s => dropLines s s.core s.cx) else j

theorem acquired_sound {j : Iss} (scope : Nat) (h : j.Sound) : (acquired scope j).Sound := by
  unfold acquired; split <;> exact h

theorem opFence_eq (f : MQ) (j : Iss) :
    opFence f j = if fenceOpen j.st j.st.core j.st.cx (if f.imm % 65536 = 0 then 65535 else f.imm % 65536) j.seq0 = true then stallNow
      else .ok (acquired (field f.imm 16 3) j) := rfl
theorem opArriveWait_found {j j1 : Iss} {f : MQ} {p : Nat × Nat × Nat} {ps : List (Nat × Nat × Nat)} (hc : Clean [f.sb, f.sa] j)
    (hl : j.locate (field f.imm 22 4) (globalAddr j.ctx f.sa 0 1) 16 16 rLOAD 0 false 0x1C none = .ok (j1, .mem (p :: ps))) :
    opArriveWait f j = if 2147483648 ≤ phaseGap f j j1 (p :: ps) then stallNow else .ok (acquired (field f.imm 19 3) j1) := by
  unfold phaseGap acquired
  simp only [opArriveWait, s_clean (hc f.sb (by simp)), barrier_mem (hc f.sa (by simp)) hl, bind, Except.bind, List.isEmpty_cons, Bool.false_eq_true, if_false]

/-- Settles O19: FENCE by what is open, ARRIVE.w by its phase. -/
theorem fenceIssue : Obligations.FenceIssue := by
  unfold Obligations.FenceIssue
  refine fun g f => ⟨?passes, ?stands, fun j1 p ps => ⟨?passed, ?behind⟩⟩
  case passes =>
    exact completes_of (op := opFence f) (fun _ => rfl) (fun s ho => (opFence_eq f _).trans (if_neg (ne_true_of_eq_false ho)))
      fun s _ => acquired_sound _ (began_sound s _)
  case stands => exact waits_of (op := opFence f) (fun _ => rfl) fun s ho => (opFence_eq f _).trans (if_pos ho)
  case passed =>
    exact completes_of (op := opArriveWait f) (fun _ => rfl) (fun s ⟨⟨hc, hl⟩, hb, _⟩ => (opArriveWait_found hc hl).trans (if_neg hb))
      fun s ⟨_, _, hj⟩ => acquired_sound _ hj
  case behind => exact waits_of (op := opArriveWait f) (fun _ => rfl) fun s ⟨⟨hc, hl⟩, hb⟩ => (opArriveWait_found hc hl).trans (if_pos hb)

end Sys2Proof.Machine
end

section
/-! PROOFS. Stream ports and rings (O20, 11 R228 to R232, 10 R213): what stopping and arming a port do, and what a ring instruction does with the header it
finds. -/

namespace Sys2Proof.Machine

/-! ## Stream ports (R228 to R230) -/

theorem stopPort_idle {j : Iss} {n : Nat} (h : (portOf j.ctx n).armed = false) : j.stopPort n = .ok j := by
  simp only [Iss.stopPort, h, Bool.false_eq_true, if_false]
theorem stopPort_disarms {j : Iss} {n : Nat} (h : (portOf j.ctx n).armed = true) (hb : portBusy j.ctx n = false) :
    j.stopPort n = .ok (j.setCtx (setPort j.ctx n Port.init)) := by
  simp only [Iss.stopPort, h, hb, Bool.false_eq_true, if_true, if_false]
theorem stopPort_waits {j : Iss} {n : Nat} (h : (portOf j.ctx n).armed = true) (hb : portBusy j.ctx n = true) : j.stopPort n = stallNow := by
  simp only [Iss.stopPort, h, hb, if_true]

theorem ownRegion_ok {j : Iss} {code a n : Nat} (h : Owns j code a n) (info : Nat) : j.ownRegion code a n info = .ok () := by
  unfold Owns at h
  simp only [Iss.ownRegion, h, Iss.ownFrom]

/-- The parameter set of SPARM, its words, and the walk that they describe (R228). -/
def streamAt (f : MS) (j : Iss) : Nat := (readS j.ctx f.sa).toNat % 1048576
def streamWords (f : MS) (j : Iss) : List Nat := words8 (readBuf j.st j.st.core j.st.cx 3 (streamAt f j) 64).1
def streamCnts (w : List Nat) : List Nat := (List.range (field (w.headD 0) 21 3)).map (streamCnt w)
def streamStrs (w : List Nat) : List Int := (List.range (field (w.headD 0) 21 3)).map (streamStr w)
def streamLow (w : List Nat) : Int := walkLow (field (w.headD 0) 0 21) (streamCnts w) (streamStrs w)
def streamHigh (f : MS) (w : List Nat) : Int := walkHigh (field (w.headD 0) 0 21) (32 * 2 ^ field f.fn 2 2) (streamCnts w) (streamStrs w)
/-- The port that SPARM arms. -/
def armedPort (f : MS) (w : List Nat) (start : Nat) : Port :=
  { armed := true, write := f.fn % 2 = 1, swz := field f.fn 1 1 = 1, w := field f.fn 2 2, cls := field f.fn 4 4, buf := f.cb / 4,
    base := field (w.headD 0) 0 21, cnts := streamCnts w, strs := streamStrs w, pos := 0, fpos := 0, got := [], start := start }

/-- The parameter set is read without a trap or poison. -/
structure StreamRead (f : MS) (j : Iss) : Prop where
  idle : (portOf j.ctx f.gk).armed = false
  clean : Clean [f.sa] j
  aligned : streamAt f j % 64 = 0
  code : f.cb / 4 = 1 ∨ f.cb / 4 = 3
  owned : Owns j 3 (streamAt f j) 64
  sound : (readBuf j.st j.st.core j.st.cx 3 (streamAt f j) 64).2 = false
/-- The walk of a parameter set w is well-formed, and lies in the buffer and in the partition's own regions. -/
structure WalkFits (f : MS) (w : List Nat) (j : Iss) : Prop where
  good : streamBad w = false
  base : field (w.headD 0) 0 21 % 32 = 0
  strides : ∀ t ∈ streamStrs w, t % 32 = 0
  low : 0 ≤ streamLow w
  high : streamHigh f w < (bufSize (f.cb / 4) : Int)
  owned : Owns j (f.cb / 4) (streamLow w).toNat (streamHigh f w - streamLow w + 1).toNat

theorem opSparm_arms {j : Iss} {f : MS} (hr : StreamRead f j) (hw : WalkFits f (streamWords f j) j) :
    opSparm f j = .ok (j.setCtx (setPort j.ctx f.gk (armedPort f (streamWords f j) (j.st.now + 4)))) := by
  obtain ⟨hidle, hc, ha, hcode, ho, hs⟩ := hr
  obtain ⟨hgood, hbase, hstr, hlow, hhigh, hown⟩ := hw
  have hcode' : (!(decide (f.cb / 4 = 1) || decide (f.cb / 4 = 3))) = false := by rcases hcode with h | h <;> rw [h] <;> rfl
  have hstr' : ((List.range (field ((streamWords f j).headD 0) 21 3)).map (streamStr (streamWords f j))).any (fun t => t % 32 ≠ 0) = false := by
    rw [List.any_eq_false]
    intro t ht
    simp [hstr t ht]
  simp only [streamLow, streamHigh, streamCnts, streamStrs] at hlow hhigh hown
  simp only [streamWords, streamAt] at *
  simp only [opSparm, stopPort_idle hidle, s_clean (hc f.sa (by simp)), ha, hcode', ownRegion_ok ho, hs, hgood, hbase, hstr', Int.not_lt.mpr hlow,
    Int.not_le.mpr hhigh, ownRegion_ok hown, bind, Except.bind, ne_eq, not_true_eq_false, decide_false, Bool.or_self, Bool.false_eq_true, if_false]
  rfl

/-! ## Rings (R231, R232) -/

/-- Where the header of a ring instruction lies, the header as its context sees it, and how many slots the instruction asks for. -/
def ringAt (f : MQ) (j : Iss) : Nat := (readS j.ctx f.sa).toNat % 1048576
def ringHdr (f : MQ) (j : Iss) : RingHdr := hdrOf (readBuf j.st j.st.core j.st.cx (field f.imm 24 2) (ringAt f j) 64).1
def ringAsks (f : MQ) : Nat := f.imm % 4096 + 1
/-- The header is read without a trap, and the ring has as many slots as are asked for. -/
def RingFound (f : MQ) (j : Iss) : Prop :=
  Clean [f.sa] j ∧ ringAt f j % 64 = 0 ∧ ringAt f j + 64 ≤ bufSize (field f.imm 24 2) ∧ (field f.imm 24 2 = 1 ∨ field f.imm 24 2 = 3)
  ∧ Owns j (field f.imm 24 2) (ringAt f j) 64 ∧ ringAsks f ≤ (ringHdr f j).slots
/-- The header of the ring moves as the group ends: HEAD by dh, TAIL by dt and FREE by df (R213). -/
def ringMoves (f : MQ) (j : Iss) (dh dt : Nat) (df : Int) (s : State) : State :=
  stirRing (moveRing s s.core (.store s.cx) (field f.imm 24 2) (ringAt f j) dh dt df) s.core (field f.imm 24 2) (ringAt f j)

theorem ring_found {f : MQ} {j : Iss} (h : RingFound f j) : j.ring f = .ok (j, field f.imm 24 2, ringAt f j, ringHdr f j, ringAsks f) := by
  obtain ⟨hc, ha, hin, hcode, ho, hn⟩ := h
  have hallowed : (decide (field f.imm 24 2 = 1) || decide (field f.imm 24 2 = 3)) = true := by simpa using hcode
  have hk : j.checkBuf (field f.imm 24 2) (ringAt f j) 64 64 0 true = .ok () := checkBuf_ok ha hin ho
  simp only [ringHdr, ringAsks, ringAt] at hn hk ⊢
  simp only [Iss.ring, s_clean (hc f.sa (by simp)), hallowed, hk, bind, Except.bind, if_neg (Nat.not_lt.mpr hn)]

section
variable {f : MQ} {j : Iss} (h : RingFound f j)
include h

theorem opRngwait_found : opRngwait f j = if (ringHdr f j).ready < ringAsks f then Iss.ringStall
    else .ok (j.writeS 1 f.sb (BitVec.ofNat 64 ((ringHdr f j).slotAt (ringHdr f j).tail))) := by
  simp only [opRngwait, ring_found h, bind, Except.bind]
theorem opRngwaitProd_found : opRngwaitProd f j = if (ringHdr f j).free < ringAsks f then Iss.ringStall
    else .ok (j.writeS 1 f.sb (BitVec.ofNat 64 ((ringHdr f j).slotAt (ringHdr f j).head))) := by
  simp only [opRngwaitProd, ring_found h, bind, Except.bind]
theorem opRngadv_found (hread : bufReadOpen j.ctx (field f.imm 24 2) = false)
    (hstore : hdrStoreOpen j.st j.st.core j.st.cx (field f.imm 24 2) (ringAt f j) = false) :
    opRngadv f j = if (ringHdr f j).ready < ringAsks f then trapNow 0x06 0 else .ok (j.atEnd (ringMoves f j 0 (ringAsks f) (ringAsks f))) := by
  simp only [opRngadv, ring_found h, hread, hstore, bind, Except.bind, Bool.or_self, Bool.false_eq_true, if_false]
  rfl
theorem opRngpub_found (hw : writesPending j.st j.st.core j.st.cx = false) :
    opRngpub f j = if (ringHdr f j).free < ringAsks f then trapNow 0x07 0 else .ok (j.atEnd (ringMoves f j (ringAsks f) 0 (-(ringAsks f : Int)))) := by
  simp only [opRngpub, ring_found h, hw, bind, Except.bind, Bool.false_eq_true, if_false]
  rfl

end

theorem atEnd_sound {j : Iss} {act : State → State} (h : j.Sound) : (j.atEnd act).Sound := h

/-- Settles O20: ports by whether they are armed, rings by the slots that their header counts. -/
theorem streamsAndRings : Obligations.StreamsAndRings := by
  unfold Obligations.StreamsAndRings
  refine ⟨fun g f => ⟨?sparm, ?disarms, ?idle, ?busy⟩, fun g f => ⟨?waited, ?waits, ?waitedProd, ?waitsProd, ?advances, ?noneReady, ?publishes,
    ?noneFree⟩⟩
  case sparm =>
    refine completes_of (op := opSparm f) (fun _ => rfl) ?_ fun s _ => setCtx_sound (began_sound s _)
    rintro s ⟨hidle, hc, ha, hcode, hset, hpoison, hgood, hbase, hstr, hlow, hhigh, hown⟩
    exact opSparm_arms ⟨hidle, hc, ha, hcode, hset, hpoison⟩ ⟨hgood, hbase, hstr, hlow, hhigh, hown⟩
  case disarms =>
    exact completes_of (op := opSpstop f) (fun _ => rfl) (fun s ⟨h, hb⟩ => stopPort_disarms h hb) fun s _ => setCtx_sound (began_sound s _)
  case idle => exact completes_of (op := opSpstop f) (fun _ => rfl) (fun s h => stopPort_idle h) fun s _ => began_sound s _
  case busy => exact waits_of (op := opSpstop f) (fun _ => rfl) fun s ⟨h, hb⟩ => stopPort_waits h hb
  case waited =>
    exact completes_of (op := opRngwait f) (fun _ => rfl) (fun s ⟨h, hn⟩ => (opRngwait_found h).trans (if_neg (Nat.not_lt.mpr hn)))
      fun s _ => add_sound (began_sound s _)
  case waits => exact waits_of (op := opRngwait f) (fun _ => rfl) fun s ⟨h, hn⟩ => (opRngwait_found h).trans (if_pos hn)
  case waitedProd =>
    exact completes_of (op := opRngwaitProd f) (fun _ => rfl) (fun s ⟨h, hn⟩ => (opRngwaitProd_found h).trans (if_neg (Nat.not_lt.mpr hn)))
      fun s _ => add_sound (began_sound s _)
  case waitsProd => exact waits_of (op := opRngwaitProd f) (fun _ => rfl) fun s ⟨h, hn⟩ => (opRngwaitProd_found h).trans (if_pos hn)
  case advances =>
    exact completes_of (op := opRngadv f) (fun _ => rfl)
      (fun s ⟨h, hread, hstore, hn⟩ => (opRngadv_found h hread hstore).trans (if_neg (Nat.not_lt.mpr hn))) fun s _ => atEnd_sound (began_sound s _)
  case noneReady =>
    exact traps_of (op := opRngadv f) (fun _ => rfl) fun s ⟨h, hread, hstore, hn⟩ => (opRngadv_found h hread hstore).trans (if_pos hn)
  case publishes =>
    exact completes_of (op := opRngpub f) (fun _ => rfl) (fun s ⟨h, hw, hn⟩ => (opRngpub_found h hw).trans (if_neg (Nat.not_lt.mpr hn)))
      fun s _ => atEnd_sound (began_sound s _)
  case noneFree => exact traps_of (op := opRngpub f) (fun _ => rfl) fun s ⟨h, hw, hn⟩ => (opRngpub_found h hw).trans (if_pos hn)

end Sys2Proof.Machine
end

section
/-! PROOFS. FSCQ (O22, 12 R253): the peer that each form names, and the count on each side of the one that a WAIT form asks for. -/

namespace Sys2Proof.Machine

/-- The peer that the register names, and the one that the WAIT form names by its bit 6. -/
def fscqReg (f : MQ) (j : Iss) : Nat := (readS j.ctx f.sa).toNat % 64
def fscqNamed (f : MQ) (j : Iss) : Nat := if field f.imm 6 1 = 1 then fscqReg f j else f.imm % 64

theorem opFscqReg_clean {f : MQ} {j : Iss} (hc : Clean [f.sa] j) :
    opFscqReg f j = if field f.imm 7 1 = 1 ∧ fscOf j.ctx (fscqReg f j) < field f.imm 8 8 then stallNow else .ok (j.slotCount f (fscqReg f j)) := by
  simp only [opFscqReg, s_clean (hc f.sa List.mem_cons_self), Bool.and_eq_true, decide_eq_true_eq]
  rfl

theorem opFscqWait_clean {f : MQ} {j : Iss} (hc : field f.imm 6 1 = 1 → Clean [f.sa] j) :
    opFscqWait f j = if fscOf j.ctx (fscqNamed f j) < field f.imm 8 8 then stallNow else .ok (j.slotCount f (fscqNamed f j)) := by
  by_cases hreg : field f.imm 6 1 = 1
  · have hnamed : fscqNamed f j = fscqReg f j := if_pos hreg
    simp only [opFscqWait, if_pos hreg, s_clean (hc hreg f.sa List.mem_cons_self), hnamed]
    rfl
  · have himm : (BitVec.ofNat 64 f.imm).toNat % 64 = fscqNamed f j := by
      rw [fscqNamed, if_neg hreg, BitVec.toNat_ofNat]
      exact Nat.mod_mod_of_dvd _ (by decide)
    simp only [opFscqWait, if_neg hreg, himm]

theorem slotCount_sound {j : Iss} (h : j.Sound) (f : MQ) (peer : Nat) : (j.slotCount f peer).Sound := h

/-- Settles O22: each form by the count of the peer it names. -/
theorem slotCounts : Obligations.SlotCounts := by
  unfold Obligations.SlotCounts
  refine fun g f => ⟨?imm, ?enough, ?short, ?regEnough, ?regShort⟩
  case imm => exact completes_of (op := opFscq f) (fun _ => rfl) (fun _ _ => rfl) fun s _ => slotCount_sound (began_sound s _) f _
  case enough =>
    exact completes_of (op := opFscqWait f) (fun _ => rfl) (fun s ⟨hc, hn⟩ => (opFscqWait_clean hc).trans (if_neg (Nat.not_lt.mpr hn)))
      fun s _ => slotCount_sound (began_sound s _) f _
  case short => exact waits_of (op := opFscqWait f) (fun _ => rfl) fun s ⟨hc, hn⟩ => (opFscqWait_clean hc).trans (if_pos hn)
  case regEnough =>
    exact completes_of (op := opFscqReg f) (fun _ => rfl)
      (fun s ⟨hc, hn⟩ => (opFscqReg_clean hc).trans (if_neg fun ⟨hw, hlt⟩ => absurd (hn hw) (Nat.not_le.mpr hlt)))
      fun s _ => slotCount_sound (began_sound s _) f _
  case regShort => exact waits_of (op := opFscqReg f) (fun _ => rfl) fun s ⟨hc, hn⟩ => (opFscqReg_clean hc).trans (if_pos hn)

end Sys2Proof.Machine
end

section
/-! PROOFS. Requests to other modules (O21, 12 R248, 25 R434, R436): the tag that a request takes and the reply that its context awaits, or the cause that
an unreachable peer leaves. -/

namespace Sys2Proof.Machine

/-! ## The fabric unit of a die -/

theorem fabOf_setFab {s : State} {d : Nat} {f : Fabric} (h : f ≠ Fabric.init) : fabOf (setFab s d f) d = f :=
  congrArg Die.fab (dieOf_setDie fun he => h (congrArg Die.fab he))
/-- A fabric unit with a tag in use is not that of reset. -/
theorem fab_ne_init_of_busy {f : Fabric} {ix : Nat} (h : (tagAt' f ix).busy = true) : f ≠ Fabric.init := fun he => by
  rw [he] at h; cases h

/-! ## Taking a tag (25 R434) -/

/-- A busy tag is read back as stored. -/
theorem tagAt'_setTag {s : State} {d ix : Nat} {t : ReqTag} (h : t.busy = true) : tagAt' (fabOf (setTag s d ix t) d) ix = t := by
  have ht : tagAt' { fabOf s d with tags := mapSet (fabOf s d).tags ReqTag.init ix t } ix = t :=
    mapGet_mapSet_same _ _ fun he => by rw [he] at h; cases h
  rw [setTag, fabOf_setFab (fab_ne_init_of_busy ((congrArg ReqTag.busy ht).trans h)), ht]

/-- What is queued in the fabric unit leaves a busy tag. -/
theorem tagAt'_setFab {s : State} {d ix : Nat} {f : Fabric} (hf : f.tags = (fabOf s d).tags) (hb : (tagAt' (fabOf s d) ix).busy = true) :
    tagAt' (fabOf (setFab s d f) d) ix = tagAt' (fabOf s d) ix := by
  have ht : tagAt' f ix = tagAt' (fabOf s d) ix := by rw [tagAt', tagAt', hf]
  rw [fabOf_setFab (fab_ne_init_of_busy ((congrArg ReqTag.busy ht).trans hb)), ht]

/-- A tag once a request has taken it. -/
def ReqTag.taken (t : ReqTag) (peer k x kind cls span seq mask : Nat) (eng : Option Nat) : ReqTag :=
  { t with inc := (nextInc t).getD 0, busy := true, peer := peer, core := k, ctx := x, kind := kind, cls := cls, span := span, seq := seq, mask := mask
           eng := eng, sent := none }

theorem tagAt'_takeTag (s : State) (w k x ix peer vc kind cls span seq mask : Nat) (eng : Option Nat) (aux : Nat) (bs : List Byte) :
    tagAt' (fabOf (takeTag s w k x ix peer vc kind cls span seq mask eng aux bs).1 (dieOfCore k)) ix =
      (tagAt' (fabOf s (dieOfCore k)) ix).taken peer k x kind cls span seq mask eng := by
  have ht := tagAt'_setTag (s := s) (d := dieOfCore k) (ix := ix)
    (t := (tagAt' (fabOf s (dieOfCore k)) ix).taken peer k x kind cls span seq mask eng) rfl
  refine (tagAt'_setFab ?queued ?busy).trans ht
  case queued => rfl
  case busy => exact congrArg ReqTag.busy ht

/-! ## A request of a group (R248) -/

theorem ctx_ne_init_of_reqs {c : Ctx} (h : c.reqs ≠ []) : c ≠ Ctx.init := fun he => h (he ▸ rfl)

theorem sendReq_down {j : Iss} {peer : Nat} (h : peerDown j.st j.die peer = true) (kind cls n span mask info : Nat) (bs : List Byte) (dst : Land)
    (push acq : Bool) : j.sendReq peer kind cls n span mask info bs dst push acq =
      .ok (j.atEnd (fun s => setAct s (raiseA (actCtx s) 0x2E (peer + 64 * kind))), none) := if_pos h

/-- The slots that a request of the group spends, and its number. -/
def Iss.spends (j : Iss) (peer n : Nat) : State × Nat := takeSeq (spendSlots j.st j.st.core j.st.cx peer n) j.st.core
/-- Its tag, with its flits queued. -/
def Iss.tagged (j : Iss) (ix peer kind cls n span mask : Nat) (bs : List Byte) : State × Nat :=
  takeTag (j.spends peer n).1 (groupAsks j.st.core j.st.cx) j.st.core j.st.cx ix peer 0 kind cls span (j.spends peer n).2 mask none 0 bs
/-- In the state t that the group leaves, its context awaits one more reply. -/
def Iss.awaitsReply (j : Iss) (t : State) (r : FarReq) : Iss :=
  { j with st := Sys2Proof.Machine.setCtx t j.st.core j.st.cx { ctxOf t j.st.core j.st.cx with reqs := (ctxOf t j.st.core j.st.cx).reqs ++ [r] } }

theorem takeTag_core (s : State) (w k x ix peer vc kind cls span seq mask : Nat) (eng : Option Nat) (aux : Nat) (bs : List Byte) :
    (takeTag s w k x ix peer vc kind cls span seq mask eng aux bs).1.core = s.core := rfl
theorem takeTag_cx (s : State) (w k x ix peer vc kind cls span seq mask : Nat) (eng : Option Nat) (aux : Nat) (bs : List Byte) :
    (takeTag s w k x ix peer vc kind cls span seq mask eng aux bs).1.cx = s.cx := rfl
theorem tagged_core (j : Iss) (ix peer kind cls n span mask : Nat) (bs : List Byte) : (j.tagged ix peer kind cls n span mask bs).1.core = j.st.core :=
  takeTag_core ..
theorem tagged_cx (j : Iss) (ix peer kind cls n span mask : Nat) (bs : List Byte) : (j.tagged ix peer kind cls n span mask bs).1.cx = j.st.cx :=
  takeTag_cx ..

theorem tagAt'_tagged (j : Iss) (ix peer kind cls n span mask : Nat) (bs : List Byte) :
    tagAt' (fabOf (j.tagged ix peer kind cls n span mask bs).1 j.die) ix =
      (tagAt' (fabOf (j.spends peer n).1 j.die) ix).taken peer j.st.core j.st.cx kind cls span (j.spends peer n).2 mask none := tagAt'_takeTag ..

theorem awaitsReply_reqs {j : Iss} {t : State} {r : FarReq} (hk : t.core = j.st.core) (hx : t.cx = j.st.cx) : r ∈ (j.awaitsReply t r).ctx.reqs := by
  simp only [Iss.ctx, actCtx, Iss.awaitsReply, setCtx_core, setCtx_cx, hk, hx]
  rw [ctxOf_setCtx (ctx_ne_init_of_reqs (by simp))]
  exact List.mem_append_right _ List.mem_cons_self
theorem awaitsReply_fab {j : Iss} {t : State} {r : FarReq} (hk : t.core = j.st.core) : fabOf (j.awaitsReply t r).st (j.awaitsReply t r).die = fabOf t j.die := by
  rw [Iss.die, Iss.die, ← hk]; rfl

/-- With slots and a tag at hand, the request has its tag, and its context awaits the reply. -/
theorem sendReq_sends {j j1 : Iss} {peer n ix : Nat} (hd : peerDown j.st j.die peer = false) (hn : j.needSlots peer n = .ok j1)
    (ht : tagFor (fabOf j1.st j1.die) (groupAsks j1.st.core j1.st.cx) = some ix) (kind cls span mask info : Nat) (bs : List Byte) (dst : Land)
    (push acq : Bool) : j.sendReq peer kind cls n span mask info bs dst push acq =
      .ok (j1.awaitsReply (j1.tagged ix peer kind cls n span mask bs).1
        ⟨(j1.tagged ix peer kind cls n span mask bs).2, (j1.spends peer n).2, peer, kind, cls, dst, push, acq, info⟩,
        some (j1.tagged ix peer kind cls n span mask bs).2) := by
  simp only [Iss.sendReq, hd, hn, ht, bind, Except.bind, Bool.false_eq_true, if_false]
  rfl

end Sys2Proof.Machine
end

section
/-! PROOFS. The remote memory operations (O21, 12 R248 to R252): what each does with its operand found, at its own module and at a peer. -/

namespace Sys2Proof.Machine

/-! ## Accesses of the own module (R248) -/

theorem loadFar_sound {j : Iss} (h : j.Sound) (cls d : Nat) (ps : List (Nat × Nat × Nat)) (dst : Land) : (j.loadFar cls d ps dst).Sound := by
  unfold Iss.loadFar
  split
  · exact h
  · dsimp only
    split <;> exact h

/-- A row that is pushed when the own module answers is awaited under the request's key. -/
theorem ownReply_reqs (j : Iss) (key kind cls : Nat) (dst : Land) (acq : Bool) :
    ∃ r, r ∈ (j.ownReply key kind cls dst acq).ctx.reqs ∧ r.tag = key ∧ r.peer = Config.moduleNumber ∧ r.dst = dst ∧ r.push = true ∧ r.acq = acq :=
  ⟨⟨key, j.core.ms.seq - 1, Config.moduleNumber, kind, cls, dst, true, acq, 0⟩, awaitsReply_reqs (t := j.st) rfl rfl, rfl, rfl, rfl, rfl, rfl⟩

theorem ownReply_core (j : Iss) (key kind cls : Nat) (dst : Land) (acq : Bool) : (j.ownReply key kind cls dst acq).core = j.core := rfl
theorem ownReply_pends (j : Iss) (key kind cls : Nat) (dst : Land) (acq : Bool) : (j.ownReply key kind cls dst acq).pends = j.pends := rfl
theorem ownReply_mem (j : Iss) (key kind cls : Nat) (dst : Land) (acq : Bool) : (j.ownReply key kind cls dst acq).st.mem = j.st.mem := rfl
theorem ownReply_sound {j : Iss} (h : j.Sound) (key kind cls : Nat) (dst : Land) (acq : Bool) : (j.ownReply key kind cls dst acq).Sound := h

/-! ## LDR and LDRW (R249) -/

/-- The operand of an LDR, LDRW or STR is found: its place is at offset `off` of its object at module `home`. -/
def FoundAt (f : MD) (rights : Nat) (j0 j1 : Iss) (home off : Nat) : Prop :=
  j0.remoteAt f.cb f.so (sizeBytes (field f.fn 12 3)) (sizeAlign (field f.fn 12 3)) rights (field f.fn 12 3) = .ok (j1, home, off)
/-- Its place in the own module is found. -/
def PlacedAt (f : MD) (write : Bool) (j1 j2 : Iss) (off : Nat) (ps : List (Nat × Nat × Nat)) : Prop :=
  j1.ownPlace f.cb off (sizeBytes (field f.fn 12 3)) (field f.fn 12 3) write = .ok (j2, ps)
/-- The request of a read at a peer. -/
def Iss.asksRead (j : Iss) (f : MD) (home off : Nat) (dst : Land) (push : Bool) : Except Halt (Iss × Option Nat) :=
  j.sendReq home 0 f.cl 1 (spanOfBytes (readC j.ctx f.cb).obj off (sizeBytes (field f.fn 12 3))) 0 (memInfo off f.cb (field f.fn 12 3))
    (addrWord (readC j.ctx f.cb).index off (field f.fn 12 3)) dst push false
/-- The key of the core's newest load. -/
def Iss.loadKey (j : Iss) : Nat := ((j.core.ms.loads.getLast?).map (·.key)).getD 0
/-- Its newest load reads committed memory in world w. -/
def Iss.readsBase (j : Iss) (w : Nat) : Iss := { j with st := baseLoads j.st j.st.core j.loadKey w }

section
variable {f : MD} {j j0 j1 j2 : Iss} {home off : Nat}

theorem opLdr_own {d : Land} {ps : List (Nat × Nat × Nat)} (hd : j.loadDest (field f.fn 12 3) f.ds = .ok (j0, d))
    (ha : FoundAt f rLOAD j0 j1 Config.moduleNumber off) (hp : PlacedAt f false j1 j2 off ps) :
    opLdr f j = .ok ((j2.loadFar f.cl (8 * (f.fn % 4096)) ps d).readsBase j1.ctx.world) := by
  unfold FoundAt PlacedAt at *
  simp only [opLdr, hd, ha, hp, bind, Except.bind, if_true]
  rfl

theorem opLdr_asks {d : Land} {tag : Option Nat} (hd : j.loadDest (field f.fn 12 3) f.ds = .ok (j0, d)) (ha : FoundAt f rLOAD j0 j1 home off)
    (hh : home ≠ Config.moduleNumber) (hs : j1.asksRead f home off d false = .ok (j2, tag)) :
    opLdr f j = .ok (match tag with
      | some tag => j2.await (8 * (f.fn % 4096)) d tag false
      | none => j2.add (8 * (f.fn % 4096)) (spoiled d) none 0) := by
  unfold FoundAt Iss.asksRead at *
  simp only [opLdr, hd, ha, hs, if_neg hh, bind, Except.bind]
  cases tag <;> rfl

theorem opLdrw_own {row : Nat} {p : Nat × Nat × Nat} {ps : List (Nat × Nat × Nat)} (hq : j.claimReply (f.ds % 64) = .ok (j0, row))
    (ha : FoundAt f rLOAD j0 j1 Config.moduleNumber off) (hp : PlacedAt f false j1 j2 off (p :: ps)) :
    opLdrw f j = .ok (Iss.ownReply { (j2.loadFar f.cl 0 (p :: ps) (.row (f.ds % 64) row Row.zero)).readsBase j1.ctx.world with pends := j2.pends }
      (j2.loadFar f.cl 0 (p :: ps) (.row (f.ds % 64) row Row.zero)).loadKey 0 f.cl (.row (f.ds % 64) row Row.zero) false) := by
  unfold FoundAt PlacedAt at *
  simp only [opLdrw, hq, ha, hp, bind, Except.bind, if_true, List.isEmpty_cons, Bool.false_eq_true, if_false]
  rfl

theorem opLdrw_asks {row : Nat} {tag : Option Nat} (hq : j.claimReply (f.ds % 64) = .ok (j0, row)) (ha : FoundAt f rLOAD j0 j1 home off)
    (hh : home ≠ Config.moduleNumber) (hs : j1.asksRead f home off (.row (f.ds % 64) row Row.zero) true = .ok (j2, tag)) :
    opLdrw f j = .ok (match tag with
      | some _ => j2
      | none => j2.atEnd (fun s => pushRow s s.core s.cx (f.ds % 64) row ⟨0#1024, .corrupt⟩)) := by
  unfold FoundAt Iss.asksRead at *
  simp only [opLdrw, hq, ha, hs, if_neg hh, bind, Except.bind]
  cases tag <;> rfl

theorem readsBase_sound (h : j.Sound) (w : Nat) (ps : List (Nat × Pend)) : ({ j.readsBase w with pends := ps } : Iss).Sound := h

/-! ## STR (R250) -/

/-- The data of an STR, and the group that has read it. -/
def strData (f : MD) (j : Iss) : Except Halt (Iss × List Byte) :=
  if field f.fn 12 3 < 4 then .ok ((j.s (f.ds % 64)).1, leBytes (sizeBytes (field f.fn 12 3)) (j.s (f.ds % 64)).2.toNat)
  else (j.sources 64 16 [f.ds] []).bind (fun v =>
    .ok (v.1.consumeRows [f.ds] v.2, leBytes (sizeBytes (field f.fn 12 3)) (v.2.headD Row.zero).bits.toNat))

theorem strData_scalar (hs : field f.fn 12 3 < 4) (hc : Clean [f.ds % 64] j) :
    strData f j = .ok (j, leBytes (sizeBytes (field f.fn 12 3)) (readS j.ctx (f.ds % 64)).toNat) := by
  rw [strData, if_pos hs, s_clean (hc _ List.mem_cons_self)]
theorem strData_row {rows : List Row} (hs : 4 ≤ field f.fn 12 3) (hr : j.sources 64 16 [f.ds] [] = .ok (j0, rows))
    (hb : (rows.headD Row.zero).isBad = false) : strData f j = .ok (j0, leBytes (sizeBytes (field f.fn 12 3)) (rowBits rows 0).toNat) := by
  have hfirst : rowBits rows 0 = (rows.headD Row.zero).bits := by cases rows <;> rfl
  rw [strData, if_neg (Nat.not_lt.mpr hs), hr, hfirst]
  simp only [Except.bind, consumeRows_clean hb]

/-- The deferred store of a world (17 R340). -/
def strEffect (f : MD) (j1 : Iss) (home off : Nat) (data : List Byte) : Effect :=
  ⟨2, j1.st.core, j1.st.cx, f.cl, home, (readC j1.ctx f.cb).index, off, field f.fn 12 3, 0, [], data, 0⟩

section
variable {data : List Byte} (hv : strData f j = .ok (j0, data))
include hv

theorem opStr_defers (ha : FoundAt f rSTORE j0 j1 home off) (hw : j1.ctx.world ≠ 0) (hr : 1 ≤ effectRoom j1.st j1.ctx.world) :
    opStr f j = .ok (j1.atEnd (fun s => addEffects s j1.ctx.world [strEffect f j1 home off data])) := by
  unfold FoundAt at ha
  show (strData f j).bind _ = _
  simp only [hv, ha, hw, Iss.needEffects, if_pos hr, bind, Except.bind, ne_eq, not_false_eq_true, if_true]
  rfl

theorem opStr_own {p : Nat × Nat × Nat} {ps : List (Nat × Nat × Nat)} (ha : FoundAt f rSTORE j0 j1 Config.moduleNumber off) (hw : j1.ctx.world = 0)
    (hp : PlacedAt f true j1 j2 off (p :: ps)) : opStr f j = .ok (j2.gate f.cl (.mem 0 (p :: ps)) data false false) := by
  unfold FoundAt PlacedAt at *
  show (strData f j).bind _ = _
  simp only [hv, ha, hw, hp, bind, Except.bind, ne_eq, not_true_eq_false, if_false, if_true, List.isEmpty_cons, Bool.false_eq_true]

theorem opStr_asks {tag : Option Nat} (ha : FoundAt f rSTORE j0 j1 home off) (hh : home ≠ Config.moduleNumber) (hw : j1.ctx.world = 0)
    (hs : j1.sendReq home 2 f.cl (if sizeBytes (field f.fn 12 3) = 128 then 2 else 1)
      (spanOfBytes (readC j1.ctx f.cb).obj off (sizeBytes (field f.fn 12 3))) 0 (memInfo off f.cb (field f.fn 12 3))
      (addrWord (readC j1.ctx f.cb).index off (field f.fn 12 3) ++ data) (.none Row.zero) false false = .ok (j2, tag)) : opStr f j = .ok j2 := by
  unfold FoundAt at ha
  show (strData f j).bind _ = _
  simp only [hv, ha, hw, hs, if_neg hh, bind, Except.bind, ne_eq, not_true_eq_false, if_false]

end

end

end Sys2Proof.Machine
end

section
/-! PROOFS. ATOMR and FENCEF (O21, 12 R251, R252), and what O21 states of all remote operations. -/

namespace Sys2Proof.Machine

/-! ## ATOMR (R251) -/

/-- The operands of an ATOMR, its size code, and whether its reply acquires. -/
def atomrX (f : MD) (j : Iss) : BitVec 64 := readS j.ctx (field f.fn 10 6)
def atomrY (f : MD) (j : Iss) : BitVec 64 := if f.fn % 16 = 9 then readS j.ctx (field f.fn 10 6 + 1) else 0#64
def atomrSize (f : MD) : Nat := 2 + field f.fn 4 1
def atomrAcq (f : MD) : Bool := field f.fn 5 2 % 2 = 1 && decide (1 < field f.fn 7 3)
/-- The operands of an ATOMR are read without poison, and in no world. -/
structure AtomrReads (f : MD) (j : Iss) : Prop where
  clean : Clean (if f.fn % 16 = 9 then [field f.fn 10 6, field f.fn 10 6 + 1] else [field f.fn 10 6]) j
  base : j.ctx.world = 0
/-- Its place is found at offset `off` of its object at module `home`. -/
def AtomrAt (f : MD) (j0 j1 : Iss) (home off : Nat) : Prop :=
  j0.remoteAt f.cb f.so (2 ^ atomrSize f) (2 ^ atomrSize f) rATOMIC (atomrSize f) = .ok (j1, home, off)
/-- Its request to a peer; the old value goes to `dst`. -/
def Iss.asksAtomr (j1 : Iss) (f : MD) (j : Iss) (home off : Nat) (dst : Land) : Except Halt (Iss × Option Nat) :=
  j1.sendReq home 4 f.cl 1 (spanOfBytes (readC j1.ctx f.cb).obj off (2 ^ atomrSize f)) (if 2 ≤ field f.fn 5 2 then 65536 else 0)
    (memInfo off f.cb (atomrSize f)) (addrWord (readC j1.ctx f.cb).index off (atomrSize f) ++ atomBody (atomrX f j) (atomrY f j) f.fn j1.flush) dst
    (decide (f.ds % 128 < 64)) (atomrAcq f)

/-- What an ATOMR of the group j asks of its own module at the place it finds, j1 being the group then. -/
def atomrAsked (f : MD) (j j1 : Iss) (ps : List (Nat × Nat × Nat)) (key : Nat) : AtomReq :=
  { ctx := j1.st.cx, cls := f.cl, op := f.fn % 16, bytes := 2 ^ atomrSize f, world := 0, pieces := ps, x := atomrX f j, y := atomrY f j, key := some key
    flush := j1.flush, ord := field f.fn 5 2, scope := field f.fn 7 3, seq := 0, reach := none, slot := none, fin := none }

/-- The group after an ATOMR of its own module, with its request on its way. -/
def atomrSent (f : MD) (j j1 j2 : Iss) (ps : List (Nat × Nat × Nat)) : Iss := j2.newKey.1.sendAtom (atomrAsked f j j1 ps j2.newKey.2)
/-- The group then, when a row takes the old value. -/
def atomrAwaited (f : MD) (j j1 j2 : Iss) (ps : List (Nat × Nat × Nat)) (row : Nat) : Iss :=
  (atomrSent f j j1 j2 ps).ownReply j2.newKey.2 4 f.cl (.row (f.ds % 128) row Row.zero) (atomrAcq f)

section
variable {f : MD} {j j0 j1 j2 : Iss} {off home : Nat}

theorem atomr_first (h : AtomrReads f j) : j.s (field f.fn 10 6) = (j, atomrX f j) := s_clean (h.clean _ (by split <;> simp))
theorem atomr_second (h : AtomrReads f j) : (if f.fn % 16 = 9 then j.s (field f.fn 10 6 + 1) else (j, 0#64)) = (j, atomrY f j) := by
  unfold atomrY
  split
  case isTrue h9 => exact s_clean (h.clean _ (by rw [if_pos h9]; simp))
  case isFalse => rfl
theorem atomr_revocable (h : AtomrReads f j) : j.revocable = .ok () := if_pos h.base

theorem opAtomr_own {p : Nat × Nat × Nat} {ps : List (Nat × Nat × Nat)} (h : AtomrReads f j) (hq : 64 ≤ f.ds % 128)
    (ha : AtomrAt f j j1 Config.moduleNumber off) (hp : j1.ownPlace f.cb off (2 ^ atomrSize f) (atomrSize f) true = .ok (j2, p :: ps)) :
    opAtomr f j = .ok (atomrSent f j j1 j2 (p :: ps)) := by
  unfold AtomrAt atomrSize at *
  simp only [opAtomr, atomr_revocable h, atomr_first h, atomr_second h, if_neg (Nat.not_lt.mpr hq), ha, hp, bind, Except.bind, if_true, List.isEmpty_cons,
    Bool.false_eq_true, if_false]
  rfl

theorem opAtomr_ownRow {row : Nat} {p : Nat × Nat × Nat} {ps : List (Nat × Nat × Nat)} (h : AtomrReads f j) (hq : f.ds % 128 < 64)
    (hclaim : j.claimReply (f.ds % 128) = .ok (j0, row)) (ha : AtomrAt f j0 j1 Config.moduleNumber off)
    (hp : j1.ownPlace f.cb off (2 ^ atomrSize f) (atomrSize f) true = .ok (j2, p :: ps)) :
    opAtomr f j = .ok (atomrAwaited f j j1 j2 (p :: ps) row) := by
  unfold AtomrAt atomrSize at *
  simp only [opAtomr, atomr_revocable h, atomr_first h, atomr_second h, if_pos hq, hclaim, ha, hp, bind, Except.bind, if_true, List.isEmpty_cons,
    Bool.false_eq_true, if_false]
  rfl

theorem opAtomr_asks {tag : Option Nat} (h : AtomrReads f j) (hq : 64 ≤ f.ds % 128) (ha : AtomrAt f j j1 home off) (hh : home ≠ Config.moduleNumber)
    (hs : j1.asksAtomr f j home off (.none Row.zero) = .ok (j2, tag)) : opAtomr f j = .ok j2 := by
  unfold AtomrAt Iss.asksAtomr atomrSize atomrAcq at *
  simp only [opAtomr, atomr_revocable h, atomr_first h, atomr_second h, if_neg (Nat.not_lt.mpr hq), ha, if_neg hh, hs, bind, Except.bind]
  cases tag <;> rfl

theorem opAtomr_asksRow {row tag : Nat} (h : AtomrReads f j) (hq : f.ds % 128 < 64) (hclaim : j.claimReply (f.ds % 128) = .ok (j0, row))
    (ha : AtomrAt f j0 j1 home off) (hh : home ≠ Config.moduleNumber)
    (hs : j1.asksAtomr f j home off (.row (f.ds % 128) row Row.zero) = .ok (j2, some tag)) : opAtomr f j = .ok j2 := by
  unfold AtomrAt Iss.asksAtomr atomrSize atomrAcq at *
  simp only [opAtomr, atomr_revocable h, atomr_first h, atomr_second h, if_pos hq, hclaim, ha, if_neg hh, hs, bind, Except.bind]

theorem atomrSent_sound (h : j2.Sound) (ps : List (Nat × Nat × Nat)) : (atomrSent f j j1 j2 ps).Sound := (sendAtom_sends ..).sound (newKey_sound h)

end

/-! ## FENCEF (R252) -/

/-- The classes that a FENCEF fences. -/
def fencefMask (f : MQ) : Nat := if f.imm % 65536 = 0 then 65535 else f.imm % 65536
/-- Its operands are read without poison, and its place is found. -/
def FencefFound (f : MQ) (j j1 : Iss) (home off : Nat) : Prop :=
  Clean [f.sb] j ∧ j.remoteAt (field f.imm 16 4) f.sa 8 8 rSTORE 3 = .ok (j1, home, off)
/-- The flag write that a FENCEF of the group j asks of its own module at the place it finds, j1 being the group then. -/
def fencefAsked (f : MQ) (j j1 : Iss) (ps : List (Nat × Nat × Nat)) : AtomReq :=
  { ctx := j1.st.cx, cls := 16, op := 18, bytes := 8, world := j1.ctx.world, pieces := ps, x := readS j.ctx f.sb, y := BitVec.ofNat 64 (fencefMask f)
    key := none, flush := 0, ord := 0, scope := 5, seq := 0, reach := none, slot := none, fin := none }

section
variable {f : MQ} {j j1 j2 : Iss} {home off : Nat}

theorem opFencef_own {p : Nat × Nat × Nat} {ps : List (Nat × Nat × Nat)} (h : FencefFound f j j1 Config.moduleNumber off)
    (hp : j1.ownPlace (field f.imm 16 4) off 8 3 true = .ok (j2, p :: ps)) (hr : j2.overlayRoom (readC j1.ctx (field f.imm 16 4)) off (p :: ps) = j2) :
    opFencef f j = .ok (j2.sendAtom (fencefAsked f j j1 (p :: ps))) := by
  obtain ⟨hc, ha⟩ := h
  simp only [opFencef, s_clean (hc _ List.mem_cons_self), ha, hp, hr, bind, Except.bind, if_true, List.isEmpty_cons, Bool.false_eq_true, if_false]
  rfl

theorem opFencef_asks {tag : Option Nat} (h : FencefFound f j j1 home off) (hh : home ≠ Config.moduleNumber)
    (hs : j1.sendReq home 6 16 1 (spanOfBytes (readC j1.ctx (field f.imm 16 4)).obj off 8) (fencefMask f) (memInfo off (field f.imm 16 4) 3)
      (addrWord (readC j1.ctx (field f.imm 16 4)).index off 3 ++ leBytes 8 (readS j.ctx f.sb).toNat) (.none Row.zero) false false = .ok (j2, tag)) :
    opFencef f j = .ok j2 := by
  obtain ⟨hc, ha⟩ := h
  unfold fencefMask at hs
  simp only [opFencef, s_clean (hc _ List.mem_cons_self), ha, if_neg hh, hs, bind, Except.bind]

end

/-- Settles O21: each operation with its operand found, at its own module and at a peer; and the request itself. -/
theorem remoteAccess : Obligations.RemoteAccess := by
  unfold Obligations.RemoteAccess
  refine ⟨fun g f j1 j2 home off => ⟨fun d => ⟨fun tag => ?ldr, ?ldrNone, fun ps => ?ldrOwn⟩,
      fun row => ⟨fun tag => ?ldrw, ?ldrwNone, fun p ps => ?ldrwOwn⟩, ?str, ?atomr⟩,
    fun g f j1 j2 home off tag => ?fencef, fun g f j1 j2 off p ps => ?fencefOwn,
    fun j peer kind cls n span mask info bs dst push acq => ⟨?down, ?sends⟩⟩
  case ldr =>
    exact completes_of (op := opLdr f) (fun _ => rfl) (fun s ⟨_, hd, ha, hh, hs, _⟩ => opLdr_asks hd ha hh hs) fun s ⟨_, _, _, _, _, hj⟩ => await_sound hj ..
  case ldrNone =>
    exact completes_of (op := opLdr f) (fun _ => rfl) (fun s ⟨_, hd, ha, hh, hs, _⟩ => opLdr_asks hd ha hh hs) fun s ⟨_, _, _, _, _, hj⟩ => add_sound hj
  case ldrOwn =>
    exact completes_of (op := opLdr f) (fun _ => rfl) (fun s ⟨_, hd, ha, hp, _⟩ => opLdr_own hd ha hp) fun s ⟨_, _, _, _, hj⟩ => loadFar_sound hj ..
  case ldrw =>
    exact completes_of (op := opLdrw f) (fun _ => rfl) (fun s ⟨_, hq, ha, hh, hs, _⟩ => opLdrw_asks hq ha hh hs) fun s ⟨_, _, _, _, _, hj⟩ => hj
  case ldrwNone =>
    exact completes_of (op := opLdrw f) (fun _ => rfl) (fun s ⟨_, hq, ha, hh, hs, _⟩ => opLdrw_asks hq ha hh hs) fun s ⟨_, _, _, _, _, hj⟩ => atEnd_sound hj
  case ldrwOwn =>
    exact completes_of (op := opLdrw f) (fun _ => rfl) (fun s ⟨_, hq, ha, hp, _⟩ => opLdrw_own hq ha hp)
      fun s ⟨_, _, _, _, hj⟩ => ownReply_sound (readsBase_sound (loadFar_sound hj ..) ..) ..
  case str =>
    intro str
    have hstr : ∀ (found : Iss → Nat → Prop) (data : Iss → List Byte),
        (∀ j h, found j h → ∃ j0, strData f j = .ok (j0, data j) ∧ FoundAt f rSTORE j0 j1 h off) → str found data := by
      intro found data hfound
      refine ⟨?defers, fun p ps => ?own, fun tag => ?asks⟩
      case defers =>
        refine completes_of (op := opStr f) (fun _ => rfl) (fun s ⟨hf, hw, hr, _⟩ => ?_) fun s ⟨_, _, _, hj⟩ => atEnd_sound hj
        obtain ⟨j0, hv, ha⟩ := hfound _ _ hf
        exact opStr_defers hv ha hw hr
      case own =>
        refine completes_of (op := opStr f) (fun _ => rfl) (fun s ⟨hf, hw, hp, _⟩ => ?_) fun s ⟨_, _, _, hj⟩ => gate_sound hj ..
        obtain ⟨j0, hv, ha⟩ := hfound _ _ hf
        exact opStr_own hv ha hw hp
      case asks =>
        refine completes_of (op := opStr f) (fun _ => rfl) (fun s ⟨hf, hh, hw, hs, _⟩ => ?_) fun s ⟨_, _, _, _, hj⟩ => hj
        obtain ⟨j0, hv, ha⟩ := hfound _ _ hf
        exact opStr_asks hv ha hh hw hs
    refine ⟨fun hs => ?scalar, fun rows hs => ?row⟩
    case scalar =>
      apply hstr
      exact fun j _ ⟨hc, ha⟩ => ⟨j, strData_scalar hs hc, ha⟩
    case row =>
      apply hstr
      exact fun j _ ⟨j0, hr, hb, ha⟩ => ⟨j0, strData_row hs hr hb, ha⟩
  case atomr =>
    intro az q acq x y body asks own sent
    have hsent : ∀ j k ps, k.core = (atomrSent f j j1 j2 ps).core → k.pends = (atomrSent f j j1 j2 ps).pends →
        k.st.mem = (atomrSent f j j1 j2 ps).st.mem → ∃ m, sent j k m ∧ m.key = some j2.newKey.2 := by
      intro j k ps hcore hpends hmem
      have hsends := sendAtom_sends j2.newKey.1 (atomrAsked f j j1 ps j2.newKey.2)
      obtain ⟨m, hm, hatoms⟩ := hsends.atoms
      exact ⟨m, ⟨hcore ▸ hatoms, congrArg AtomReq.ctx hm, congrArg AtomReq.cls hm, congrArg AtomReq.op hm, congrArg AtomReq.bytes hm,
        congrArg AtomReq.world hm, congrArg AtomReq.x hm, congrArg AtomReq.y hm, congrArg AtomReq.ord hm, congrArg AtomReq.scope hm, hpends.trans hsends.pends,
        hmem.trans hsends.mem⟩, congrArg AtomReq.key hm⟩
    have hasks : ∀ tag, 64 ≤ q → Completes (.atomr g f) (fun j => asks tag (.none Row.zero) j j) (fun _ => j2) := by
      intro tag hq
      refine completes_of (op := opAtomr f) (fun _ => rfl) (fun s ⟨hc, hw, ha, hh, hs, _⟩ => ?_) fun s ⟨_, _, _, _, _, hj⟩ => hj
      exact opAtomr_asks ⟨hc, hw⟩ hq ha hh hs
    refine ⟨fun hq => ?own, fun row hq => ?ownRow, fun tag => hasks (some tag), hasks none, fun tag row hq => ?asksRow⟩
    case own =>
      refine completesWith_of (op := opAtomr f) (fun _ => rfl) ?_
      rintro s ⟨hc, hw, ha, ⟨p, ps, hp⟩, hj⟩
      obtain ⟨m, hm, -⟩ := hsent (began s (.atomr g f)) _ (p :: ps) rfl rfl rfl
      exact ⟨_, opAtomr_own ⟨hc, hw⟩ hq ha hp, ⟨m, hm⟩, atomrSent_sound hj _⟩
    case ownRow =>
      refine completesWith_of (op := opAtomr f) (fun _ => rfl) ?_
      rintro s ⟨j0, hclaim, hc, hw, ha, ⟨p, ps, hp⟩, hj⟩
      obtain ⟨m, hm, hkey⟩ := hsent (began s (.atomr g f)) (atomrAwaited f (began s (.atomr g f)) j1 j2 (p :: ps) row) (p :: ps)
        (ownReply_core ..) (ownReply_pends ..) (ownReply_mem ..)
      obtain ⟨r, hr, htag, hawaited⟩ := ownReply_reqs (atomrSent f (began s (.atomr g f)) j1 j2 (p :: ps)) j2.newKey.2 4 f.cl
        (.row (f.ds % 128) row Row.zero) (atomrAcq f)
      exact ⟨_, opAtomr_ownRow ⟨hc, hw⟩ hq hclaim ha hp, ⟨m, hm, r, hr, (congrArg some htag).trans hkey.symm, hawaited⟩,
        ownReply_sound (atomrSent_sound hj _) ..⟩
    case asksRow =>
      refine completes_of (op := opAtomr f) (fun _ => rfl) (fun s ⟨_, hclaim, hc, hw, ha, hh, hs, _⟩ => ?_) fun s ⟨_, _, _, _, _, _, _, hj⟩ => hj
      exact opAtomr_asksRow ⟨hc, hw⟩ hq hclaim ha hh hs
  case fencef =>
    exact completes_of (op := opFencef f) (fun _ => rfl) (fun s ⟨hc, ha, hh, hs, _⟩ => opFencef_asks ⟨hc, ha⟩ hh hs) fun s ⟨_, _, _, _, hj⟩ => hj
  case fencefOwn =>
    refine completesWith_of (op := opFencef f) (fun _ => rfl) ?_
    rintro s ⟨hc, ha, hp, hr, hj⟩
    have hsends := sendAtom_sends j2 (fencefAsked f (began s (.fencef g f)) j1 (p :: ps))
    obtain ⟨m, hm, hatoms⟩ := hsends.atoms
    exact ⟨_, opFencef_own ⟨hc, ha⟩ hp hr, ⟨m, hatoms, congrArg AtomReq.ctx hm, congrArg AtomReq.op hm, congrArg AtomReq.bytes hm, congrArg AtomReq.world hm,
      congrArg AtomReq.pieces hm, congrArg AtomReq.x hm, congrArg AtomReq.cls hm, congrArg AtomReq.y hm, congrArg AtomReq.ord hm, congrArg AtomReq.key hm,
      hsends.pends, hsends.mem⟩, hsends.sound hj⟩
  case down => exact fun h => sendReq_down h ..
  case sends =>
    intro j1 ix hd hn ht
    refine ⟨_, _, _, sendReq_sends hd hn ht .., awaitsReply_reqs (tagged_core ..) (tagged_cx ..), rfl, rfl, rfl, rfl, rfl, rfl, rfl, rfl, ?_⟩
    rw [awaitsReply_fab (tagged_core ..), tagAt'_tagged]
    exact ⟨rfl, rfl, rfl, rfl, rfl, rfl, rfl, rfl, rfl⟩

end Sys2Proof.Machine
end

section
/-! PROOFS. CTXSAVE, RESTORE and ERTQ (O30, 12 R258 to R261, 16 R323, 26 R445): what each does with its operand found, and what its group leaves to be done once
the cycle has passed. -/

namespace Sys2Proof.Machine

/-! ## CTXSAVE (R258, R260) -/

/-- The context that a CTXSAVE names, and whether it stops it. -/
def saveTarget (f : YX) (j : Iss) : Nat := if field f.fn 3 1 = 1 then j.st.cx else f.fn % 8
def saveStops (f : YX) : Bool := decide (field f.fn 12 1 = 1)
/-- A save of context x joins those of the acting context: its image n, when taken, and the place of the image's first bytes; the drawn number m says when it can
be performed. -/
def addSave (f : YX) (ps : List (Nat × Nat × Nat)) (s : State) (x : Nat) (n : Option Nat) (m : Nat) : State :=
  setAct s { actCtx s with
    saves := (actCtx s).saves ++ [⟨x, field f.fn 8 4, saveStops f, firstBytes 72 ps, n, s.now + 1 + Config.unitDelay m⟩] }
/-- A free number is drawn. -/
def drawn (s : State) : State := { s with free := s.free + 1 }
/-- Context x of core k is held out of issue. -/
def holdOut (s : State) (k x : Nat) : State := setCtx s k x { ctxOf s k x with heldOut := true }

/-- The operand of a CTXSAVE is found, at a place in memory. -/
structure SaveFound (f : YX) (j j1 : Iss) (ps : List (Nat × Nat × Nat)) : Prop where
  clean : Clean [f.xa] j
  idle : saveTarget f j = j.st.cx → mxOpen j.st j.st.core j.st.cx = false
  at_ : j.locate (field f.fn 4 4) (globalAddr j.ctx f.xa 0 1) (imageLen j.st j.st.core (saveTarget f j)) 64 rSTORE 0 true 0x16 none = .ok (j1, .mem ps)

theorem saveTarget_own {f : YX} {j : Iss} : saveTarget f j = j.st.cx ↔ (decide (field f.fn 3 1 = 1) || decide (f.fn % 8 = j.st.cx)) = true := by
  unfold saveTarget
  split <;> simp [*]
theorem atLast_sound {j : Iss} {act : State → State} (h : j.Sound) : (j.atLast act).Sound := h
theorem stop_sound {j : Iss} {stop : Stop} (h : j.Sound) : ({ j with stop := stop } : Iss).Sound := h

section
variable {f : YX} {j j1 : Iss} {ps : List (Nat × Nat × Nat)}

theorem opCtxsave_waits (hx : saveTarget f j = j.st.cx) (hm : mxOpen j.st j.st.core j.st.cx = true) : opCtxsave f j = stallNow := by
  unfold saveTarget at hx
  simp only [opCtxsave, hx, hm, decide_true, Bool.and_self, if_true]

theorem opCtxsave_own (h : SaveFound f j j1 ps) (hx : saveTarget f j = j.st.cx) (hs : saveStops f = false) :
    opCtxsave f j = .ok (j1.atLast (fun s =>
      let r := takeImage (drawn s) j.st.core j.st.cx
      addSave f ps (writeImage r.1 j.st.core (actCtx (drawn s)).world (firstBytes 72 ps) (imageHeader (drawn s) j.st.core j.st.cx false) r.2)
        j.st.cx (some r.2) s.free)) := by
  obtain ⟨hc, hi, hl⟩ := h
  have hm := hi hx
  rw [hx] at hl
  unfold saveTarget saveStops at *
  simp only [opCtxsave, addSave, saveStops, hx, hm, hs, globalOff_clean (hc f.xa List.mem_cons_self), hl, bind, Except.bind, decide_true,
    Bool.not_false, Bool.and_true, Bool.and_false, Bool.false_eq_true, if_false, if_true]
  rfl

theorem opCtxsave_parks (h : SaveFound f j j1 ps) (hx : saveTarget f j = j.st.cx) (hs : saveStops f = true) :
    opCtxsave f j = .ok { j1.atLast (fun s => holdOut (addSave f ps (drawn s) j.st.cx none s.free) j.st.core j.st.cx) with stop := .park 0 } := by
  obtain ⟨hc, hi, hl⟩ := h
  have hm := hi hx
  rw [hx] at hl
  unfold saveTarget saveStops at *
  simp only [opCtxsave, addSave, saveStops, hx, hm, hs, globalOff_clean (hc f.xa List.mem_cons_self), hl, bind, Except.bind, decide_true,
    Bool.not_true, Bool.and_true, Bool.and_false, Bool.false_eq_true, if_false, if_true]
  rfl

theorem opCtxsave_other (h : SaveFound f j j1 ps) (hx : saveTarget f j ≠ j.st.cx) :
    opCtxsave f j = .ok (j1.atLast (fun s => holdOut (addSave f ps (drawn s) (saveTarget f j) none s.free) j.st.core (saveTarget f j))) := by
  obtain ⟨hc, -, hl⟩ := h
  unfold saveTarget at *
  simp only [opCtxsave, hx, globalOff_clean (hc f.xa List.mem_cons_self), hl, bind, Except.bind, decide_false, Bool.false_and, Bool.false_eq_true, if_false]
  rfl

end

/-! ## RESTORE (R261, 26 R445) -/

/-- Word n of an image's first bytes. -/
def imageWord (bs : List Byte) (n : Nat) : Nat := leVal ((bs.drop (8 * n)).take 8)
/-- The header of an image is malformed (R259). -/
def imageBad (bs : List Byte) : Bool :=
  decide (2129984 < field (imageWord bs 0) 0 32) || field (imageWord bs 0) 48 16 ≠ 0 || field (imageWord bs 1) 48 16 ≠ 0 || field (imageWord bs 2) 17 47 ≠ 0
    || field (imageWord bs 3) 16 48 ≠ 0 || ((bs.drop 32).take 32).any (fun b => b != 0#8)

theorem imageBad_eq_false {bs : List Byte} : imageBad bs = false ↔
    field (imageWord bs 0) 0 32 ≤ 2129984 ∧ field (imageWord bs 0) 48 16 = 0 ∧ field (imageWord bs 1) 48 16 = 0 ∧ field (imageWord bs 2) 17 47 = 0
      ∧ field (imageWord bs 3) 16 48 = 0 ∧ ∀ b ∈ (bs.drop 32).take 32, b = 0#8 := by
  simp only [imageBad, Bool.or_eq_false_iff, decide_eq_false_iff_not, Nat.not_lt, not_not, List.any_eq_false, bne_iff_ne, and_assoc, ne_eq]

/-- The header of the image that a RESTORE names is found for the dormant context x. -/
structure HeaderFound (f : YX) (j j1 : Iss) (p : Nat × Nat × Nat) (ps : List (Nat × Nat × Nat)) (x : Nat) : Prop where
  clean : Clean [f.xa] j
  dormant : lowestDormant j.st j.st.core = some x
  at_ : j.locate (field f.fn 4 4) (globalAddr j.ctx f.xa 0 1) 72 64 rLOAD 0 false 0x16 none = .ok (j1, .mem (p :: ps))
/-- It is well-formed, and the whole image is found. -/
structure ImageFound (f : YX) (j j1 j2 : Iss) (p : Nat × Nat × Nat) (ps : List (Nat × Nat × Nat)) (x : Nat) : Prop extends HeaderFound f j j1 p ps x where
  good : imageBad (j1.peekMem (p :: ps)) = false
  whole : ∃ q, j1.locate (field f.fn 4 4) (globalAddr j.ctx f.xa 0 1) (Nat.max (field (imageWord (j1.peekMem (p :: ps)) 0) 0 32) 72) 64 rLOAD 0 false 0x16 none
    = .ok (j2, q)

/-- The body that an image names, and the parked context of its task. -/
def imageBody (j : Iss) (bs : List Byte) : Option Saved := if imageWord bs 8 = 0 then none else j.st.images[imageWord bs 8 - 1]?
def imageParked (j : Iss) (bs : List Byte) : Option (Nat × Nat) := parkedAt j.st (field (imageWord bs 2) 14 3) (field (imageWord bs 2) 0 14)

theorem imageBody_eq_some {j : Iss} {bs : List Byte} {v : Saved} :
    imageBody j bs = some v ↔ imageWord bs 8 ≠ 0 ∧ j.st.images[imageWord bs 8 - 1]? = some v := by
  unfold imageBody
  split <;> simp [*]
theorem imageBody_eq_none {j : Iss} {bs : List Byte} : imageBody j bs = none ↔ imageWord bs 8 = 0 ∨ j.st.images[imageWord bs 8 - 1]? = none := by
  unfold imageBody
  split <;> simp [*]

/-- What a RESTORE for context x does with the whole image found, j2 being the group then. -/
def Iss.restores (j : Iss) (f : YX) (j2 : Iss) (bs : List Byte) (x : Nat) : Except Halt Iss :=
  if (imageBody j bs).any (fun v => v.ended) then trapNow 0x23 1
  else
    match imageBody j bs, imageParked j bs with
    | some v, some old =>
      if field (imageWord bs 0) 45 1 = 0 then trapNow 0x24 2
      else if field (imageWord bs 0) 32 10 ≠ j.st.core && (!decide (field f.fn 12 1 = 1) || field (imageWord bs 0) 46 1 = 0) then trapNow 0x24 3
      else
        match (List.range 16).find? (fun t => field (imageWord bs 3) t 1 = 1 && !sameSegment j.st t (field (imageWord bs 0) 32 10) j.st.core) with
        | some t => trapNow 0x24 (4 + 16 * t)
        | none => .ok (j2.atEnd (fun s =>
            let t := bindImage s j.st.core x { v with ctx := { v.ctx with pc := field (imageWord bs 1) 0 48 } } old (field (imageWord bs 2) 14 3)
              (field (imageWord bs 2) 0 14)
            creditSem t j.st.core t.cx (field f.fn 8 4) 4))
    | _, _ => trapNow 0x24 2

section
variable {f : YX} {j j1 j2 : Iss} {p : Nat × Nat × Nat} {ps : List (Nat × Nat × Nat)} {x : Nat}

theorem opRestore_waits (h : lowestDormant j.st j.st.core = none) : opRestore f j = stallNow := by
  simp only [opRestore, h]

theorem opRestore_malformed (h : HeaderFound f j j1 p ps x) (hb : imageBad (j1.peekMem (p :: ps)) = true) : opRestore f j = trapNow 0x02 0 := by
  obtain ⟨hc, hd, hl⟩ := h
  simp only [opRestore, globalOff_clean (hc f.xa List.mem_cons_self), hd, hl, bind, Except.bind, List.isEmpty_cons, Bool.false_eq_true, if_false]
  exact if_pos hb

theorem opRestore_whole (h : ImageFound f j j1 j2 p ps x) : opRestore f j = j.restores f j2 (j1.peekMem (p :: ps)) x := by
  obtain ⟨⟨hc, hd, hl⟩, hb, q, hw⟩ := h
  have hlocate : j1.locate (field f.fn 4 4) (globalAddr j.ctx f.xa 0 1) (Nat.max (field (leVal ((j1.peekMem (p :: ps)).take 8)) 0 32) 72) 64 rLOAD 0 false 0x16
    none = .ok (j2, q) := hw
  simp only [opRestore, globalOff_clean (hc f.xa List.mem_cons_self), hd, hl, bind, Except.bind, List.isEmpty_cons, Bool.false_eq_true, if_false, hlocate]
  exact if_neg (ne_true_of_eq_false hb)

end

section
variable {f : YX} {j j2 : Iss} {bs : List Byte} {x : Nat}

theorem restores_ended {v : Saved} (hv : imageBody j bs = some v) (he : v.ended = true) : j.restores f j2 bs x = trapNow 0x23 1 := by
  simp only [Iss.restores, hv, Option.any_some, he, if_true]

theorem restores_unknown (he : ∀ v, imageBody j bs = some v → v.ended = false) (hn : imageBody j bs = none ∨ imageParked j bs = none) :
    j.restores f j2 bs x = trapNow 0x24 2 := by
  have hany : (imageBody j bs).any (fun v => v.ended) = false := by
    rw [Option.any_eq_false]
    exact he
  rw [Iss.restores, hany]
  obtain hn | hn := hn
  · simp only [hn, Bool.false_eq_true, if_false]
  · simp only [hn, Bool.false_eq_true, if_false]
    cases imageBody j bs <;> rfl

theorem restores_binds {v : Saved} {old : Nat × Nat} (hv : imageBody j bs = some v) (he : v.ended = false) (ho : imageParked j bs = some old)
    (hstop : field (imageWord bs 0) 45 1 = 1) (hmoves : field (imageWord bs 0) 32 10 = j.st.core ∨ (field f.fn 12 1 = 1 ∧ field (imageWord bs 0) 46 1 = 1))
    (hlines : ∀ n, n < 16 → field (imageWord bs 3) n 1 = 1 → sameSegment j.st n (field (imageWord bs 0) 32 10) j.st.core = true) :
    j.restores f j2 bs x = .ok (j2.atEnd (fun s =>
      let t := bindImage s j.st.core x { v with ctx := { v.ctx with pc := field (imageWord bs 1) 0 48 } } old (field (imageWord bs 2) 14 3)
        (field (imageWord bs 2) 0 14)
      creditSem t j.st.core t.cx (field f.fn 8 4) 4)) := by
  have hany : Option.any (fun v : Saved => v.ended) (some v) = false := he
  have hmay : (decide (field (imageWord bs 0) 32 10 ≠ j.st.core) && (!decide (field f.fn 12 1 = 1) || decide (field (imageWord bs 0) 46 1 = 0))) = false := by
    obtain hcore | ⟨hrel, hquiet⟩ := hmoves
    · simp [hcore]
    · simp [hrel, hquiet]
  have hsame : (List.range 16).find? (fun t => field (imageWord bs 3) t 1 = 1 && !sameSegment j.st t (field (imageWord bs 0) 32 10) j.st.core) = none := by
    rw [List.find?_eq_none]
    intro t ht
    simpa using hlines t (List.mem_range.mp ht)
  simp only [Iss.restores, hv, ho, hany, hstop, hmay, hsame, Bool.false_eq_true, Nat.one_ne_zero, if_false]

end

/-! ## ERTQ (16 R323) -/

/-- The read of a residency entry that the context has on its way, and the place of the entry that an ERTQ names. -/
def ertAsked (j : Iss) : Option LoadReq := j.core.ms.loads.find? (fun l => l.ctx == j.st.cx && l.dst == ertMarker)
def ertEntry (f : YX) (j : Iss) : Option (Nat × Nat) :=
  objByte j.st j.die (ertObj j.st j.die) (ertOff j.st j.die ((readS j.ctx f.xb).toNat % 16777216))
/-- The read of the entry at p for the acting context, before it has a slot or an arrival. -/
def ertRead (s : State) (k : Nat) (p : Nat × Nat) : LoadReq :=
  { ctx := s.cx, key := 0, cls := 16, world := 0, seq := (coreOf s k).ms.seq, pieces := [(p.1, p.2, 8)], own := [], dst := ertMarker, wantTag := false
    fill := false, exact := false, reach := none, slot := none, fin := none, got := none }
/-- A load joins those of core k. -/
def addLoad (k : Nat) (s : State) (l : LoadReq) : State :=
  setCore s k { coreOf s k with ms := { (coreOf s k).ms with loads := (coreOf s k).ms.loads ++ [l] } }

theorem setCore_sound {j : Iss} {c : Core} (h : j.Sound) : (j.setCore c).Sound := h
theorem withState_sound {j : Iss} {t : State} (h : j.Sound) : ({ j with st := t } : Iss).Sound := h

section
variable {f : YX} {j : Iss} (hc : Clean [f.xb] j)
include hc

theorem opErtq_free (ha : ertAsked j = none) (he : ertEntry f j = none) :
    opErtq f j = .ok (({ j with st := { j.st with free := j.st.free + 1 } } : Iss).writeS 1 f.xa (Config.freeWord j.st.free)) := by
  simp only [ertAsked, ertEntry] at ha he
  simp only [opErtq, s_clean (hc f.xb List.mem_cons_self), ha, he]

theorem opErtq_asks {p : Nat × Nat} (ha : ertAsked j = none) (he : ertEntry f j = some p) :
    opErtq f j = .error (.stall (fun s =>
      let k := j.st.core
      let t := (takeSeq s k).1
      if dieOfAddr p.1 = dieOfCore k then
        addLoad k (bindSlot t k).1 { ertRead s k p with slot := some (bindSlot t k).2, fin := some ((bindSlot t k).2 + 152) }
      else addLoad k t { ertRead s k p with reach := some (s.now + 48 * hops (dieOfCore k) (dieOfAddr p.1)) })) := by
  simp only [ertAsked, ertEntry] at ha he
  simp only [opErtq, s_clean (hc f.xb List.mem_cons_self), ha, he]
  refine congrArg (fun g => Except.error (Halt.stall g)) (funext fun s => ?_)
  split <;> rfl

theorem opErtq_waits {l : LoadReq} (ha : ertAsked j = some l) (hl : l.got = none ∨ l.fin.any (fun t => t ≤ j.st.now) = false) :
    opErtq f j = stallNow := by
  simp only [ertAsked] at ha
  simp only [opErtq, s_clean (hc f.xb List.mem_cons_self), ha]
  split
  case h_1 g hg =>
    obtain hg' | hfin := hl
    · cases hg'.symm.trans hg
    · exact if_neg (ne_true_of_eq_false hfin)
  case h_2 => rfl

theorem opErtq_takes {l : LoadReq} {v : List Byte × Bool × Bool} (ha : ertAsked j = some l) (hg : l.got = some v)
    (hl : l.fin.any (fun t => t ≤ j.st.now) = true) :
    opErtq f j = .ok ((j.setCore { j.core with ms := { j.core.ms with loads := j.core.ms.loads.filter (fun u => u.seq != l.seq) } }).writeS 1 f.xa
      (BitVec.ofNat 64 (leVal v.1))) := by
  simp only [ertAsked] at ha
  simp only [opErtq, s_clean (hc f.xb List.mem_cons_self), ha, hg, hl, if_true]

end

/-- Settles O30: CTXSAVE by its target and STOP, RESTORE by the image it finds, ERTQ by what is on its way. -/
theorem contextImages : Obligations.ContextImages := by
  unfold Obligations.ContextImages
  refine ⟨fun g f j1 p ps => ⟨?busy, ?own, ?parks, ?other⟩,
    fun g f j1 j2 p ps x => ⟨?noneDormant, ?malformed, fun v old => ?binds, fun v => ?ended, ?unknown⟩,
    fun g f => ⟨?free, fun p => ?asks, fun l => ⟨?awaits, fun v => ?takes⟩⟩⟩
  case busy =>
    exact waits_of (op := opCtxsave f) (fun _ => rfl) fun s ⟨hme, hm⟩ => opCtxsave_waits (saveTarget_own.mpr hme) hm
  case own =>
    refine completes_of (op := opCtxsave f) (fun _ => rfl) (fun s ⟨⟨hc, hi, hl⟩, hme, hstop, _⟩ => ?_) fun s ⟨_, _, _, hj⟩ => atLast_sound hj
    exact opCtxsave_own ⟨hc, fun _ => hi hme, hl⟩ (saveTarget_own.mpr hme) (decide_eq_false hstop)
  case parks =>
    refine completes_of (op := opCtxsave f) (fun _ => rfl) (fun s ⟨⟨hc, hi, hl⟩, hme, hstop, _⟩ => ?_)
      fun s ⟨_, _, _, hj⟩ => stop_sound (atLast_sound hj)
    exact opCtxsave_parks ⟨hc, fun _ => hi hme, hl⟩ (saveTarget_own.mpr hme) (decide_eq_true hstop)
  case other =>
    refine completes_of (op := opCtxsave f) (fun _ => rfl) (fun s ⟨⟨hc, hi, hl⟩, hme, _⟩ => ?_) fun s ⟨_, _, hj⟩ => atLast_sound hj
    have hx : saveTarget f (began s (.ctxsave g f)) ≠ (began s (.ctxsave g f)).st.cx := fun hx => ne_true_of_eq_false hme (saveTarget_own.mp hx)
    exact opCtxsave_other ⟨hc, fun h => absurd h hx, hl⟩ hx
  case noneDormant => exact waits_of (op := opRestore f) (fun _ => rfl) fun s h => opRestore_waits h
  case malformed =>
    refine traps_of (op := opRestore f) (fun _ => rfl) fun s ⟨⟨hc, hd, hl⟩, hs⟩ => ?_
    exact opRestore_malformed ⟨hc, hd, hl⟩ (eq_true_of_ne_false fun hb => hs (imageBad_eq_false.mp hb))
  case binds =>
    refine completes_of (op := opRestore f) (fun _ => rfl) ?_ fun s ⟨_, _, _, _, _, _, _, _, hj⟩ => atEnd_sound hj
    rintro s ⟨⟨⟨hc, hd, hl⟩, hs, hw⟩, hn, hv, he, ho, hstop, hmoves, hlines, -⟩
    exact (opRestore_whole ⟨⟨hc, hd, hl⟩, imageBad_eq_false.mpr hs, hw⟩).trans
      (restores_binds (imageBody_eq_some.mpr ⟨hn, hv⟩) he ho hstop hmoves hlines)
  case ended =>
    refine traps_of (op := opRestore f) (fun _ => rfl) ?_
    rintro s ⟨⟨⟨hc, hd, hl⟩, hs, hw⟩, hn, hv, he⟩
    exact (opRestore_whole ⟨⟨hc, hd, hl⟩, imageBad_eq_false.mpr hs, hw⟩).trans (restores_ended (imageBody_eq_some.mpr ⟨hn, hv⟩) he)
  case unknown =>
    refine traps_of (op := opRestore f) (fun _ => rfl) ?_
    rintro s ⟨⟨⟨hc, hd, hl⟩, hs, hw⟩, he, hn⟩
    refine (opRestore_whole ⟨⟨hc, hd, hl⟩, imageBad_eq_false.mpr hs, hw⟩).trans (restores_unknown (fun v hv => ?_) ?_)
    · obtain ⟨hn, hv⟩ := imageBody_eq_some.mp hv
      exact he v hn hv
    · rw [imageBody_eq_none, or_assoc]
      exact hn
  case free =>
    exact completes_of (op := opErtq f) (fun _ => rfl) (fun s ⟨hc, ha, he⟩ => opErtq_free hc ha he)
      fun s _ => add_sound (withState_sound (began_sound s _))
  case asks => exact waits_of (op := opErtq f) (fun _ => rfl) fun s ⟨hc, ha, he⟩ => opErtq_asks hc ha he
  case awaits => exact waits_of (op := opErtq f) (fun _ => rfl) fun s ⟨hc, ha, hl⟩ => opErtq_waits hc ha hl
  case takes =>
    exact completes_of (op := opErtq f) (fun _ => rfl) (fun s ⟨hc, ha, hg, hl⟩ => opErtq_takes hc ha hg hl)
      fun s _ => add_sound (setCore_sound (began_sound s _))

end Sys2Proof.Machine
end

section
/-! PROOFS. Stores of registers and dies beside one another (O43): a register or a die is read as before where another is stored, and what is done to each
of several dies in turn is done to every one of them. -/

namespace Sys2Proof.Machine

/-! ## Reads beside a store of another key -/

/-- A store of another key leaves a read, whatever the list, where it stores a listed value or the read finds one. -/
theorem mapGet_mapSet_beside {α : Type} [DecidableEq α] {m : List (Nat × α)} {d e v : α} {k a : Nat} (ha : a ≠ k) (h : v ≠ d ∨ mapGet m e a ≠ e) :
    mapGet (mapSet m d k v) e a = mapGet m e a := by
  induction m with
  | nil =>
    have hv : v ≠ d := h.resolve_right fun hne => hne rfl
    simp [mapSet, hv, mapGet, ha]
  | cons p t ih =>
    obtain ⟨j, u⟩ := p
    simp only [mapSet]
    split
    case isTrue hkj =>
      split
      · rfl
      · by_cases hak : a < k
        · simp [mapGet, ha, hak, show a ≠ j by omega, show a < j by omega]
        · simp [mapGet, ha, hak]
    case isFalse =>
      split
      case isTrue hk =>
        subst hk
        split
        case isTrue hv =>
          have hak : ¬ a < k := fun hlt => h.resolve_left (not_not_intro hv) (by simp [mapGet, ha, hlt])
          simp [mapGet, ha, hak]
        case isFalse => simp [mapGet, ha]
      case isFalse =>
        by_cases haj : a = j
        · simp [mapGet, haj]
        · by_cases hlt : a < j
          · simp [mapGet, haj, hlt]
          · simp only [mapGet, haj, hlt, if_false] at h ⊢
            exact ih h

theorem regRaw_setReg_ne {v : Die} {off a n : Nat} (ha : a ≠ off) (h : n ≠ regReset off ∨ regRaw v a ≠ regReset a) :
    regRaw (setReg v off n) a = regRaw v a := mapGet_mapSet_beside ha h

theorem setReg_ne_init {v : Die} {off n : Nat} (h : n ≠ regReset off) : setReg v off n ≠ Die.init :=
  die_ne_init_of_regRaw (off := off) (by rwa [regRaw_setReg h])

/-! ## What is done to the dies one after the other -/

theorem foldl_dieOf_ne {f : State → Nat → State} (hf : ∀ s d e, e ≠ d → dieOf (f s d) e = dieOf s e) {l : List Nat} {d : Nat} (hd : d ∉ l) (s : State) :
    dieOf (l.foldl f s) d = dieOf s d := by
  induction l generalizing s with
  | nil => rfl
  | cons e l ih =>
    obtain ⟨hne, hl⟩ := not_or.mp (mt List.mem_cons.mpr hd)
    rw [List.foldl_cons, ih hl, hf s e d hne]

/-- What an operation that stores its own die alone does to a die, it does to each of several dies. -/
theorem foldl_dieOf {f : State → Nat → State} (hf : ∀ s d e, e ≠ d → dieOf (f s d) e = dieOf s e) {P : Die → Die → Prop}
    (hP : ∀ s d, P (dieOf s d) (dieOf (f s d) d)) {l : List Nat} (hl : l.Nodup) {d : Nat} (hd : d ∈ l) (s : State) :
    P (dieOf s d) (dieOf (l.foldl f s) d) := by
  induction l generalizing s with
  | nil => cases hd
  | cons e l ih =>
    obtain ⟨he, hl⟩ := List.nodup_cons.mp hl
    rw [List.foldl_cons]
    obtain rfl | hd := List.mem_cons.mp hd
    · rw [foldl_dieOf_ne hf he]
      exact hP s d
    · have hne : d ≠ e := fun h => he (h ▸ hd)
      rw [← hf s e d hne]
      exact ih hl hd _

end Sys2Proof.Machine
end

section
/-! PROOFS. The rotation clock and the optics (O43, 15 R294, R296, R310, 25 R437 to R440): what a strobe does by when it comes, and what each event of the
optics leaves in the registers and the fabric units of the dies. -/

namespace Sys2Proof.Machine

/-! ## Strobes (15 R296, 25 R439) -/

/-- The rotation clock as a strobe comes: counted from this cycle. -/
def strobed (s : State) : State := { s with rotAt := s.now, ga := { s.ga with strobed := true } }

theorem rotationStart_first {s : State} (away : Nat) (hup : isUp s = true) (hs : s.ga.strobed = false) :
    rotationStart s away = enterRotation (strobed s) := by
  simp [rotationStart, strobed, hup, hs]

section
variable {s : State} {away : Nat} (hup : isUp s = true) (hs : s.ga.strobed = true)
include hup hs

theorem rotationStart_later (ha : away ≤ 4) (hn : 2560 ≤ s.now - s.rotAt) :
    rotationStart s away = enterRotation { strobed s with rot := (s.rot + 1) % 4294967296 } := by
  simp [rotationStart, strobed, hup, hs, hn, Nat.not_lt.mpr ha]

theorem rotationStart_again (ha : away ≤ 4) (hn : s.now - s.rotAt < 2560) : rotationStart s away = strobed s := by
  simp [rotationStart, strobed, hup, hs, Nat.not_le.mpr hn, Nat.not_lt.mpr ha]

theorem rotationStart_astray (ha : 4 < away) (hn : s.now - s.rotAt < 2560) (hd : (fabOf s 0).desync = none) :
    rotationStart s away = desynchronise (strobed s) := by
  have hd' : (fabOf (strobed s) 0).desync = none := hd
  unfold strobed at *
  simp [rotationStart, hup, hs, ha, Nat.not_le.mpr hn, hd']

end

/-! ## Desynchronisation (25 R439) -/

@[simp] theorem noteHw_out (s : State) (u r cur : Nat) (f : Nat → Nat) : (noteHw s u r cur f).out = s.out := by
  unfold noteHw; split <;> rfl
@[simp] theorem dieOf_noteHw (s : State) (d u r cur : Nat) (f : Nat → Nat) : dieOf (noteHw s u r cur f) d = dieOf s d := by
  unfold noteHw; split <;> rfl
theorem fab_ne_init_of_desync {f : Fabric} (h : f.desync ≠ none) : f ≠ Fabric.init := fun he => h (he ▸ rfl)

/-- OPTEVT holds the event's bit, so its die is not as at reset. -/
theorem optevt_ne_reset (raw bit ring line : Nat) : (raw % 16 ||| 2 ^ bit) + 16 * ring + 1024 * line ≠ regReset 0x0748 := by
  have hbit : 2 ^ bit ≤ raw % 16 ||| 2 ^ bit := Nat.right_le_or
  have hpos := Nat.two_pow_pos bit
  have hreset : regReset 0x0748 = 0 := by decide
  omega
theorem optevt_die_ne_init (v : Die) (raw bit ring line : Nat) : setReg v 0x0748 ((raw % 16 ||| 2 ^ bit) + 16 * ring + 1024 * line) ≠ Die.init :=
  setReg_ne_init (optevt_ne_reset raw bit ring line)

@[simp] theorem optEvent_out (s : State) (d bit ring line : Nat) : (optEvent s d bit ring line).out = s.out := noteHw_out _ _ _ _ _
theorem optEvent_own (s : State) (d bit ring line : Nat) :
    dieOf (optEvent s d bit ring line) d =
      setReg (dieOf s d) 0x0748 ((regRaw (dieOf s d) 0x0748 % 16 ||| 2 ^ bit) + 16 * ring + 1024 * line) := dieOf_setDie (optevt_die_ne_init _ _ _ _ _)
theorem optEvent_ne {s : State} {d e bit ring line : Nat} (he : e ≠ d) : dieOf (optEvent s d bit ring line) e = dieOf s e :=
  (dieOf_setDie_ne (optevt_die_ne_init _ _ _ _ _) he).trans (dieOf_noteHw _ _ _ _ _ _)

/-- The unit of die d sends nothing from cycle c on, and says so. -/
def silence (c : Nat) (s : State) (d : Nat) : State :=
  optEvent (setFab s d { fabOf s d with desync := some ((fabOf s d).desync.getD c) }) d 3 0 0

theorem desynchronise_eq (s : State) : desynchronise s = (List.range 8).foldl (silence (s.now + 640 - slotCycle s)) (report s 0x32 0) := rfl

theorem silence_ne (c : Nat) (s : State) (d e : Nat) (he : e ≠ d) : dieOf (silence c s d) e = dieOf s e := by
  rw [silence, optEvent_ne he, setFab, dieOf_setDie_ne (fun h => ?_) he]
  cases congrArg (fun v : Die => v.fab.desync) h

theorem silence_own (c : Nat) (s : State) (d : Nat) : (dieOf (silence c s d) d).fab.desync ≠ none := by
  have hset := fabOf_setFab (s := s) (d := d) (f := { fabOf s d with desync := some ((fabOf s d).desync.getD c) })
    (fab_ne_init_of_desync (Option.some_ne_none _))
  rw [silence, optEvent_own]
  exact ne_of_eq_of_ne (congrArg Fabric.desync hset) (Option.some_ne_none _)

theorem desynchronise_silences (s : State) {e : Nat} (he : e < 8) : (fabOf (desynchronise s) e).desync ≠ none := by
  rw [desynchronise_eq, fabOf]
  exact foldl_dieOf (f := silence (s.now + 640 - slotCycle s)) (P := fun _ v => v.fab.desync ≠ none) (silence_ne _) (silence_own _) List.nodup_range
    (List.mem_range.mpr he) (report s 0x32 0)

theorem desynchronise_out (s : State) : (desynchronise s).out = (report s 0x32 0).out := by
  rw [desynchronise_eq]
  refine List.foldlRecOn (motive := fun t : State => t.out = (report s 0x32 0).out) _ _ rfl fun t ht d _ => ?_
  rw [silence, optEvent_out]
  exact ht

theorem strobeMissing_desynchronises (s : State) : ∃ t, strobeMissing s = desynchronise t := by
  unfold strobeMissing
  exact ⟨_, rfl⟩

/-! ## Recovery of rings (25 R438) -/

/-- A ring that is retired is read as retired. -/
theorem retire_retires (s : State) (d n : Nat) : mapGet (fabOf (retire s d n) d).retired false n = true := by
  have hset : mapGet (mapSet (fabOf s d).retired false n true) false n = true := mapGet_mapSet_same _ _ (by decide)
  rw [retire, fabOf_setFab fun he => ?_]
  · exact hset
  · exact Bool.false_ne_true ((congrArg (fun f : Fabric => mapGet f.retired false n) he).symm.trans hset)

/-! ## Photodiode readings (25 R437) -/

/-- A register that a reading stored as another value than at reset stands when PEERDOWN is computed anew. -/
theorem refreshPeers_reg {s : State} {d off : Nat} (ho : off ≠ 0x0760) (h : regRaw (dieOf s d) off ≠ regReset off) :
    regRaw (dieOf (refreshPeers s d) d) off = regRaw (dieOf s d) off := by
  have hset : regRaw (setReg (dieOf s d) 0x0760 (peersDown s d)) off = regRaw (dieOf s d) off := regRaw_setReg_ne ho (.inr h)
  rw [refreshPeers, dieOf_setDie (die_ne_init_of_regRaw (by rwa [hset])), hset]

/-- What is noted of the fabric unit leaves a register that is not as at reset. -/
theorem setFab_reg {s : State} {d off : Nat} {f : Fabric} (h : regRaw (dieOf s d) off ≠ regReset off) :
    regRaw (dieOf (setFab s d f) d) off = regRaw (dieOf s d) off := by
  have hne : { dieOf s d with fab := f } ≠ Die.init := die_ne_init_of_regRaw (off := off) h
  rw [setFab, dieOf_setDie hne]
  rfl

/-- A ring that reads in lock keeps its level. -/
theorem readRing_inLock {s : State} {d n level : Nat} (hn : n < 64) (hl : field (regRaw (dieOf s d) 0x0740) 12 12 ≤ level % 4096)
    (hset : level % 4096 ≠ regReset (0x0200 + 8 * n)) : regRaw (dieOf (readRing s d n level) d) (0x0200 + 8 * n) = level % 4096 := by
  have hreg := regRaw_setDie_setReg (s := s) (d := d) (v := dieOf s d) hset
  have hcfg : regRaw (dieOf (setDie s d (setReg (dieOf s d) (0x0200 + 8 * n) (level % 4096))) d) 0x0740 = regRaw (dieOf s d) 0x0740 := by
    rw [dieOf_setDie (setReg_ne_init hset), regRaw_setReg_ne (by omega) (.inl hset)]
  rw [readRing]
  simp only [hcfg, hl, if_true]
  rw [setFab_reg (by rwa [hreg]), hreg]

/-! ## Pattern repair (25 R440) -/

/-- PATCTL of a die that held v, armed for a rotation. -/
def armedPatctl (v rotation : Nat) : Nat := v % 2 + 2 + 4 * field v 2 1 + 4294967296 * (rotation % 4294967296)

theorem armedPatctl_ne_reset (v rotation : Nat) : armedPatctl v rotation ≠ regReset 0x0708 := by
  have hreset : regReset 0x0708 = 0 := by decide
  rw [armedPatctl]
  omega

theorem armPattern_own (s : State) (d rotation : Nat) (pattern : List Nat) :
    regRaw (dieOf (armPattern s d rotation pattern) d) 0x0708 = armedPatctl (regRaw (dieOf s d) 0x0708) rotation :=
  regRaw_setDie_setReg (armedPatctl_ne_reset _ _)

theorem armPattern_ne (rotation : Nat) (pattern : List Nat) (s : State) (d e : Nat) (he : e ≠ d) : dieOf (armPattern s d rotation pattern) e = dieOf s e :=
  dieOf_setDie_ne (setReg_ne_init (armedPatctl_ne_reset _ _)) he

theorem armedPatctl_fields (v rotation : Nat) :
    field (armedPatctl v rotation) 1 1 = 1 ∧ field (armedPatctl v rotation) 32 32 = rotation % 2 ^ 32 ∧ field (armedPatctl v rotation) 0 1 = field v 0 1 := by
  simp only [armedPatctl, field]
  omega

/-- Settles O43: a strobe by its place in the rotation, and each event of the optics by what it stores, read back as stored. -/
theorem clockAndOptics : Obligations.ClockAndOptics := by
  unfold Obligations.ClockAndOptics
  refine ⟨fun s away => ⟨?down, ?first, ?next, ?early, ?astray⟩, ?missing, ?slots, ?heater, ?spare, ?timeout, ?reading, ?repair⟩
  case down =>
    intro hup
    exact congrArg Host.Outcome.next (by simp [rotationStart, hup])
  case first => exact fun hup hs => congrArg Host.Outcome.next (rotationStart_first away hup hs)
  case next => exact fun hup hs ha hn => congrArg Host.Outcome.next (rotationStart_later hup hs ha hn)
  case early => exact fun hup hs ha hn => congrArg Host.Outcome.next (rotationStart_again hup hs ha hn)
  case astray => exact fun hup hs ha hn hd => congrArg Host.Outcome.next (rotationStart_astray hup hs ha hn hd)
  case missing =>
    intro s d hd
    obtain ⟨u, hu⟩ := strobeMissing_desynchronises s
    have hmiss : (if (fabOf s d).desync.isSome then s else strobeMissing s) = desynchronise u := by rw [hd, ← hu]; rfl
    refine ⟨desynchronise u, congrArg Host.Outcome.next hmiss, fun e he => desynchronise_silences u he, ?_⟩
    rw [desynchronise_out]
    simp [report]
  case slots => exact fun s h => congrArg Host.Outcome.next (if_neg (not_not_intro h))
  case heater =>
    intro s d n hn
    change execHeaterEffect d n s = _
    rw [execHeaterEffect, Nat.mod_eq_of_lt hn]
  case spare =>
    intro s src k hsrc hk off v hon hoff
    have hidle : ¬ (field v 6 1 = 0 || field v 7 1 = 1) = true := by simp [hon, hoff]
    change execSpareLineLocked src k s = _
    rw [execSpareLineLocked, Nat.mod_eq_of_lt hsrc, Nat.mod_eq_of_lt hk]
    exact congrArg Host.Outcome.next (if_neg hidle)
  case timeout =>
    intro s d n c hn hc hnow
    have hover : ¬ (mapGet (fabOf s d).recover 0 n = 0 || s.now < mapGet (fabOf s d).recover 0 n - 1 + 65536) = true := by
      simp [hc, Nat.not_lt.mpr hnow]
    refine ⟨report (retire s d n) 0x31 (d + 8 * n), ?_, retire_retires s d n, rfl⟩
    change execOpticsRecoveryTimeout d n s = _
    rw [execOpticsRecoveryTimeout, Nat.mod_eq_of_lt hn]
    exact congrArg Host.Outcome.next (if_neg hover)
  case reading =>
    intro s d level hl h0
    have hset : level % 4096 ≠ regReset (0x0200 + 8 * 0) := h0
    have hread := readRing_inLock (by decide) hl hset
    refine ⟨refreshPeers (readRing s d 0 level) d, rfl, ?_⟩
    exact (refreshPeers_reg (by decide) (by rwa [hread])).trans hread
  case repair =>
    intro s rotation pattern hr hp
    refine ⟨_, congrArg Host.Outcome.next (if_neg (by rw [hp]; simp [hr])), ?_, fun d hd => ?_⟩
    · exact List.foldlRecOn (motive := fun t : State => t.ga.repair = some rotation) _ _ rfl fun t ht d _ => ht
    · have harmed := foldl_dieOf (P := fun u v => regRaw v 0x0708 = armedPatctl (regRaw u 0x0708) rotation) (armPattern_ne rotation pattern)
        (fun t e => armPattern_own t e rotation pattern) List.nodup_range (List.mem_range.mpr hd) { s with ga := { s.ga with repair := some rotation } }
      rw [harmed]
      exact armedPatctl_fields _ _

end Sys2Proof.Machine
end

section
/-! PROOFS. The fabric unit during a pattern repair (O44, 25 R440): in its first rotation no channel may leave, so neither a resend nor a queued flit
does, and the clause of FLIT_TRANSMIT on resends asks for one all the same. -/

namespace Sys2Proof.Machine

/-! ## The first rotation of a repair (25 R440) -/

section
variable {s : State} (h : s.ga.repair = some s.rot)
include h

theorem repairAllows_first (vc : Nat) : repairAllows s vc = false := by
  rw [repairAllows, h]
  exact if_pos rfl

theorem pickFrom_first (d peer vc : Nat) : pickFrom s d peer vc = none := by
  have hnone : (fabOf s d).sendQ.filter (fun g => g.vc == vc && mayLeave s d peer g) = [] := by
    simp [mayLeave, repairAllows_first h]
  rw [pickFrom, hnone]
  rfl

theorem pickFlit_first (d peer : Nat) : pickFlit s d peer = none := by
  simp [pickFlit, pickFrom_first h, repairAllows_first h]

/-- A modulator sends idle flits alone: no resend request, no resend and no queued flit leaves. -/
theorem transmit_first (d port pair : Nat) : transmit s d port pair = s := by
  have hresend (peer : Nat) : (fabOf s d).resend.find? (fun r => hopOf r.flit == peer && repairAllows s r.flit.vc) = none :=
    List.find?_eq_none.mpr fun r _ => by simp [repairAllows_first h]
  unfold transmit
  split
  case h_1 => rfl
  case h_2 =>
    simp only [hresend, pickFlit_first h]
    simp only [repairAllows_first h, Bool.and_false, Bool.false_eq_true, if_false, ite_self]

end

/-! ## A resend that waits out the repair -/

/-- A flit to module 7 that is asked for again, in die 0 of a module whose repair begins with this rotation; in cycle 31 flit number 1 of slot 0 starts,
and ring 7 of port 0 has module 7's channel. -/
def askedAgain : Sent := ⟨⟨0, 0, 0, 7, 1⟩, 0, controlFlit 7 [] none⟩
def resendInRepair : State :=
  setDie { State.reset with now := 31, ga := { Garod.init with repair := some 0 } } 0 { Die.init with fab := { Fabric.init with resend := [askedAgain] } }

/-- Refutes O44: the resend stays, since in the first rotation of a repair only idle flits leave; the clause of FLIT_TRANSMIT lacks the premise that the
repair allows the resend's channel. -/
theorem not_fabricUnit : ¬ Obligations.FabricUnit := by
  unfold Obligations.FabricUnit
  rintro ⟨htransmit, -⟩
  obtain ⟨hresend, -⟩ := htransmit resendInRepair 0 0 7 1 (by decide) (by decide) (by decide) (by decide) (by decide) (by decide) (by decide) (by decide)
  obtain ⟨t, ht, hout⟩ := hresend askedAgain rfl
  have hs : t = resendInRepair := (Host.Outcome.next.inj ht).symm.trans (transmit_first rfl 0 0 7)
  rw [hs] at hout
  cases hout

end Sys2Proof.Machine
end

section
/-! PROOFS. Writes of the register object (O46, 14 R283): a store that brings a register back to its reset value takes its entry off the die's
list, and what the register reads as then is its reset value only where the list names no register twice. -/

namespace Sys2Proof.Machine

/-! ## A register listed twice -/

/-- Die 0 lists PREEMPT_GAP (0x3810, reset 4) twice, which no store of the model brings about: its list is not in the canonical form. -/
def gapListedTwice : State := setDie State.reset 0 { Die.init with regs := [(0x3810, 7), (0x3810, 9)] }

/-- The gap of 4 written is the reset value: the store takes the first entry away and leaves the second to be read. -/
theorem gapListedTwice_written : pgap (dieOf (garodWrite gapListedTwice 0 0x3810 4) 0) = 9 := by decide

/-- Refutes O46: the statement speaks of every state, and asks that the gap written is read back also where a die's list of registers names it twice; the
clause of what only Garod writes lacks the premise that the list is in the canonical form. -/
theorem not_registerObject : ¬ Obligations.RegisterObject := by
  unfold Obligations.RegisterObject
  intro h
  obtain ⟨-, -, -, -, -, -, -, -, -, hgarod, -⟩ := h gapListedTwice 0 4
  obtain ⟨-, -, -, hgap⟩ := hgarod 0x3810 rfl (by decide) rfl
  obtain ⟨t, ht, hread, -⟩ := hgap rfl
  have hs : t = garodWrite gapListedTwice 0 0x3810 4 := (Host.Outcome.next.inj ht).symm
  rw [hs, gapListedTwice_written] at hread
  cases hread

end Sys2Proof.Machine
end

section
/-! PROOFS. Trap entry, a trap in handler mode, and the return (O29, 22 R379 to R382). The stores of a context that traps leave the gate one by one, so what is
said of the release of one is said of all of them; the context is set aside, and the return finds in the set-aside record what the entry put there. -/

namespace Sys2Proof.Machine

/-! ## A store of a sorted list -/

/-- A key below all those listed is not listed. -/
theorem mapGet_of_lt {α : Type} {m : List (Nat × α)} {d : α} {k : Nat} (h : ∀ j ∈ m.map (·.1), k < j) : mapGet m d k = d := by
  cases m with
  | nil => rfl
  | cons p t =>
    have hk : k < p.1 := h _ List.mem_cons_self
    simp [mapGet, hk, Nat.ne_of_lt hk]

/-- Where the keys rise, a key reads as it was stored, be it the unlisted value. -/
theorem mapGet_mapSet_sorted {α : Type} [DecidableEq α] {m : List (Nat × α)} (d : α) (k : Nat) (v : α) (h : (m.map (·.1)).Pairwise (· < ·)) :
    mapGet (mapSet m d k v) d k = v := by
  by_cases hv : v = d
  case neg => exact mapGet_mapSet_same _ _ hv
  subst hv
  induction m with
  | nil => simp [mapSet]
  | cons p t ih =>
    obtain ⟨j, u⟩ := p
    obtain ⟨hj, ht⟩ := List.pairwise_cons.mp h
    simp only [mapSet, if_true]
    split
    case isTrue hlt => simp [mapGet, hlt, Nat.ne_of_lt hlt]
    case isFalse hge =>
      split
      case isTrue heq => exact heq ▸ mapGet_of_lt hj
      case isFalse hne => simp [mapGet, hne, hge, ih ht]

/-! ## The release of a context's stores (10 R214) -/

/-- What a store keeps on its way: its place, bytes, tag and poison. -/
def Store.cargo (u : Store) : Target × List Byte × Bool × Bool := (u.tgt, u.data, u.tag, u.bad)
/-- A core whose gate holds nothing of context x. -/
def Core.ungated (c : Core) (x : Nat) : Core := { c with ms := { c.ms with gated := c.ms.gated.filter (fun u => u.ctx != x) } }
/-- A core has sent stores: they follow those it had released, and only request numbers and slots are taken for them. -/
def Core.Sends (ts : List Store) (c e : Core) : Prop :=
  ∃ n b l, l.map Store.cargo = ts.map Store.cargo ∧ e = { c with ms := { c.ms with seq := n, bound := b, released := c.ms.released ++ l } }

theorem Core.Sends.nil (c : Core) : Core.Sends [] c c := ⟨c.ms.seq, c.ms.bound, [], rfl, by rw [List.append_nil]⟩
theorem Core.Sends.append {c e g : Core} {ts us : List Store} (h : Core.Sends ts c e) (h' : Core.Sends us e g) : Core.Sends (ts ++ us) c g := by
  obtain ⟨n, b, l, hl, rfl⟩ := h
  obtain ⟨n', b', l', hl', rfl⟩ := h'
  exact ⟨n', b', l ++ l', by rw [List.map_append, List.map_append, hl, hl'], by rw [List.append_assoc]⟩

/-- The core as a store is released from it: the number taken, slots bound where the store needs them. -/
theorem releaseOne_sends (s : State) (k : Nat) (t : Store) : Core.Sends [t] (coreOf s k) (coreOf (releaseOne s k t) k) := by
  have hsends {q : State} {b : List Nat} {u : Store} (hu : u.cargo = t.cargo)
      (hq : coreOf q k = { coreOf s k with ms := { (coreOf s k).ms with seq := (coreOf s k).ms.seq + 1, bound := b } }) :
      Core.Sends [t] (coreOf s k)
        (coreOf (setCore q k { coreOf q k with ms := { (coreOf q k).ms with released := (coreOf q k).ms.released ++ [u] } }) k) := by
    rw [coreOf_setCore (core_ne_init_of_released (by simp)), hq]
    exact ⟨_, b, [u], congrArg (fun v => [v]) hu, rfl⟩
  unfold releaseOne releaseAs
  have hnumber := coreOf_takeSeq s k
  cases htgt : t.tgt with
  | mem w ps =>
    simp only
    cases farDie k ps with
    | some d => exact hsends (by simp [Store.cargo, htgt]) hnumber
    | none =>
      obtain ⟨b, hb⟩ := coreOf_bindSpan (takeSeq s k).1 k ps
      rw [hnumber] at hb
      exact hsends (by simp [Store.cargo, htgt]) hb
  | buf _ _ => exact hsends (by simp [Store.cargo, htgt]) hnumber
  | swz _ _ => exact hsends (by simp [Store.cargo, htgt]) hnumber
  | reg _ _ => exact hsends (by simp [Store.cargo, htgt]) hnumber
  | remote _ _ _ => exact hsends (by simp [Store.cargo, htgt]) hnumber

theorem foldl_releaseOne_sends (s : State) (k : Nat) (ts : List Store) :
    Core.Sends ts (coreOf s k) (coreOf (ts.foldl (fun s t => releaseOne s k t) s) k) := by
  induction ts generalizing s with
  | nil => exact Core.Sends.nil _
  | cons t ts ih => exact (releaseOne_sends s k t).append (ih (releaseOne s k t))

/-- A context's stores leave the gate in order, once its core's record without them is stored as such. -/
theorem releaseStores_sends {s : State} {k x : Nat} (h : coreOf (setCore s k ((coreOf s k).ungated x)) k = (coreOf s k).ungated x) :
    Core.Sends ((coreOf s k).ms.gated.filter (fun u => u.ctx == x)) ((coreOf s k).ungated x) (coreOf (releaseStores s k x) k) := by
  have hfold := foldl_releaseOne_sends (setCore s k ((coreOf s k).ungated x)) k ((coreOf s k).ms.gated.filter (fun u => u.ctx == x))
  rwa [h] at hfold

@[simp] theorem ctxOf_releaseStores (s : State) (k x l y : Nat) : ctxOf (releaseStores s k x) l y = ctxOf s l y := by
  rw [ctxOf, (releaseStores_coresOnly s k x).ctxs]; rfl

/-! ## What leaving issue touches (22 R382, 07 R143) -/

/-- Only the records of cores and contexts differ. -/
def AgentsOnly (s t : State) : Prop := t = { s with cores := t.cores, ctxs := t.ctxs }

theorem AgentsOnly.trans {s t u : State} (h : AgentsOnly s t) (g : AgentsOnly t u) : AgentsOnly s u := by
  unfold AgentsOnly at *; rw [g, h]
theorem CoresOnly.agentsOnly {s t : State} (h : CoresOnly s t) : AgentsOnly s t := by
  unfold CoresOnly at h; unfold AgentsOnly; rw [h]
theorem setCtx_agentsOnly (s : State) (k x : Nat) (c : Ctx) : AgentsOnly s (setCtx s k x c) := rfl
theorem AgentsOnly.mem {s t : State} (h : AgentsOnly s t) : t.mem = s.mem := by rw [h]
theorem AgentsOnly.out {s t : State} (h : AgentsOnly s t) : t.out = s.out := by rw [h]

theorem markHere_agentsOnly (s : State) (k x : Nat) : AgentsOnly s (markHere s k x) :=
  (releaseStores_coresOnly s k x).agentsOnly.trans (setCtx_agentsOnly _ k x _)
theorem leaveIssue_agentsOnly (s : State) (k x : Nat) : AgentsOnly s (leaveIssue s k x) := by
  unfold leaveIssue
  simp only
  split
  · exact (markHere_agentsOnly s k x).trans (setCore_coresOnly _ k _).agentsOnly
  · exact markHere_agentsOnly s k x
theorem haltHere_agentsOnly (s : State) (k x : Nat) : AgentsOnly s (haltHere s k x) :=
  (leaveIssue_agentsOnly s k x).trans (setCtx_agentsOnly _ k x _)

theorem ctx_ne_init_of_hmode {c : Ctx} (h : c.sp.hmode = true) : c ≠ Ctx.init := fun he => by rw [he] at h; cases h

/-- A context in handler mode that leaves issue has its restart point moved up, and nothing else. -/
theorem ctxOf_leaveIssue {s : State} {k x : Nat} (h : (ctxOf s k x).sp.hmode = true) : ctxOf (leaveIssue s k x) k x = placeMark (ctxOf s k x) := by
  have hmark : ctxOf (markHere s k x) k x = placeMark (ctxOf s k x) := by
    rw [markHere, ctxOf_releaseStores]
    exact ctxOf_setCtx (ctx_ne_init_of_hmode h)
  unfold leaveIssue
  simp only
  split
  · rw [ctxOf_setCore, hmark]
  · exact hmark

/-! ## Entry and return (22 R379 to R381) -/

theorem trapEntry_outside {s : State} {k x cause addr info : Nat} {slot : Option Nat} (h : (ctxOf s k x).sp.hmode = false) :
    trapEntry s k x cause addr slot info = setCtx (releaseStores s k x) k x
      (enterTrap (ctxOf s k x) (coreOf (releaseStores s k x) k).tvec (coreOf (releaseStores s k x) k).replayv cause addr slot info) := by
  simp [trapEntry, h]

/-- Handler mode is on, so the context of a trap is never that of reset, and is read as it was entered. -/
theorem enterTrap_ne_init {c : Ctx} {tvec replayv cause epc info : Nat} {slot : Option Nat} : enterTrap c tvec replayv cause epc slot info ≠ Ctx.init :=
  ctx_ne_init_of_hmode rfl
theorem ctxOf_trapEntry {s : State} {k x cause addr info : Nat} {slot : Option Nat} (h : (ctxOf s k x).sp.hmode = false) :
    ctxOf (trapEntry s k x cause addr slot info) k x =
      enterTrap (ctxOf s k x) (coreOf (releaseStores s k x) k).tvec (coreOf (releaseStores s k x) k).replayv cause addr slot info := by
  rw [trapEntry_outside h, ctxOf_setCtx enterTrap_ne_init]

theorem trapEntry_handler {s : State} {k x cause addr info : Nat} {slot : Option Nat} (h : (ctxOf s k x).sp.hmode = true) :
    trapEntry s k x cause addr slot info = haltHere (setCtx (report s cause info) k x { ctxOf s k x with pc := addr }) k x := by
  simp only [trapEntry, h, if_true]; rfl

/-- A trap in handler mode leaves the context halted at the group, with what it had. -/
theorem ctxOf_trapEntry_handler {s : State} {k x cause addr info : Nat} {slot : Option Nat} (h : (ctxOf s k x).sp.hmode = true) :
    ctxOf (trapEntry s k x cause addr slot info) k x = haltCtx (placeMark { ctxOf s k x with pc := addr }) := by
  have hset : ctxOf (setCtx (report s cause info) k x { ctxOf s k x with pc := addr }) k x = { ctxOf s k x with pc := addr } :=
    ctxOf_setCtx (ctx_ne_init_of_hmode h)
  rw [trapEntry_handler h, haltHere, ctxOf_leaveIssue (by rw [hset]; exact h), hset]
  exact ctxOf_setCtx (ctx_ne_init_of_hmode h)

/-- The return of a handler, with the record it finds set aside. -/
theorem leaveTrap_aside {c : Ctx} {a : Aside} (h : c.aside = some a) (pc : Nat) :
    leaveTrap c pc =
      (let shift : Pend → Pend := fun p => { p with due := p.due + c.clock - a.clock }
       { c with
         pc := pc, sp := { c.sp with hmode := false }, aside := none
         regs := { c.regs with armed := a.armed, nest := a.nest, ka := a.ka, kb := a.kb, shadow := a.shadow.map shift ++ c.regs.shadow, loopBuf := a.loopBuf }
         markRegs := { a.markRegs with shadow := a.markRegs.shadow.map shift }
         markClock := a.markClock + c.clock - a.clock }) := by
  simp only [leaveTrap, h]

/-- Settles O29: the entry by what it stores and what the release of the stores leaves, the trap in handler mode by its halt, the return by the record that
the entry set aside. -/
theorem Proofs.trapEntry : Obligations.TrapEntry := by
  unfold Obligations.TrapEntry
  refine ⟨?outside, ?handler, ?returns⟩
  case outside =>
    intro s k x cause addr info slot hm c t e
    have he : e = enterTrap c _ _ cause addr slot info := ctxOf_trapEntry hm
    have ht : t = setCtx (releaseStores s k x) k x _ := trapEntry_outside hm
    refine ⟨?sp, ?pc, ?hold, ?aside, ?regs, ?rest, ?frame, ?others, ?stores⟩
    case sp => rw [he]; cases slot <;> rfl
    case pc => rw [he]; rfl
    case hold => rw [he]; rfl
    case aside => rw [he]; rfl
    case regs => rw [he]; rfl
    case rest => rw [he]; exact ⟨rfl, rfl, rfl, rfl, rfl, rfl, rfl, rfl, rfl, rfl⟩
    case frame =>
      rw [ht]
      exact (releaseStores_coresOnly s k x).agentsOnly.trans (setCtx_agentsOnly _ k x _)
    case others =>
      intro k' x' hne
      rw [ht, ← ctxOf_releaseStores s k x k' x']
      exact mapGet_mapSet_ne _ enterTrap_ne_init hne
    case stores =>
      intro hsorted key
      obtain ⟨n, b, l, hl, hcore⟩ := releaseStores_sends (x := x) (mapGet_mapSet_sorted (Core.init k) k ((coreOf s k).ungated x) hsorted)
      rw [ht, coreOf_setCtx, hcore]
      refine ⟨rfl, rfl, rfl, ?_⟩
      rw [List.map_append]
      exact congrArg _ hl
  case handler =>
    intro s k x cause addr info slot hm t
    have hc : ctxOf t k x = haltCtx (placeMark { ctxOf s k x with pc := addr }) := ctxOf_trapEntry_handler hm
    have ht : t = haltHere (setCtx (report s cause info) k x { ctxOf s k x with pc := addr }) k x := trapEntry_handler hm
    have hout : t.out = (report s cause info).out := by rw [ht]; exact (haltHere_agentsOnly _ k x).out
    have hmem : t.mem = s.mem := by rw [ht]; exact (haltHere_agentsOnly _ k x).mem
    rw [hc, hout]
    exact ⟨rfl, rfl, rfl, rfl, rfl, rfl, rfl, hmem⟩
  case returns =>
    intro c h tvec replayv cause epc info pc slot haside r
    have hr : r = _ := leaveTrap_aside (haside.trans rfl) pc
    rw [hr]
    refine ⟨rfl, rfl, rfl, rfl, rfl, fun p hp n hn => ⟨{ p with due := p.due + h.clock - c.clock }, ?_, rfl, ?_, rfl, rfl⟩⟩
    · exact List.mem_append_left _ (List.mem_map_of_mem hp)
    · show p.due + h.clock - c.clock = h.clock + n
      omega

end Sys2Proof.Machine
end

section
/-! PROOFS. Causes that come to a core from outside its group (O33, 22 R376, R378, R379, R382, R393): each is found where the statement says it lies, and is
then entered as any trap is; the cycle that counts as STALL and the first cycle of the wait leave what the entry wrote. -/

namespace Sys2Proof.Machine

/-! ## A trap of the group at issue (22 R379) -/

/-- What a trap leaves in the trap registers of its context. -/
def Special.Entered (sp : Special) (cause pc eslot info : Nat) : Prop :=
  sp.cause = cause % 64 ∧ sp.epc = pc / 8 * 8 % 2 ^ 48 ∧ sp.eslot = eslot ∧ sp.einfo = BitVec.ofNat 64 info ∧ sp.hmode = true

@[simp] theorem ctxOf_countCycle (s : State) (busy : Bool) (l y : Nat) : ctxOf (countCycle s busy) l y = ctxOf s l y := by
  unfold countCycle; simp only; split <;> rfl

/-- With nothing pending nothing lands. -/
theorem landDue_nothing {s : State} {k x : Nat} (h : (ctxOf s k x).regs.shadow = []) : landDue s k x = setCtx s k x (ctxOf s k x) := by
  have hregs : { (ctxOf s k x).regs with shadow := [] } = (ctxOf s k x).regs := by rw [← h]
  simp only [landDue, h, List.filter_nil, List.foldl_nil, hregs]

/-- A context in the second cycle of its wait for the handler's first group. -/
def Ctx.waited (c : Ctx) : Ctx := { c with hold := c.hold - 1, clock := c.clock + 1 }

/-- A cycle of that wait with nothing pending (R380): the context's clock moves, and no core does anything. -/
theorem holdTick_nothing {s : State} {k x : Nat} (hm : (ctxOf s k x).sp.hmode = true) (hp : (ctxOf s k x).regs.shadow = []) :
    ctxOf (holdTick s k x) k x = (ctxOf s k x).waited ∧ ∀ l, coreOf (holdTick s k x) l = coreOf s l := by
  have hheld : ctxOf (setCtx s k x { ctxOf s k x with hold := (ctxOf s k x).hold - 1 }) k x = { ctxOf s k x with hold := (ctxOf s k x).hold - 1 } :=
    ctxOf_setCtx (ctx_ne_init_of_hmode hm)
  have hwaited (t : State) : ctxOf (setCtx t k x (ctxOf s k x).waited) k x = (ctxOf s k x).waited := ctxOf_setCtx (ctx_ne_init_of_hmode hm)
  have htick (t : State) : landDue (setCtx t k x (ctxOf s k x).waited) k x = setCtx (setCtx t k x (ctxOf s k x).waited) k x (ctxOf s k x).waited := by
    rw [landDue_nothing (by rw [hwaited]; exact hp), hwaited]
  have hhold : ∃ t, holdTick s k x = setCtx t k x (ctxOf s k x).waited ∧ t.cores = s.cores := by
    simp only [holdTick, tick, hheld]
    exact ⟨_, htick _, rfl⟩
  obtain ⟨t, ht, hcores⟩ := hhold
  rw [ht]
  exact ⟨hwaited t, fun l => by rw [coreOf_setCtx, coreOf, hcores]; rfl⟩

/-- A trap taken outside handler mode: its context has what the entry wrote, and its core what the release of its stores left. -/
theorem takeTrap_outside {s : State} {k x cause addr info : Nat} {slot : Option Nat} (h : (ctxOf s k x).sp.hmode = false) :
    (ctxOf (takeTrap s k x cause addr slot info) k x).sp.Entered cause addr (eslotOf slot) info
    ∧ (ctxOf (takeTrap s k x cause addr slot info) k x).pendA = (ctxOf s k x).pendA
    ∧ ∀ l, coreOf (takeTrap s k x cause addr slot info) l = coreOf (releaseStores (countCycle s false) k x) l := by
  have hm : (ctxOf (countCycle s false) k x).sp.hmode = false := by rwa [ctxOf_countCycle]
  have htake : takeTrap s k x cause addr slot info = holdTick (trapEntry (countCycle s false) k x cause addr slot info) k x := by
    simp only [takeTrap, hm, Bool.false_eq_true, if_false]
  have hctx := ctxOf_trapEntry (cause := cause) (addr := addr) (slot := slot) (info := info) hm
  obtain ⟨hc, hcore⟩ := holdTick_nothing (s := trapEntry (countCycle s false) k x cause addr slot info) (by rw [hctx]; rfl) (by rw [hctx]; rfl)
  rw [htake, hc, hctx]
  refine ⟨⟨rfl, rfl, rfl, rfl, rfl⟩, ?_, fun l => ?_⟩
  · rw [← ctxOf_countCycle s false]; rfl
  · rw [hcore, trapEntry_outside hm]; rfl

/-! ## Issue is given up (22 R378) -/

theorem setCore_holder {s : State} {k x : Nat} {c : Core} (h : c.holder = some x) : (coreOf (setCore s k c) k).holder = some x := by
  rw [coreOf_setCore_held s h, h]

theorem countCycle_holder {s : State} {x : Nat} (h : (coreOf s s.core).holder = some x) (busy : Bool) :
    (coreOf (countCycle s busy) s.core).holder = some x := by
  have hmissed : (coreOf (countMissed s s.core s.now) s.core).holder = some x := setCore_holder h
  unfold countCycle
  simp only
  split
  · exact setCore_holder hmissed
  · exact setCore_holder hmissed

theorem releaseStores_holder {s : State} {k x y : Nat} (h : (coreOf s k).holder = some y) : (coreOf (releaseStores s k x) k).holder = some y := by
  obtain ⟨n, b, l, -, hcore⟩ := releaseStores_sends (x := x) (coreOf_setCore_held s (c := (coreOf s k).ungated x) h)
  rw [hcore]; exact h

theorem core_ne_init_of_exchange {k : Nat} {c : Core} (h : c.exchLeft ≠ 0) : c ≠ Core.init k := fun he => h (he ▸ rfl)

/-- A context that leaves issue holds it no more. -/
theorem leaveIssue_holder {s : State} {k x : Nat} (h : (coreOf s k).holder = some x) : (coreOf (leaveIssue s k x) k).holder = none := by
  have hmark : (coreOf (markHere s k x) k).holder = some x := releaseStores_holder h
  simp only [leaveIssue, hmark, if_true]
  rw [coreOf_setCore (core_ne_init_of_exchange (Nat.succ_ne_zero 3))]

/-! ## The lowest pending cause (22 R382) -/

/-- Of the cause held and the next one, the lower is held, the one held where they are equal. -/
def lowerCause (b : Option (Nat × Nat)) (p : Nat × Nat) : Option (Nat × Nat) :=
  match b with
  | some q => if p.1 < q.1 then some p else b
  | none => some p

theorem lowestCause_fold (l : List (Nat × Nat)) : lowestCause l = l.foldl lowerCause none := rfl

theorem lowerCause_above {p q : Nat × Nat} {b : Option (Nat × Nat)} (hb : ∀ r, b = some r → p.1 < r.1) (hq : p.1 < q.1) :
    ∀ r, lowerCause b q = some r → p.1 < r.1 := by
  cases b with
  | none => rintro _ ⟨⟩; exact hq
  | some a =>
    intro r hr
    rw [lowerCause] at hr
    split at hr
    · cases hr; exact hq
    · exact hb r hr

/-- The search holds a cause above p until it comes to p, and after it none is lower. -/
theorem lowestCause_eq {p : Nat × Nat} {before after : List (Nat × Nat)} (hb : ∀ q ∈ before, p.1 < q.1) (ha : ∀ q ∈ after, p.1 ≤ q.1) :
    lowestCause (before ++ p :: after) = some p := by
  have habove : ∀ r, before.foldl lowerCause none = some r → p.1 < r.1 :=
    List.foldlRecOn before lowerCause (motive := fun b => ∀ r, b = some r → p.1 < r.1) (fun _ h => by cases h) fun _ h q hq => lowerCause_above h (hb q hq)
  have htakes : lowerCause (before.foldl lowerCause none) p = some p := by
    cases h : before.foldl lowerCause none with
    | none => rfl
    | some r => exact if_pos (habove r h)
  have hstays : after.foldl lowerCause (some p) = some p :=
    List.foldlRecOn after lowerCause (motive := fun b => b = some p) rfl fun _ h q hq => by rw [h]; exact if_neg (Nat.not_lt.mpr (ha q hq))
  rw [lowestCause_fold, List.foldl_append, List.foldl_cons, htakes, hstays]

/-! ## Arrivals withdrawn (22 R378) -/

@[simp] theorem ctxOf_checkLine (s : State) (k l m y : Nat) : ctxOf (checkLine s k l) m y = ctxOf s m y := by
  unfold checkLine
  simp only
  split
  · split <;> rfl
  · rfl
@[simp] theorem ctxOf_withdraw (s : State) (k mask m y : Nat) : ctxOf (withdraw s k mask) m y = ctxOf s m y := by
  refine List.foldlRecOn (motive := fun t => ctxOf t m y = ctxOf s m y) _ _ rfl fun t ht l _ => ?_
  split
  · rw [ctxOf_checkLine, ht]
  · exact ht

/-! ## Machine checks (22 R393) -/

/-- A machine check reaches its context whatever its mode: the trap is entered at its group, and a freeze ends. -/
theorem checkCtx_entered {s : State} {k x info : Nat} (ht : (ctxOf s k x).task ≠ none) (he : (ctxOf s k x).status ≠ .ending)
    (hp : (ctxOf s k x).status ≠ .parked) :
    (ctxOf (checkCtx s k x info) k x).sp.Entered 0x3F (ctxOf s k x).pc 0 info ∧ (ctxOf (checkCtx s k x info) k x).frozen = false := by
  unfold checkCtx
  extract_lets c co s1 s2 c2 entered
  have hreached : ¬ (c.task.isNone || c.status == .ending || c.status == .parked) = true := by simp [c, ht, he, hp]
  have hs1 : ctxOf s1 k x = c := by
    simp only [s1]
    split
    · split
      · rw [ctxOf_setCore, ctxOf_withdraw]
      · rfl
    · rfl
  have hc2 : c2 = c := (ctxOf_releaseStores s1 k x k x).trans hs1
  rw [if_neg hreached, ctxOf_setCtx (ctx_ne_init_of_hmode (c := { entered with frozen := false }) rfl)]
  simp only [entered, hc2]
  exact ⟨⟨rfl, rfl, rfl, rfl, rfl⟩, trivial⟩

/-- A core's own source (1), and those of a unit that serves one context (3, 5, 7), reach the context they name. -/
theorem machineCheck_context {source k x : Nat} (hs : source = 1 ∨ source = 3 ∨ source = 5 ∨ source = 7) (hx : x < 8) (info : Nat) (s : State) :
    ∃ t, ctxOf t k x = ctxOf s k x ∧ execMachineCheck source (8 * k + x) info s =
      .next (checkCtx t k x (source + 256 * x + 65536 * (info % 2 ^ 48))) := by
  have hcore : (8 * k + x) / 8 = k := by omega
  have hctx : (8 * k + x) % 8 = x := by omega
  have hreaches (t : State) : checkReaches t source (8 * k + x) = [8 * k + x] := by
    obtain rfl | rfl | rfl | rfl := hs <;> rfl
  have hsource : source % 256 = source := by omega
  have h9 : source ≠ 9 := by omega
  have h2 : source ≠ 2 := by omega
  refine ⟨report s 0x3F (source + 256 * x + 65536 * (info % 2 ^ 48)), rfl, ?_⟩
  simp only [execMachineCheck, hreaches, h9, h2, if_false, List.foldl_cons, List.foldl_nil, hcore, hctx, hsource, Nat.reducePow]

/-! ## The events -/

theorem holdTimeout_held {s : State} {k x : Nat} (hh : (coreOf s k).holder = some x) (hn : 65536 ≤ (coreOf s k).heldOff) :
    holdTimeout s k = leaveIssue (takeTrap (actAs s k x) k x 0x27 (ctxOf s k x).pc none 0) k x := by
  simp only [holdTimeout, hh, Nat.not_lt.mpr hn, if_false]

theorem syncTimeout_due {s : State} {k x ls since : Nat} (hh : (coreOf s k).holder = some x) (hw : (coreOf s k).syncWait = some (ls, since))
    (hn : since + 2 ^ 20 ≤ s.now) : syncTimeout s k = takeTrap (withdraw (actAs s k x) k ls) k x 0x25 (ctxOf s k x).pc (some 7) 0 := by
  have hpc : ctxOf (withdraw (actAs s k x) k ls) k x = ctxOf s k x := ctxOf_withdraw ..
  simp only [syncTimeout, hh, hw, show since + 1048576 ≤ s.now from hn, if_true, hpc]

/-- Settles O33: each cause is found where it lies, and the trap is entered. -/
theorem outsideCauses : Obligations.OutsideCauses := by
  unfold Obligations.OutsideCauses
  intro entered
  refine ⟨?async, ?hold, ?sync, ?illegal, ?check⟩
  case async =>
    rintro s k x p hh hw hs hm ⟨before, after, hpend, hb, ha⟩
    have hset : ctxOf (setCtx (actAs s k x) k x { ctxOf s k x with pendA := (ctxOf s k x).pendA.erase p }) k x =
        { ctxOf s k x with pendA := (ctxOf s k x).pendA.erase p } := ctxOf_setCtx (ctx_ne_init_of_bound hs)
    have htake : takeAsync s k x =
        takeTrap (setCtx (actAs s k x) k x { ctxOf s k x with pendA := (ctxOf s k x).pendA.erase p }) k x p.1 (ctxOf s k x).pc none p.2 := by
      have hready : asyncReady s k x = true := by simp [asyncReady, hpend, hm, hw]
      have hlow : lowestCause (ctxOf s k x).pendA = some p := by rw [hpend]; exact lowestCause_eq hb ha
      simp only [takeAsync, hready, hlow, Bool.not_true, Bool.false_eq_true, if_false]
    obtain ⟨hsp, hpa, -⟩ := takeTrap_outside (cause := p.1) (addr := (ctxOf s k x).pc) (info := p.2) (slot := none) (by rw [hset]; exact hm)
    rw [hset] at hpa
    have hexec : execAsyncTrapTaken k s = .next (takeAsync s k x) := by simp only [execAsyncTrapTaken, hh]
    rw [htake] at hexec
    exact ⟨_, hexec, hsp, hpa⟩
  case hold =>
    intro s k x hh hn hm
    obtain ⟨hsp, -, hcore⟩ := takeTrap_outside (s := actAs s k x) (cause := 0x27) (addr := (ctxOf s k x).pc) (info := 0) (slot := none) hm
    have ⟨_, _, _, _, hmode⟩ := hsp
    have hheld : (coreOf (takeTrap (actAs s k x) k x 0x27 (ctxOf s k x).pc none 0) k).holder = some x := by
      rw [hcore]; exact releaseStores_holder (countCycle_holder (s := actAs s k x) hh false)
    refine ⟨_, congrArg Host.Outcome.next (holdTimeout_held hh hn), ?_, leaveIssue_holder hheld⟩
    rw [ctxOf_leaveIssue hmode]
    exact hsp
  case sync =>
    intro s k x ls since hh hw hn hm
    refine ⟨_, congrArg Host.Outcome.next (syncTimeout_due hh hw hn), (takeTrap_outside ?_).1⟩
    rw [ctxOf_withdraw]; exact hm
  case illegal =>
    intro s cause slot info hm
    refine ⟨_, rfl, ?_⟩
    have hsp := (takeTrap_outside (cause := cause) (addr := (actCtx s).pc) (info := info) (slot := if slot < 8 then some slot else none) hm).1
    have heslot : eslotOf (if slot < 8 then some slot else none) = if slot < 8 then 8 + slot else 0 := by
      split
      case isTrue h => exact congrArg (8 + ·) (Nat.mod_eq_of_lt h)
      case isFalse => rfl
    rw [heslot] at hsp
    exact hsp
  case check =>
    intro s source k x info hsource hx ht he hp
    obtain ⟨t, hctx, hexec⟩ := machineCheck_context (k := k) hsource hx info s
    rw [← hctx] at ht he hp ⊢
    exact ⟨_, hexec, checkCtx_entered ht he hp⟩

end Sys2Proof.Machine
end

section
/-! PROOFS. The host's accesses (O40, 18 R350, R351): one that finds nothing before it is performed at once, and the page is read and written by its registers. -/

namespace Sys2Proof.Machine

/-! ## Device memory (18 R350) -/

theorem pieces_none (m p fuel : Nat) : pieces m p 0 fuel = [] := by cases fuel <;> rfl
/-- A span within one 256-byte line is one piece. -/
theorem pieces_one {p n : Nat} (hn : 0 < n) (h : p % 256 + n ≤ 256) : pieces 256 p n (n + 1) = [(p, n)] := by
  have hmin : Nat.min n (256 - p % 256) = n := Nat.min_eq_left (by omega)
  simp only [pieces, hn.ne', if_false, hmin, Nat.sub_self, pieces_none]

/-- An access that finds no other waiting and no stack held is performed at once. -/
theorem hostCxlAccess_performs {s : State} {kind addr len data : Nat} (hp : s.ga.power = true) (hk : kind < 2) (hn : 0 < len)
    (ha : addr + len ≤ 2 ^ 40) (hq : s.ga.hostQ = []) (hh : hdmHeld s addr len = false) :
    execHostCxlAccess kind addr len data s = .next (hdmAccess s kind addr len data) := by
  have hin : ¬ deviceBytes < addr + len := Nat.not_lt.mpr ha
  have hqueue : ({ s with ga := { s.ga with hostQ := [] } } : State) = s := by rw [← hq]
  have hturn : hdmTurn { s with ga := { s.ga with hostQ := [(kind, addr, len, data)] } } 1 = hdmAccess s kind addr len data := by
    have hheld : hdmHeld { s with ga := { s.ga with hostQ := [(kind, addr, len, data)] } } addr len = false := hh
    simp only [hdmTurn, hheld, Bool.false_eq_true, if_false, hqueue]
  unfold execHostCxlAccess
  rw [if_neg (by simp [hp]), if_pos hk, if_neg (by simp [hn.ne', hin]), hq]
  exact congrArg Host.Outcome.next hturn

/-- An access of 8 bytes to a register of the page. -/
theorem hostCxlAccess_page {s : State} {off : Nat} (hp : s.ga.power = true) (ho : off % 8 = 0) (data : Nat) :
    execHostCxlAccess 2 off 8 data s = .next { s with out := { s.out with reads := s.out.reads ++ [leBytes 8 (pageRead s off)] } }
    ∧ execHostCxlAccess 3 off 8 data s = .next (pageWrite s off (data % 2 ^ 64)) := by
  simp only [execHostCxlAccess, hp, ho]
  exact ⟨rfl, rfl⟩

/-- Settles O40: accesses to device memory in order, and the registers of the page one by one. -/
theorem hostAccesses : Obligations.HostAccesses := by
  unfold Obligations.HostAccesses
  refine ⟨?memory, ?page⟩
  case memory =>
    intro s addr len data hp hn ha hq hh
    refine ⟨hostCxlAccess_performs hp (by decide) hn ha hq hh, fun hline => ?_⟩
    refine (hostCxlAccess_performs hp (by decide) hn ha hq hh).trans ?_
    have hall : ((leBytes len data).drop (addr - addr)).take len = leBytes len data := by
      rw [Nat.sub_self, List.drop_zero, List.take_of_length_le (Nat.le_of_eq (leBytes_length len data))]
    simp only [hdmAccess, pieces_one hn hline, List.foldl_cons, List.foldl_nil, hall]
    rfl
  case page =>
    intro s data hp reads
    have hread {off v : Nat} (ho : off % 8 = 0) (hv : pageRead s off = v) : reads off v := by
      rw [← hv]; exact (hostCxlAccess_page hp ho data).1
    refine ⟨hread rfl rfl, hread rfl rfl, hread rfl rfl, hread rfl rfl, hread rfl rfl, hread rfl rfl, hread rfl rfl, fun hd => ?_⟩
    have hwrite {off : Nat} {t : State} (ho : off % 8 = 0) (ht : pageWrite s off data = t) : execHostCxlAccess 3 off 8 data s = .next t := by
      rw [(hostCxlAccess_page hp ho data).2, Nat.mod_eq_of_lt hd, ht]
    exact ⟨hwrite rfl rfl, hwrite rfl rfl, hwrite rfl rfl, hwrite rfl rfl⟩

end Sys2Proof.Machine
end

section
/-! PROOFS. What the host is told at the end of bring-up (O47, 18 R361, 24 R427): first the rows that no spare row has replaced, each again, then the shortfall. -/

namespace Sys2Proof.Machine

/-- Rows reported one after the other. -/
theorem foldl_report_pldm (rows : List Nat) (s : State) :
    (rows.foldl (fun s r => report s 0x105 r) s).out.pldm = s.out.pldm ++ rows.map (fun r => (0x105, r)) := by
  induction rows generalizing s with
  | nil => simp
  | cons r rows ih => rw [List.foldl_cons, ih, List.map_cons]; exact List.append_assoc ..

/-- Nothing is told to the host, and no row is repaired or logged. -/
def Quiet (s t : State) : Prop := t.out = s.out ∧ t.repairs = s.repairs

/-- The measurement of the fibres is quiet. -/
theorem measureFibre_quiet (s : State) (d : Nat) : Quiet s (measureFibre s d) := List.foldlRecOn _ _ ⟨rfl, rfl⟩ fun _ h _ _ => h
theorem foldl_measureFibre_quiet (s : State) (ds : List Nat) : Quiet s (ds.foldl measureFibre s) :=
  List.foldlRecOn _ _ ⟨rfl, rfl⟩ fun t ⟨ho, hr⟩ d _ => ⟨(measureFibre_quiet t d).1.trans ho, (measureFibre_quiet t d).2.trans hr⟩

/-- Bring-up ends without a shortfall: the host is told of every worn row. -/
theorem bringupDone_worn {s : State} (hb : s.ga.boot = 2) :
    ∃ t, execBringupDone 0 s = .next t ∧ t.out.pldm = s.out.pldm ++ s.repairs.worn.map (fun r => (0x105, r)) := by
  obtain ⟨hout, hrepairs⟩ := foldl_measureFibre_quiet s (List.range 8)
  unfold execBringupDone
  rw [if_neg (not_not_intro hb)]
  refine ⟨_, rfl, ?_⟩
  simp only [Nat.zero_mod, if_true]
  rw [foldl_report_pldm, ← hout, ← hrepairs]
  rfl

/-- A verified module with one worn row, as maintenance leaves it (log 43). -/
def wornRow : State := { State.reset with ga := { Garod.init with boot := 2 }, repairs := ⟨0, [], [], [], [5]⟩ }

/-- Refutes O47: at the end of bring-up row 5 is reported again (24 R427), while the clause of BRINGUP_DONE has the host told of the shortfall alone; it lacks the
premise that no row is worn. -/
theorem not_powerAndBringUp : ¬ Obligations.PowerAndBringUp := by
  unfold Obligations.PowerAndBringUp
  intro h
  obtain ⟨-, -, hdone, -⟩ := h wornRow
  obtain ⟨t, ht, -, -, hnone⟩ := hdone 0 rfl
  obtain ⟨u, hu, htold⟩ := bringupDone_worn (s := wornRow) rfl
  have hsame : t = u := Host.Outcome.next.inj (ht.symm.trans hu)
  rw [hsame, htold] at hnone
  cases hnone

end Sys2Proof.Machine
end

section
/-! PROOFS. The world instructions (O27, 17 R330 to R347, 26 R449): what each does by the state of its world, its fork and its rival; the statement then follows
by the laws of issue. -/

namespace Sys2Proof.Machine

theorem began_unpoisoned (s : State) (i : Instr) : (began s i).poisoned = false := rfl

/-! ## WFORK (17 R332 to R335) -/

section
variable {f : YX} {j : Iss}

/-- What is asked of a fork before tags are counted: its registers have landed, and its world has depth left. -/
def MayFork (j : Iss) : Prop := writesOpen j.c0 = false ∧ (worldOf j.st j.ctx.world).depth ≠ 4

theorem opWfork_waits (h : writesOpen j.c0 = true) : opWfork f j = stallNow := by simp only [opWfork, h, if_true]
theorem opWfork_deep (h : writesOpen j.c0 = false) (hd : (worldOf j.st j.ctx.world).depth = 4) :
    opWfork f j = trapNow 0x3D (worldInfo j.st j.ctx.world 0 false) := by
  simp only [opWfork, h, hd, Bool.false_eq_true, if_false, if_true]

theorem opWfork_fewTags (h : MayFork j) (ht : (freeWorlds j.st).length < f.fn % 4 + 2) :
    opWfork f j = trapNow 0x39 (worldInfo j.st j.ctx.world (freeWorlds j.st).length false) := by
  obtain ⟨ho, hd⟩ := h
  simp only [opWfork, ho, hd, ht, Bool.false_eq_true, if_false, if_true]

theorem opWfork_noEntry (h : MayFork j) (ht : f.fn % 4 + 2 ≤ (freeWorlds j.st).length) (hf : freeFork j.st = none) :
    opWfork f j = trapNow 0x39 (worldInfo j.st j.ctx.world (freeWorlds j.st).length true) := by
  obtain ⟨ho, hd⟩ := h
  simp only [opWfork, ho, hd, Nat.not_lt.mpr ht, hf, Bool.false_eq_true, if_false]

/-- The label of a WFORK (R335). -/
def forkLabel (f : YX) (j : Iss) : Nat := (((j.g.sy : Int) + 8 * signed 18 (field f.fn 2 18)) % (2 ^ 48 : Nat)).toNat

theorem opWfork_forks {fk jn : Nat} (h : MayFork j) (ht : f.fn % 4 + 2 ≤ (freeWorlds j.st).length) (hf : freeFork j.st = some fk)
    (hj : freeJoin j.st j.die = some jn) (hr : f.fn % 4 + 2 ≤ freeCount j.st j.die) :
    opWfork f j =
      (let n := f.fn % 4 + 2
       let join := 32768 + 4096 * j.die + jn
       let recs := freeRecs j.st j.die n
       .ok ((j.writeS 8 f.xa (handleOf join fk 0 n)).afterMark (fun s =>
        let s := setJoin s j.die jn ⟨.opened, 0, 0, 0, s.now + 1⟩
        let s := setFork s fk ⟨j.ctx.world, n, join, jobIdOf s s.core s.cx, ((freeWorlds j.st).take n).map (fun t => ⟨t, .running, 0⟩)⟩
        setEntries (makeRivals s f.xa fk join n (freeWorlds j.st) recs) j.die (forkLabel f j) recs))) := by
  obtain ⟨ho, hd⟩ := h
  simp only [opWfork, ho, hd, Nat.not_lt.mpr ht, hf, hj, Nat.not_lt.mpr hr, Bool.false_eq_true, if_false]
  rfl

end

/-! ## WDONE and WDISCARD (17 R342, R343) -/

/-- A running world is done with its score; what it has forked and not chosen goes. -/
def endWorld (w score : Nat) (s : State) : State :=
  let e := worldOf s w
  let s := if e.state = .running then noteRival (setWorld s w { e with state := .done, score := score }) w
    (fun r => { r with state := .done, score := score }) else s
  dropForksOf s w

theorem opWdone_ends {f : YX} {j : Iss} (hc : Clean [f.xa] j) (hw : j.ctx.world ≠ 0) :
    opWdone f j = .ok { j.atEnd (endWorld j.ctx.world ((readS j.ctx f.xa).toNat % 2 ^ 32)) with stop := .exit } := by
  simp only [opWdone, hw, if_false, s_clean (hc _ List.mem_cons_self), beq_iff_eq]
  rfl
theorem opWdone_base {f : YX} {j : Iss} (hw : j.ctx.world = 0) : opWdone f j = trapNow 0x3E (worldInfo j.st 0 0 false) := by
  simp only [opWdone, hw, if_true]
theorem opWdiscard_ends {f : YX} {j : Iss} (hw : j.ctx.world ≠ 0) :
    opWdiscard f j = .ok { j.atEnd (fun s => discardWorld s j.ctx.world 6) with stop := .exit } := by
  simp only [opWdiscard, hw, if_false]
theorem opWdiscard_base {f : YX} {j : Iss} (hw : j.ctx.world = 0) : opWdiscard f j = trapNow 0x3E (worldInfo j.st 0 0 false) := by
  simp only [opWdiscard, hw, if_true]

/-! ## Handles (17 R333, R344) -/

/-- The fork that a handle names, and whether the choice of its rival k is the issuer's to make. -/
def handleFork (j : Iss) (h : Nat) : Fork := forkOf j.st (field h 16 5)
def HandleValid (j : Iss) (h k : Nat) : Prop :=
  (handleFork j h).n ≠ 0 ∧ (handleFork j h).issuer = j.ctx.world ∧ (handleFork j h).job = jobIdOf j.st j.st.core j.st.cx ∧ k ≤ (handleFork j h).n
def handleRival (j : Iss) (h k : Nat) : Rival := (handleFork j h).rivals.getD (k - 1) ⟨0, .discarded, 0⟩

theorem field_lt (w lo len : Nat) : field w lo len < 2 ^ len := Nat.mod_lt _ (Nat.two_pow_pos _)

/-- A handle's fork number is one of the table, so the entry is live where it has rivals. -/
theorem forkLive_handle (j : Iss) (h : Nat) : forkLive j.st (field h 16 5) = decide ((handleFork j h).n ≠ 0) := by
  simp only [forkLive, show field h 16 5 < 32 from field_lt h 16 5, decide_true, Bool.true_and]; rfl

theorem handle_refused {j : Iss} {h k : Nat} :
    (!forkLive j.st (field h 16 5) || decide ((handleFork j h).issuer ≠ j.ctx.world) || decide ((handleFork j h).job ≠ jobIdOf j.st j.st.core j.st.cx)
      || decide ((handleFork j h).n < k)) = true ↔ ¬ HandleValid j h k := by
  simp only [forkLive_handle, HandleValid, Bool.or_eq_true, Bool.not_eq_true', decide_eq_false_iff_not, decide_eq_true_eq, ← Nat.not_le]
  tauto

theorem query_refused {j : Iss} {h k : Nat} :
    (decide ((handleFork j h).n = 0) || decide ((handleFork j h).issuer ≠ j.ctx.world) || decide ((handleFork j h).job ≠ jobIdOf j.st j.st.core j.st.cx)
      || decide ((handleFork j h).n < k)) = true ↔ ¬ HandleValid j h k := by
  simp only [HandleValid, Bool.or_eq_true, decide_eq_true_eq, ← Nat.not_le]
  tauto

/-! ## WCHOOSE (17 R344 to R346) -/

section
variable {j : Iss} {h k : Nat}

theorem choose_invalid (hp : j.poisoned = false) (hv : ¬ HandleValid j h k) : j.choose h k = trapNow 0x3E (worldInfo j.st j.ctx.world 0 false) :=
  (if_neg (by simp only [hp, Bool.false_eq_true, not_false_eq_true])).trans (if_pos (handle_refused.mpr hv))

section
variable (hp : j.poisoned = false) (hv : HandleValid j h k)
include hp hv

theorem choose_nobody (hk : k = 0) : j.choose h k = .ok (j.atEnd (fun s => dropFork s (field h 16 5))) :=
  (if_neg (by simp only [hp, Bool.false_eq_true, not_false_eq_true])).trans
    ((if_neg (mt handle_refused.mp (not_not_intro hv))).trans (if_pos hk))

theorem choose_discarded (hk : k ≠ 0) (hr : (handleRival j h k).state = .discarded) :
    j.choose h k = trapNow 0x3E (worldInfo j.st j.ctx.world 0 false) :=
  (if_neg (by simp only [hp, Bool.false_eq_true, not_false_eq_true])).trans
    ((if_neg (mt handle_refused.mp (not_not_intro hv))).trans ((if_neg hk).trans (if_pos (beq_iff_eq.mpr hr))))

end

/-- Rival k is there to be chosen, and no other context is merging the fork. -/
structure Picks (j : Iss) (h k : Nat) : Prop where
  clean : j.poisoned = false
  valid : HandleValid j h k
  rival : k ≠ 0
  alive : (handleRival j h k).state ≠ .discarded
  alone : forkTaken j.st (field h 16 5) = false

/-- The rival is done, and its tasks have ended. -/
def RivalReady (j : Iss) (h k : Nat) : Prop := (handleRival j h k).state = .done ∧ (worldOf j.st (handleRival j h k).tag).live = 0

/-- The first stage of a choice: the other rivals are discarded, and the merge takes its time (R345). -/
def beginMerge (j : Iss) (h k : Nat) (s : State) : State :=
  let s := (handleFork j h).rivals.foldl (fun s q => if q.tag = (handleRival j h k).tag ∨ q.state = .discarded then s else discardWorld s q.tag 6) s
  setAct s { actCtx s with merging := some (field h 16 5, (actCtx s).clock + mergeTime s (handleRival j h k).tag, false) }
/-- The second: the rival's records go to its issuer's world. -/
def mergeRival (j : Iss) (h k fin : Nat) (s : State) : State :=
  let s := mergeRecords s (handleRival j h k).tag j.ctx.world
  setAct s { actCtx s with merging := some (field h 16 5, fin, true) }
/-- The last: its effects are released, or go to the issuer's world, and its entry and the fork's are free. -/
def endChoice (j : Iss) (h k : Nat) (s : State) : State :=
  let es := mapGet j.st.worlds.effects [] (handleRival j h k).tag
  let s := setEffects (setAct s { actCtx s with merging := none }) (handleRival j h k).tag []
  let s := if j.ctx.world = 0 then releaseEffects s es else addEffects s j.ctx.world es
  dropLines (setFork (setWorld (dropWorldLines s (handleRival j h k).tag) (handleRival j h k).tag World.init) (field h 16 5) Fork.init) s.core s.cx



theorem noMerge {m : Option (Nat × Nat × Bool)} {f : Nat} (h : ∀ x, m = some x → x.1 ≠ f) : m.filter (fun x => x.1 == f) = none := by
  simpa [Option.filter_eq_none_iff] using h
theorem ownMerge {m : Option (Nat × Nat × Bool)} {f fin : Nat} {b : Bool} (h : m = some (f, fin, b)) : m.filter (fun x => x.1 == f) = some (f, fin, b) := by
  simp only [h, Option.filter_some, beq_self_eq_true, if_true]

theorem ready_iff : ((handleRival j h k).state == .done && decide ((worldOf j.st (handleRival j h k).tag).live = 0)) = true ↔ RivalReady j h k := by
  simp only [RivalReady, Bool.and_eq_true, beq_iff_eq, decide_eq_true_eq]

/-- What a choice does by the merge that stands for its fork. -/
def choiceStep (j : Iss) (h k : Nat) : Option (Nat × Nat × Bool) → Except Halt Iss
  | none => if (handleRival j h k).state == .done && (worldOf j.st (handleRival j h k).tag).live = 0 then .error (.stall (beginMerge j h k)) else stallNow
  | some (_, fin, false) => if j.ctx.clock + 1 < fin then stallNow else .error (.stall (mergeRival j h k fin))
  | some (_, _, true) =>
    if j.ctx.world ≠ 0 && effectRoom j.st j.ctx.world < (mapGet j.st.worlds.effects [] (handleRival j h k).tag).length then
      trapNow 0x3B (worldInfo j.st j.ctx.world (effectRoom j.st j.ctx.world) false)
    else .ok (j.atEnd (endChoice j h k))

section
variable (hpk : Picks j h k)
include hpk

theorem choose_step : j.choose h k = choiceStep j h k (j.ctx.merging.filter (fun m => m.1 == field h 16 5)) := by
  obtain ⟨hp, hv, hk, ha, ht⟩ := hpk
  refine (if_neg (by simp only [hp, Bool.false_eq_true, not_false_eq_true])).trans ((if_neg (mt handle_refused.mp (not_not_intro hv))).trans
    ((if_neg hk).trans ((if_neg (mt beq_iff_eq.mp ha)).trans ((if_neg (by simp only [ht, Bool.false_eq_true, not_false_eq_true])).trans ?_))))
  generalize j.ctx.merging.filter (fun m => m.1 == field h 16 5) = m
  rcases m with _ | ⟨fk, fin, _ | _⟩
  · simp only [choiceStep, handleRival, handleFork, Bool.or_eq_true, decide_eq_true_eq, beq_iff_eq]
    rfl
  · rfl
  · simp only [choiceStep, handleRival, handleFork, ne_eq, ite_not]
    rfl

theorem choose_waits (hm : ∀ m, j.ctx.merging = some m → m.1 ≠ field h 16 5) (hr : ¬ RivalReady j h k) : j.choose h k = stallNow := by
  rw [choose_step hpk, noMerge hm]
  exact if_neg (mt ready_iff.mp hr)
theorem choose_begins (hm : ∀ m, j.ctx.merging = some m → m.1 ≠ field h 16 5) (hr : RivalReady j h k) :
    j.choose h k = .error (.stall (beginMerge j h k)) := by
  rw [choose_step hpk, noMerge hm]
  exact if_pos (ready_iff.mpr hr)

section
variable {fin : Nat}

theorem choose_merging (hm : j.ctx.merging = some (field h 16 5, fin, false)) (hc : j.ctx.clock + 1 < fin) : j.choose h k = stallNow := by
  rw [choose_step hpk, ownMerge hm]
  exact if_pos hc
theorem choose_merges (hm : j.ctx.merging = some (field h 16 5, fin, false)) (hc : fin ≤ j.ctx.clock + 1) :
    j.choose h k = .error (.stall (mergeRival j h k fin)) := by
  rw [choose_step hpk, ownMerge hm]
  exact if_neg (Nat.not_lt.mpr hc)
theorem choose_ends (hm : j.ctx.merging = some (field h 16 5, fin, true))
    (hr : j.ctx.world ≠ 0 → (mapGet j.st.worlds.effects [] (handleRival j h k).tag).length ≤ effectRoom j.st j.ctx.world) :
    j.choose h k = .ok (j.atEnd (endChoice j h k)) := by
  rw [choose_step hpk, ownMerge hm]
  exact if_neg (by simpa using hr)

end

end

end

/-! ## WTAG (17 R347) -/

/-- What WTAG tells of a rival. -/
def rivalWord (r : Rival) : BitVec 64 := BitVec.ofNat 64 (r.score % 2 ^ 32 + 2 ^ 32 * stateCode r.state + 2 ^ 34 * r.tag)

section
variable {f : YX} {j : Iss} (hp : j.poisoned = false) (hc : Clean [f.xb] j)
include hp hc

theorem opWtagQuery_tells (hv : HandleValid j (readS j.ctx f.xb).toNat (f.fn % 8)) :
    opWtagQuery f j = .ok (j.writeS 8 f.xa (rivalWord (handleRival j (readS j.ctx f.xb).toNat (f.fn % 8)))) := by
  simp only [opWtagQuery, s_clean (hc _ List.mem_cons_self)]
  exact (if_neg (by simp only [hp, Bool.false_eq_true, not_false_eq_true])).trans (if_neg (mt query_refused.mp (not_not_intro hv)))
theorem opWtagQuery_invalid (hv : ¬ HandleValid j (readS j.ctx f.xb).toNat (f.fn % 8)) :
    opWtagQuery f j = trapNow 0x3E (worldInfo j.st j.ctx.world 0 false) := by
  simp only [opWtagQuery, s_clean (hc _ List.mem_cons_self)]
  exact (if_neg (by simp only [hp, Bool.false_eq_true, not_false_eq_true])).trans (if_pos (query_refused.mpr hv))

end

/-! ## The statement -/

/-- Settles O27: each branch of an instruction is one of the laws above, and the laws of issue carry it to the machine. -/
theorem worldOperations : Obligations.WorldOperations := by
  intro g f
  refine ⟨⟨?forks, ?waits, ?deep, ?fewTags, ?noEntry⟩, ?done, ?discard, ?doneBase, ?discardBase, ?choose, ?own, ?tells, ?invalid⟩
  case forks =>
    exact fun fk jn => completes_of (op := opWfork f) (fun _ => rfl) (fun s ⟨hf, ht, hk, hj, hr⟩ => opWfork_forks hf ht hk hj hr) fun s _ => began_sound s (.wfork g f)
  case waits => exact waits_of (op := opWfork f) (fun _ => rfl) fun s h => opWfork_waits h
  case deep => exact traps_of (op := opWfork f) (fun _ => rfl) fun s ⟨ho, hd⟩ => opWfork_deep ho hd
  case fewTags => exact traps_of (op := opWfork f) (fun _ => rfl) fun s ⟨hf, ht⟩ => opWfork_fewTags hf ht
  case noEntry => exact traps_of (op := opWfork f) (fun _ => rfl) fun s ⟨hf, ht, hk⟩ => opWfork_noEntry hf ht hk
  case done => exact completes_of (op := opWdone f) (fun _ => rfl) (fun s ⟨hc, hw⟩ => opWdone_ends hc hw) fun s _ => stop_sound (began_sound s (.wdone g f))
  case discard => exact completes_of (op := opWdiscard f) (fun _ => rfl) (fun s hw => opWdiscard_ends hw) fun s _ => stop_sound (began_sound s (.wdiscard g f))
  case doneBase => exact traps_of (op := opWdone f) (fun _ => rfl) fun s hw => opWdone_base hw
  case discardBase => exact traps_of (op := opWdiscard f) (fun _ => rfl) fun s hw => opWdiscard_base hw
  case own => exact completes_of (op := opWtagOwn f) (fun _ => rfl) (fun _ _ => rfl) fun s _ => began_sound s (.wtagOwn g f)
  case invalid => exact traps_of (op := opWtagQuery f) (fun _ => rfl) fun s ⟨hc, hv⟩ => opWtagQuery_invalid rfl hc hv
  case tells =>
    exact completes_of (op := opWtagQuery f) (fun _ => rfl) (fun s ⟨hc, hv⟩ => opWtagQuery_tells rfl hc hv) fun s _ => began_sound s (.wtagQuery g f)
  case choose =>
    intro chooses
    have hchooses : ∀ {i : Instr} {op : Op} {clean : Iss → Prop} {k : Iss → Nat}, (∀ s, exec i s = .next (issueSyl i op s)) →
        (∀ s, clean (began s i) → op (began s i) = (began s i).choose (readS (began s i).ctx f.xa).toNat (k (began s i))) → chooses i clean k := by
      intro i op clean k he ho
      refine ⟨completes_of he ?nobody fun s _ => began_sound s i, traps_of he ?invalid, traps_of he ?gone, waits_of he ?notReady, waits_of he ?begins,
        fun fin => ⟨waits_of he ?merging, waits_of he ?merges, completes_of he ?ends fun s _ => began_sound s i⟩⟩
      case nobody => exact fun s ⟨hc, hv, hk⟩ => (ho s hc).trans (choose_nobody rfl hv hk)
      case invalid => exact fun s ⟨hc, hv⟩ => (ho s hc).trans (choose_invalid rfl hv)
      case gone => exact fun s ⟨hc, hv, hk, hr⟩ => (ho s hc).trans (choose_discarded rfl hv hk hr)
      case notReady => exact fun s ⟨⟨hc, hv, hk, ha, ht⟩, hm, hr⟩ => (ho s hc).trans (choose_waits ⟨rfl, hv, hk, ha, ht⟩ hm hr)
      case begins => exact fun s ⟨⟨hc, hv, hk, ha, ht⟩, hm, hr⟩ => (ho s hc).trans (choose_begins ⟨rfl, hv, hk, ha, ht⟩ hm hr)
      case merging => exact fun s ⟨⟨hc, hv, hk, ha, ht⟩, hm, hr⟩ => (ho s hc).trans (choose_merging ⟨rfl, hv, hk, ha, ht⟩ hm hr)
      case merges => exact fun s ⟨⟨hc, hv, hk, ha, ht⟩, hm, hr⟩ => (ho s hc).trans (choose_merges ⟨rfl, hv, hk, ha, ht⟩ hm hr)
      case ends => exact fun s ⟨⟨hc, hv, hk, ha, ht⟩, hm, hr⟩ => (ho s hc).trans (choose_ends ⟨rfl, hv, hk, ha, ht⟩ hm hr)
    refine ⟨hchooses (op := opWchooseImm f) (fun _ => rfl) fun s hc => ?imm, hchooses (op := opWchooseReg f) (fun _ => rfl) fun s hc => ?reg⟩
    case imm => simp only [opWchooseImm, s_clean (hc _ List.mem_cons_self)]
    case reg => simp only [opWchooseReg, s_clean (hc _ List.mem_cons_self), s_clean (hc _ (List.mem_cons_of_mem _ List.mem_cons_self))]

end Sys2Proof.Machine
end

section
/-! PROOFS. Released effects, freed worlds, fills and forwarded rows (O41, 16 R326, R328, 17 R331, R340, R346, 26 R447, R448): what each event does, and what
the parts of it leave as they are. -/

namespace Sys2Proof.Machine

/-! ## Expert fills (16 R328, 26 R448) -/

section
variable {s : State} {f : Fill} {key d tblk nblk obj : Nat} (hk : f.kind = .expert key d tblk nblk obj)
include hk

/-- The one fill there is ends by whether its object has a block outside HBM. -/
theorem expertDone_only (hf : s.fills = [f]) :
    (fillGap { s with fills := [] } f = none → expertDone s =
      (let u := (List.range nblk).foldl (fun u b => match objByte u d obj (65536 * b) with
        | some q => fillBlock u f.base (tblk + b) (q.1 / 65536)
        | none => u) { s with fills := [] }
       fillEvent (ertPut u d key (putField (ertGet u d key) 0 3 1)) d key false))
    ∧ ∀ b, fillGap { s with fills := [] } f = some b → expertDone s = report (expertFailed { s with fills := [] } key d) 0x35 (b + 2 ^ 24 * key) := by
  have hexpert : isExtent f = false := by simp only [isExtent, hk]
  have hfind : s.fills.find? (fun f => !isExtent f) = some f := by simp [hf, hexpert]
  have herase : s.fills.erase f = [] := by simp [hf]
  constructor
  · intro hgap
    simp only [expertDone, hfind, hk, herase, hgap] <;> rfl
  · intro b hgap
    simp only [expertDone, hfind, hk, herase, hgap]
    rfl

theorem fillGap_none (h : ∀ b, b < nblk → (objByte s d obj (65536 * b)).isSome = true) : fillGap s f = none := by
  simp only [fillGap, hk]
  refine List.find?_eq_none.mpr fun b hb => ?_
  obtain ⟨q, hq⟩ := Option.isSome_iff_exists.mp (h b (List.mem_range.mp hb))
  simp [hq]
theorem fillGap_first {b : Nat} (hb : b < nblk) (hn : (objByte s d obj (65536 * b)).isNone = true)
    (h : ∀ c, c < b → (objByte s d obj (65536 * c)).isSome = true) : fillGap s f = some b := by
  simp only [fillGap, hk, List.find?_range_eq_some, hn, true_and]
  exact ⟨List.mem_range.mpr hb, fun c hc => by simp [h c hc]⟩

end

/-! ## A tier read that fails (26 R448) -/

theorem tierFailure_again {s : State} {f : Fill} {rest : List Fill} (hf : s.fills = f :: rest) (ht : f.tries < 2) :
    tierFailure s = { s with fills := { f with tries := f.tries + 1 } :: rest } := by
  simp only [tierFailure, hf, ht, if_true]
theorem tierFailure_expert {s : State} {f : Fill} {rest : List Fill} {key d tblk nblk obj : Nat} (hf : s.fills = f :: rest) (ht : 2 ≤ f.tries)
    (hk : f.kind = .expert key d tblk nblk obj) :
    tierFailure s = report (expertFailed { s with fills := rest } key d) 0x35 (f.tblk + 2 ^ 24 * key) := by
  simp only [tierFailure, hf, Nat.not_lt.mpr ht, if_false, hk]
  rfl
theorem tierFailure_extent {s : State} {f : Fill} {rest : List Fill} {leaf d pbn info : Nat} {ws : List (Nat × Nat)} (hf : s.fills = f :: rest)
    (ht : 2 ≤ f.tries) (hk : f.kind = .extent leaf d pbn info ws) : tierFailure s = extentFailed s f leaf d info ws := by
  simp only [tierFailure, hf, Nat.not_lt.mpr ht, if_false, hk]

/-- A step that keeps the contexts keeps them however often it is taken. -/
theorem foldl_ctxs {α : Type} {g : State → α → State} (hg : ∀ s a, (g s a).ctxs = s.ctxs) (l : List α) (s : State) : (l.foldl g s).ctxs = s.ctxs :=
  List.foldlRecOn l g (motive := fun t => t.ctxs = s.ctxs) rfl fun t h a _ => (hg t a).trans h

theorem report_ctxs (s : State) (cause detail : Nat) : (report s cause detail).ctxs = s.ctxs := rfl
theorem freeSlots_ctxs (s : State) (d src : Nat) (ports : List Nat) : (freeSlots s d src ports).ctxs = s.ctxs := by
  unfold freeSlots; split <;> rfl
theorem logOutside_ctxs (s : State) (cause info : Nat) : (logOutside s cause info).ctxs = s.ctxs := by
  unfold logOutside; split <;> rfl
theorem sendReply_ctxs (s : State) (d : Nat) (r : Served) (kind : Nat) (bs : List Byte) : (sendReply s d r kind bs).ctxs = s.ctxs := by
  unfold sendReply; split <;> rfl
theorem refuseServed_ctxs (s : State) (d : Nat) (r : Served) (cause reason : Nat) : (refuseServed s d r cause reason).ctxs = s.ctxs := by
  unfold refuseServed
  simp only
  split
  · exact logOutside_ctxs s cause reason
  · exact (sendReply_ctxs ..).trans (logOutside_ctxs s cause reason)

/-- A context that waits for a fill takes 0x14 when its read has failed. -/
theorem trapFill_traps {s : State} {k x : Nat} (hw : (ctxOf s k x).status = .filling) (hm : (ctxOf s k x).sp.hmode = false) (info : Nat) :
    let c := ctxOf (trapFill s k x info) k x
    c.sp.cause = 0x14 ∧ c.status = .bound ∧ c.sp.einfo = BitVec.ofNat 64 info := by
  have hset : ctxOf (setCtx s k x { ctxOf s k x with status := .bound, toRun := true }) k x = { ctxOf s k x with status := .bound, toRun := true } :=
    ctxOf_setCtx (ctx_ne_init_of_bound rfl)
  have hmode : (ctxOf (setCtx s k x { ctxOf s k x with status := .bound, toRun := true }) k x).sp.hmode = false := by rw [hset]; exact hm
  simp only [trapFill, hw, ne_eq, not_true_eq_false, if_false]
  rw [ctxOf_trapEntry hmode, hset]
  exact ⟨rfl, rfl, rfl⟩

/-- A failed extent fill with one waiting context traps it; the rest of the end leaves the contexts alone. -/
theorem extentFailed_waiter (s : State) (f : Fill) (leaf d info k x : Nat) (hx : x < 8) :
    (extentFailed s f leaf d info [(k, x)]).ctxs
      = (trapFill (setDie { s with fills := s.fills.erase f } d (setReg (dieOf s d) 0x3008 (regRaw (dieOf s d) 0x3008 + 1))) k x (failInfo info)).ctxs := by
  simp only [extentFailed, List.foldl_cons, List.foldl_nil, atWaiter, hx, decide_true, Bool.true_or, if_true]
  rw [report_ctxs]
  refine foldl_ctxs (fun t e => foldl_ctxs (fun u r => ?_) _ t) _ _
  split
  · split
    · exact (refuseServed_ctxs ..).trans (freeSlots_ctxs ..)
    · rfl
  · rfl

theorem ctxOf_of_ctxs {s t : State} (h : t.ctxs = s.ctxs) (k x : Nat) : ctxOf t k x = ctxOf s k x := by rw [ctxOf, ctxOf, h]

theorem extentFailed_traps (s : State) (f : Fill) (leaf d : Nat) {k x : Nat} (hx : x < 8) (hw : (ctxOf s k x).status = .filling)
    (hm : (ctxOf s k x).sp.hmode = false) (info : Nat) :
    let c := ctxOf (extentFailed s f leaf d info [(k, x)]) k x
    c.sp.cause = 0x14 ∧ c.status = .bound ∧ c.sp.einfo = BitVec.ofNat 64 (failInfo info) := by
  simp only [ctxOf_of_ctxs (extentFailed_waiter s f leaf d info k x hx)]
  exact trapFill_traps (s := setDie { s with fills := s.fills.erase f } d _) hw hm (failInfo info)

/-! ## Released effects and freed worlds (17 R331, R346) -/

theorem releaseEffect_gate {s : State} {e : Effect} {rest : List Effect} (hr : s.worlds.releasing = e :: rest) (hk : e.kind = 16)
    (hg : gateCount (exOf s (dieOfCore e.core)) < 1024) :
    releaseEffect s =
      (let t := pushGate s (dieOfCore e.core) 1 (gateRecord e.data e.off)
       { t with worlds := { t.worlds with releasing := rest } }) := by
  simp only [releaseEffect, hr, hk]
  exact if_neg (Nat.not_le.mpr hg)

theorem freeWorld_frees {s : State} {w : Nat} (hd : (worldOf s w).state = .discarded) (hl : (worldOf s w).live = 0) :
    freeWorld s w = setWorld (dropWorldLines s w) w World.init := by
  simp [freeWorld, hd, hl]
theorem freeWorld_keeps {s : State} {w : Nat} (hl : (worldOf s w).live ≠ 0) : freeWorld s w = s := by
  simp [freeWorld, hl]

/-! ## Forwarded rows (16 R326, 26 R447) -/

/-! A die with routing registers is not the die of reset, so what is stored for it is read again. -/

theorem die_ne_init_of_xr {v : Die} (h : v.xr ≠ []) : v ≠ Die.init := fun he => h (he ▸ rfl)
theorem xr_ne_nil_of_routeReg {s : State} {d csr : Nat} (h : routeReg s d csr ≠ 0) : (dieOf s d).xr ≠ [] := fun he => h (by rw [routeReg, he]; rfl)

section
variable {s : State} {d : Nat} (hxr : (dieOf s d).xr ≠ [])
include hxr

theorem dieOf_setEx (x : Experts) : dieOf (setEx s d x) d = { dieOf s d with ex := x } := dieOf_setDie (die_ne_init_of_xr hxr)
theorem exOf_setEx (x : Experts) : exOf (setEx s d x) d = x := by rw [exOf, dieOf_setEx hxr]
theorem dieOf_freeSlots (src : Nat) (ports : List Nat) : ∃ f, dieOf (freeSlots s d src ports) d = { dieOf s d with fab := f } := by
  unfold freeSlots
  split
  · exact ⟨(dieOf s d).fab, rfl⟩
  · exact ⟨_, dieOf_setDie (die_ne_init_of_xr hxr)⟩
theorem exOf_pushGate (kind : Nat) (rec : List Byte) : exOf (pushGate s d kind rec) d = { exOf s d with gate := (exOf s d).gate ++ [(kind, rec)] } :=
  exOf_setEx hxr _

end

theorem preserve_dies (s : State) (phys : Nat) : (preserve s phys).dies = s.dies := by unfold preserve; split <;> rfl
theorem writeBase_dies (s : State) (phys leaf : Nat) (bs : List Byte) (tag bad : Bool) : (writeBase s phys leaf bs tag bad).dies = s.dies := by
  unfold writeBase
  simp only
  split
  · exact preserve_dies s phys
  · exact preserve_dies s phys
/-- Writing an object's bytes is a matter of memory. -/
theorem writeObj_dies (s : State) (d obj off : Nat) (bs : List Byte) (tag : Bool) : (writeObj s d obj off bs tag).dies = s.dies := by
  refine List.foldlRecOn _ _ (motive := fun t : State => t.dies = s.dies) rfl fun t ht p _ => ?_
  split
  · exact (writeBase_dies ..).trans ht
  · exact ht

/-- A header that passes the filter changes the filter's keys alone. -/
theorem filterPass_keys (x : Experts) (h : Nat) : ∃ r new old, filterPass x h = { x with newest := r, keysNew := new, keysOld := old } := by
  unfold filterPass
  split
  · exact ⟨_, _, _, rfl⟩
  · dsimp only
    split
    · exact ⟨_, _, _, rfl⟩
    · split
      · exact ⟨_, _, _, rfl⟩
      · exact ⟨_, _, _, rfl⟩

/-- The row is off its link: out of the list of those that have come, and its slots are free. -/
def rowTaken (s : State) (d src : Nat) (ports : List Nat) (rest : List (Nat × List Nat × List Byte)) : State :=
  freeSlots (setEx s d { exOf s d with arriving := rest }) d src ports
/-- Its header passes the filter, and inbound slot n is its own. -/
def rowPassed (s : State) (d src : Nat) (ports : List Nat) (rest : List (Nat × List Nat × List Byte)) (h n : Nat) : State :=
  let t := rowTaken s d src ports rest
  setEx t d { filterPass (exOf t d) h with inbound := mapSet (exOf s d).inbound false n true }
/-- What the gate queue holds of a row at an offset of the row object. -/
def inboundRecord (h w off : Nat) : List Byte := leBytes 8 h ++ leBytes 8 (field w 0 24 + 2 ^ 24 + 2 ^ 26 * (off / 64)) ++ List.replicate 48 0#8

section
variable {s : State} {d src n : Nat} {ports : List Nat} {bs : List Byte} {rest : List (Nat × List Nat × List Byte)}
  (harr : (exOf s d).arriving = (src, ports, bs) :: rest)
include harr

theorem rowArrives_good (hg : headerGood (leVal (bs.take 8)) = true) (hf : filterAsk (exOf s d) (leVal (bs.take 8)) = .fresh)
    (hfree : (List.range (field (routeReg s d 0x7C2) 40 16 + 1)).find? (fun n => !mapGet (exOf s d).inbound false n) = some n)
    (hroom : gateCount (exOf s d) < 1024) :
    rowArrives s d =
      (let t := rowPassed s d src ports rest (leVal (bs.take 8)) n
       let off := field (routeReg s d 0x7C2) 0 40 + rowBytes s d * n
       pushGate (writeObj t d (rowObj t d) off (bs.drop 16) false) d 3 (inboundRecord (leVal (bs.take 8)) (leVal ((bs.drop 8).take 8)) off)) := by
  simp only [rowArrives, harr, hg, hf, hfree, Nat.not_le.mpr hroom]
  rfl

theorem rowArrives_damaged (hg : headerGood (leVal (bs.take 8)) = false) :
    rowArrives s d = report (rowLost (rowTaken s d src ports rest) d) 0x2C d := by
  simp only [rowArrives, harr, hg]
  rfl

omit harr

section
variable (hxr : (dieOf s d).xr ≠ [])
include hxr

theorem dieOf_rowTaken : ∃ f, dieOf (rowTaken s d src ports rest) d = { dieOf s d with ex := { exOf s d with arriving := rest }, fab := f } := by
  have hset := dieOf_setEx hxr { exOf s d with arriving := rest }
  obtain ⟨f, hf⟩ := dieOf_freeSlots (by rw [hset]; exact hxr) src ports
  exact ⟨f, by rw [rowTaken, hf, hset]⟩

/-- The row's place: out of the list, in its slot, and the gate queue as it was. -/
theorem rowPassed_ex (h : Nat) :
    let t := rowPassed s d src ports rest h n
    (dieOf t d).xr ≠ [] ∧ (exOf t d).arriving = rest ∧ mapGet (exOf t d).inbound false n = true ∧ (exOf t d).gate = (exOf s d).gate := by
  obtain ⟨f, hf⟩ := dieOf_rowTaken (src := src) (ports := ports) (rest := rest) hxr
  have hex : exOf (rowTaken s d src ports rest) d = { exOf s d with arriving := rest } := by rw [exOf, hf]
  have htaken : (dieOf (rowTaken s d src ports rest) d).xr ≠ [] := by rw [hf]; exact hxr
  obtain ⟨r, new, old, hkeys⟩ := filterPass_keys { exOf s d with arriving := rest } h
  simp only [rowPassed, exOf_setEx htaken, dieOf_setEx htaken, hex, hkeys]
  exact ⟨htaken, trivial, mapGet_mapSet_same _ _ (by decide), trivial⟩

end

end

theorem rowTaken_out (s : State) (d src : Nat) (ports : List Nat) (rest : List (Nat × List Nat × List Byte)) : (rowTaken s d src ports rest).out = s.out := by
  unfold rowTaken freeSlots; split <;> rfl
theorem rowLost_out (s : State) (d : Nat) : (rowLost s d).out = s.out := noteHw_out ..
/-- A lost row is counted, and the count stays at its highest. -/
theorem rowLost_counts (s : State) (d : Nat) :
    field (regRaw (dieOf (rowLost s d) d) 0x0750) 48 16 = Nat.min 65535 (field (regRaw (dieOf s d) 0x0750) 48 16 + 1) := by
  have hmin : ∀ n, Nat.min 65535 (n + 1) % 2 ^ 16 = Nat.min 65535 (n + 1) := fun n => Nat.mod_eq_of_lt (Nat.lt_succ_of_le (Nat.min_le_left _ _))
  have hne : putField (regRaw (dieOf s d) 0x0750) 48 16 (Nat.min 65535 (field (regRaw (dieOf s d) 0x0750) 48 16 + 1)) ≠ regReset 0x0750 := by
    intro he
    have hcount := congrArg (fun v => field v 48 16) he
    simp only [field_putField, hmin] at hcount
    exact absurd (hcount.trans (by decide : field (regReset 0x0750) 48 16 = 0)) (Nat.ne_of_gt (Nat.le_min.mpr ⟨by decide, Nat.succ_pos _⟩))
  rw [rowLost, regRaw_setDie_setReg hne, field_putField, hmin]

/-! ## The statement -/

/-- Settles O41: the gate record and the world by the branch of their event, the fills by their ends, and the row by what its slot, its place and
its loss leave of the die. -/
theorem worldsFillsAndRows : Obligations.WorldsFillsAndRows := by
  refine ⟨?gate, ?world, ?expert, ?tier, ?row⟩
  case gate =>
    intro s e rest hr hk d hg
    exact congrArg Host.Outcome.next (releaseEffect_gate hr hk hg)
  case world => exact fun s w hd => ⟨fun hl => congrArg Host.Outcome.next (freeWorld_frees hd hl), fun hl => congrArg Host.Outcome.next (freeWorld_keeps hl)⟩
  case expert =>
    intro s f key d tblk nblk obj hf hk t
    obtain ⟨hfilled, hgap⟩ := expertDone_only hk hf
    exact ⟨fun h => congrArg Host.Outcome.next (hfilled (fillGap_none hk h)), fun b hb hn h => congrArg Host.Outcome.next (hgap b (fillGap_first hk hb hn h))⟩
  case tier =>
    intro s f rest hf
    refine ⟨fun ht => congrArg Host.Outcome.next (tierFailure_again hf ht), fun key d tblk nblk obj ht hk => congrArg Host.Outcome.next (tierFailure_expert hf ht hk), ?_⟩
    intro leaf d pbn info k x ht hk hx hw hm
    exact ⟨_, congrArg Host.Outcome.next (tierFailure_extent hf ht hk), extentFailed_traps s f leaf d hx hw hm info⟩
  case row =>
    intro s d src n ports bs rest h r off w harr hr
    have hxr : (dieOf s d).xr ≠ [] := xr_ne_nil_of_routeReg hr
    constructor
    · intro hg hf hn hfree hbelow hroom
      have hslot : (List.range (field (routeReg s d 0x7C2) 40 16 + 1)).find? (fun n => !mapGet (exOf s d).inbound false n) = some n := by
        simp only [List.find?_range_eq_some, hfree, Bool.not_false, true_and, Bool.not_not]
        exact ⟨List.mem_range.mpr (Nat.lt_succ_of_le hn), hbelow⟩
      obtain ⟨hxr', harr', hin, hgate⟩ := rowPassed_ex (s := s) (src := src) (n := n) (ports := ports) (rest := rest) hxr h
      have hdie := writeObj_dies (rowPassed s d src ports rest h n) d (rowObj (rowPassed s d src ports rest h n) d) off (bs.drop 16) false
      have hdie : dieOf _ d = dieOf (rowPassed s d src ports rest h n) d := congrArg (mapGet · _ d) hdie
      refine ⟨_, congrArg Host.Outcome.next (rowArrives_good harr hg hf hslot hroom), ?_⟩
      rw [exOf_pushGate (by rw [hdie]; exact hxr'), exOf, hdie]
      exact ⟨harr', hin, congrArg (· ++ _) hgate⟩
    · intro hg
      refine ⟨_, congrArg Host.Outcome.next (rowArrives_damaged harr hg), ?_, ?_⟩
      · exact congrArg (· ++ _) (congrArg _ ((rowLost_out _ d).trans (rowTaken_out s d src ports rest)))
      · obtain ⟨f, hf⟩ := dieOf_rowTaken (src := src) (ports := ports) (rest := rest) hxr
        exact (rowLost_counts _ d).trans (by rw [hf]; rfl)

end Sys2Proof.Machine
end

section
/-! PROOFS. The custom instructions of the Shuttle core (O31, 16 R317 to R328, 23 R413, 26 R446): each operation by the tests it makes in their order, and
the statement from the branch that the premises name. -/

namespace Sys2Proof.Machine

/-! ## Operands and records (16 R317, R319) -/

theorem scratchFault_none {a n align : Nat} (ha : a % align = 0) (hn : a + n ≤ 65536) : scratchFault a n align = none := by
  simp [scratchFault, inScratch, scratchBytes, ha, hn]
theorem scratchFault_misaligned {a n align : Nat} (ha : a % align ≠ 0) : scratchFault a n align = some 6 := if_pos ha
theorem scratchFault_outside {a n align : Nat} (ha : a % align = 0) (hn : 65536 < a + n) : scratchFault a n align = some 7 := by
  simp [scratchFault, inScratch, scratchBytes, ha, Nat.not_le.mpr hn]

theorem rrKey_eq (w : Nat) : rrKey w = w % 2 ^ 24 := by rw [rrKey, field, Nat.pow_zero, Nat.div_one]

/-- A routing record names an expert and a layer of the table, or no expert. -/
def RecordGood (s : State) (d w : Nat) : Prop := (field w 0 16 = 65535 ∨ field w 0 16 < nexp s d) ∧ field w 16 8 ≤ nlay s d
theorem malformed_iff {s : State} {d w : Nat} : malformed s d w = true ↔ ¬ RecordGood s d w := by
  have hm : malformed s d w = ((field w 0 16 ≠ 65535 && decide (nexp s d ≤ field w 0 16)) || decide (nlay s d < field w 16 8)) := rfl
  simp only [hm, RecordGood, Bool.or_eq_true, Bool.and_eq_true, decide_eq_true_eq]
  omega
theorem malformed_false {s : State} {d w : Nat} (h : RecordGood s d w) : malformed s d w = false :=
  Bool.eq_false_iff.mpr fun hm => malformed_iff.mp hm h

/-! ## GQPOP (16 R317, R318) -/

section
variable {s : State} {rd a : Nat}

theorem popGate_empty (ha : a % 64 = 0) (hn : a + 64 ≤ 65536) (hg : (exOf s s.die).gate = []) : popGate s rd a = shDone s s.die rd 0#64 := by
  simp only [popGate, scratchFault_none ha hn, hg]
theorem popGate_first {kind : Nat} {rec : List Byte} {rest : List (Nat × List Byte)} (ha : a % 64 = 0) (hn : a + 64 ≤ 65536)
    (hg : (exOf s s.die).gate = (kind, rec) :: rest) :
    popGate s rd a =
      (let t := setEx s s.die { exOf s s.die with gate := rest }
       shDone (setSh t s.die (putScratch (shOf t s.die) a rec)) s.die rd (BitVec.ofNat 64 kind)) := by
  simp only [popGate, scratchFault_none ha hn, hg]
theorem popGate_fault {c : Nat} (hf : scratchFault a 64 64 = some c) : popGate s rd a = shException s s.die c a := by
  simp only [popGate, hf]

end

/-! ## RRPUT (16 R324) -/

section
variable {s : State} {d h w : Nat}

/-- The tests of a record that stand before those of its entry. -/
theorem rrput_malformed (hm : ¬ RecordGood s d w) : rrput s d h w = .failed 0x37 := by
  simp only [rrput, malformed_iff.mpr hm, if_true]
theorem rrput_unrouted (hg : RecordGood s d w) (hx : field w 0 16 = 65535) :
    rrput s d h w = .done (setRoute s d 0x7C6 ((routeReg s d 0x7C6 + 1) % 2 ^ 32)) 5 := by
  simp only [rrput, malformed_false hg, rrExpert, hx, Bool.false_eq_true, if_false, if_true]
  rfl

section
variable {e : Nat} (hg : RecordGood s d w) (hx : field w 0 16 ≠ 65535) (he : ertGet s d (rrKey w) = e)
include hg hx he

theorem rrput_bad (hst : 5 ≤ ertState e) : rrput s d h w = .failed 0x34 := by
  simp only [rrput, malformed_false hg, rrExpert, he, hx, hst, Bool.false_eq_true, if_false, if_true]
theorem rrput_absent (hst : ertState e = 0 ∨ ertState e = 3) : rrput s d h w = .done s 3 := by
  rcases hst with hst | hst <;> simp [rrput, malformed_false hg, rrExpert, he, hx, hst]
theorem rrput_remote (hst : ertState e = 2) : rrput s d h w = .done s 2 := by
  simp [rrput, malformed_false hg, rrExpert, he, hx, hst]

section
variable (hst : ertState e = 1 ∨ ertState e = 4)
include hst

/-- What RRPUT does of a record whose expert is here. -/
theorem rrput_here :
    rrput s d h w =
      if !rrFwd w && filterAsk (exOf s d) h == .duplicate then .done (dropDuplicate s d) 4
      else if !rrFwd w && filterAsk (exOf s d) h == .full then .failed 0x38
      else if !rrFwd w && field e 88 12 ≠ 0 && field e 112 8 = roundOf h && decide (field e 88 12 ≤ field e 100 12) then .done s 1
      else (placeRow s d h w).elim (.wait s) (fun t => .done t.1 (BitVec.ofNat 64 t.2)) := by
  simp only [rrput, malformed_false hg, rrExpert, he, hx, Bool.false_eq_true, if_false]
  rcases hst with hst | hst <;> simp only [hst] <;> cases placeRow s d h w <;> rfl

section
variable (hw : rrFwd w = false)
include hw

theorem rrput_duplicate (hf : filterAsk (exOf s d) h = .duplicate) : rrput s d h w = .done (dropDuplicate s d) 4 := by
  simp [rrput_here hg hx he hst, hw, hf]
theorem rrput_full (hf : filterAsk (exOf s d) h = .full) : rrput s d h w = .failed 0x38 := by
  simp [rrput_here hg hx he hst, hw, hf]
theorem rrput_atCapacity (hf : filterAsk (exOf s d) h = .fresh) (hcap : field e 88 12 ≠ 0) (hround : field e 112 8 = roundOf h)
    (hused : field e 88 12 ≤ field e 100 12) : rrput s d h w = .done s 1 := by
  simp [rrput_here hg hx he hst, hw, hf, hcap, hround, hused]

end

theorem rrput_places (hf : rrFwd w = true ∨ filterAsk (exOf s d) h = .fresh)
    (hroom : rrFwd w = true ∨ field e 88 12 = 0 ∨ field e 112 8 ≠ roundOf h ∨ field e 100 12 < field e 88 12) :
    rrput s d h w = (placeRow s d h w).elim (.wait s) (fun t => .done t.1 (BitVec.ofNat 64 t.2)) := by
  rw [rrput_here hg hx he hst, if_neg, if_neg, if_neg]
  · simpa [-not_and, not_and_or, or_assoc] using hroom
  · rcases hf with hf | hf <;> simp [hf]
  · rcases hf with hf | hf <;> simp [hf]

end

end

/-! ## PARK (16 R328) -/

theorem parkRow_malformed (hm : ¬ RecordGood s d w) : parkRow s d h w = .failed 0x37 := by
  simp only [parkRow, malformed_iff.mpr hm, if_true]

section
variable {e : Nat} (hg : RecordGood s d w) (hx : field w 0 16 ≠ 65535) (he : ertGet s d (rrKey w) = e)
include hg hx he

theorem parkRow_bad (hst : 5 ≤ ertState e) : parkRow s d h w = .failed 0x34 := by
  simp only [parkRow, malformed_false hg, rrExpert, he, hx, hst, Bool.false_eq_true, if_false, if_true]
theorem parkRow_remote (hst : ertState e = 2) : parkRow s d h w = .done s 2 := by
  simp [parkRow, malformed_false hg, rrExpert, he, hx, hst]
theorem parkRow_drawerFull (hst : ertState e = 0 ∨ ertState e = 3) (hd : 8192 ≤ (exOf s d).drawer.length) : parkRow s d h w = .failed 0x36 := by
  rcases hst with hst | hst <;> simp [parkRow, malformed_false hg, rrExpert, he, hx, hst, hd]
theorem parkRow_parks (hst : ertState e = 0 ∨ ertState e = 3) (hd : (exOf s d).drawer.length < 8192) :
    parkRow s d h w = .done (setEx s d { exOf s d with drawer := (exOf s d).drawer ++ [(BitVec.ofNat 64 h, BitVec.ofNat 64 w)] }) 6 := by
  rcases hst with hst | hst <;> simp [parkRow, malformed_false hg, rrExpert, he, hx, hst, Nat.not_le.mpr hd]
theorem parkRow_places (hst : ertState e = 1 ∨ ertState e = 4) (hf : rrFwd w = true ∨ filterAsk (exOf s d) h = .fresh) {t : State} {v : Nat}
    (hp : placeRow s d h w = some (t, v)) : parkRow s d h w = .done t (BitVec.ofNat 64 v) := by
  have hroom : (!rrFwd w && filterAsk (exOf s d) h == .full) = false := by rcases hf with hf | hf <;> simp [hf]
  rcases hst with hst | hst <;> simp [parkRow, malformed_false hg, rrExpert, he, hx, hst, hroom, hp]

end

/-! ## FWDROW (16 R326) -/

/-- The bytes of a row on its way: its header with the CRC formed, its record with FWD, and the row. -/
def forwardedBytes (s : State) (d h w : Nat) : List Byte :=
  leBytes 8 (sealHeader h) ++ leBytes 8 (field w 0 24 + 2 ^ 24) ++ readObj s d (rowObj s d) (64 * rrRow w) (rowBytes s d)

theorem fwdrow_malformed (hm : ¬ RecordGood s d w) : fwdrow s d h w = .failed 0x37 := by
  simp only [fwdrow, malformed_iff.mpr hm, if_true]
theorem fwdrow_stays (hg : RecordGood s d w) (hst : rrFwd w = true ∨ ertState (ertGet s d (rrKey w)) ≠ 2) : fwdrow s d h w = .done s 3 := by
  rcases hst with hst | hst <;> simp [fwdrow, malformed_false hg, hst]
theorem fwdrow_leaves {e : Nat} (hg : RecordGood s d w) (hw : rrFwd w = false) (he : ertGet s d (rrKey w) = e) (hst : ertState e = 2) :
    fwdrow s d h w =
      if field e 3 6 = Config.moduleNumber then
        .done (setEx s d { exOf s d with arriving := (exOf s d).arriving ++ [(field e 3 6, [], forwardedBytes s d h w)] }) 0
      else .done (setFab s d { fabOf s d with sendQ := (fabOf s d).sendQ ++ mkFlits s (field e 3 6) 2 7 0 0 0 0 (forwardedBytes s d h w) }) 0 := by
  simp only [fwdrow, malformed_false hg, hw, he, hst]
  rfl

end

/-! ## UNPARK and DTILE (16 R325, R328) -/

section
variable {s : State} {d : Nat} {a : BitVec 64}

section
variable (hk : keyGood s d (a.toNat % 2 ^ 24) = false)
include hk

theorem unpark_noKey : unpark s d a = .done (logCause s d 0x37 5 a 0#64) 0 := by
  simp only [unpark, show keyGood s d (a.toNat % 16777216) = false from hk, Bool.not_false, if_true]
theorem dtile_noKey (ha : a ≠ BitVec.allOnes 64) : dtile s d a = .done (logCause s d 0x37 7 a 0#64) 0 := by
  simp only [dtile, ha, show keyGood s d (a.toNat % 16777216) = false from hk, Bool.not_false, if_true, if_false]

end

theorem dtile_all (ha : a = BitVec.allOnes 64) :
    dtile s d a = (let js := (List.range 64).filter (fun j => tileOpen (tileAt s d j))
      .done (js.foldl (fun s j => askTile s d j) s) (BitVec.ofNat 64 js.length)) := if_pos ha

section
variable (hk : keyGood s d (a.toNat % 2 ^ 24) = true)
include hk

theorem dtile_none (ha : a ≠ BitVec.allOnes 64) (ho : openTile s d (a.toNat % 2 ^ 24) = none) : dtile s d a = .done s 0 := by
  simp only [dtile, ha, show keyGood s d (a.toNat % 16777216) = true from hk, show openTile s d (a.toNat % 16777216) = none from ho, Bool.not_true,
    Bool.false_eq_true, if_false]
theorem dtile_one {n : Nat} (ha : a ≠ BitVec.allOnes 64) (ho : openTile s d (a.toNat % 2 ^ 24) = some n) : dtile s d a = .done (askTile s d n) 1 := by
  simp only [dtile, ha, show keyGood s d (a.toNat % 16777216) = true from hk, show openTile s d (a.toNat % 16777216) = some n from ho, Bool.not_true,
    Bool.false_eq_true, if_false]

/-- The parked records of a key that the filter has still to take. -/
def parkedNew (s : State) (d key : Nat) : Nat :=
  (((exOf s d).drawer.filter (isKey key)).filter (fun r => !rrFwd r.2.toNat && filterAsk (exOf s d) r.1.toNat != .duplicate)).length
/-- UNPARK's placing of them, after those it has placed before. -/
def unparked (s : State) (d key : Nat) : State × Nat × Bool :=
  unparkRows s d key (((exOf s d).drawer.filter (isKey key)).length + 1) (shOf s d).placed

section
variable {e : Nat} (he : ertGet s d (a.toNat % 2 ^ 24) = e)
include he

theorem unpark_bad (hst : 5 ≤ ertState e) : unpark s d a = .failed 0x34 := by
  simp only [unpark, show keyGood s d (a.toNat % 16777216) = true from hk, show ertGet s d (a.toNat % 16777216) = e from he, hst, Bool.not_true,
    Bool.false_eq_true, if_false, if_true]
theorem unpark_away (hst : ertState e = 0 ∨ ertState e = 2 ∨ ertState e = 3) : unpark s d a = .done s 0 := by
  simp only [unpark, show keyGood s d (a.toNat % 16777216) = true from hk, show ertGet s d (a.toNat % 16777216) = e from he]
  rcases hst with hst | hst | hst <;> simp [hst]

section
variable (hst : ertState e = 1 ∨ ertState e = 4)
include hst

/-- What UNPARK does for an expert that is here. -/
theorem unpark_here :
    unpark s d a =
      if parkedNew s d (a.toNat % 2 ^ 24) ≠ 0 && 8192 < (exOf s d).keysNew.length + parkedNew s d (a.toNat % 2 ^ 24) then .failed 0x38
      else if (unparked s d (a.toNat % 2 ^ 24)).2.2 then
        .done (setSh (unparked s d (a.toNat % 2 ^ 24)).1 d { shOf (unparked s d (a.toNat % 2 ^ 24)).1 d with placed := 0 })
          (BitVec.ofNat 64 (unparked s d (a.toNat % 2 ^ 24)).2.1)
      else .wait (setSh (unparked s d (a.toNat % 2 ^ 24)).1 d
        { shOf (unparked s d (a.toNat % 2 ^ 24)).1 d with placed := (unparked s d (a.toNat % 2 ^ 24)).2.1 }) := by
  simp only [unpark, show keyGood s d (a.toNat % 16777216) = true from hk, show ertGet s d (a.toNat % 16777216) = e from he]
  rcases hst with hst | hst <;> simp only [hst] <;> rfl

theorem unpark_noRoom (hn : parkedNew s d (a.toNat % 2 ^ 24) ≠ 0) (hr : 8192 < (exOf s d).keysNew.length + parkedNew s d (a.toNat % 2 ^ 24)) :
    unpark s d a = .failed 0x38 := by
  rw [unpark_here hk he hst, if_pos]
  simpa using ⟨hn, hr⟩
theorem unpark_places (hr : parkedNew s d (a.toNat % 2 ^ 24) = 0 ∨ (exOf s d).keysNew.length + parkedNew s d (a.toNat % 2 ^ 24) ≤ 8192)
    (hu : (unparked s d (a.toNat % 2 ^ 24)).2.2 = true) :
    unpark s d a = .done (setSh (unparked s d (a.toNat % 2 ^ 24)).1 d { shOf (unparked s d (a.toNat % 2 ^ 24)).1 d with placed := 0 })
      (BitVec.ofNat 64 (unparked s d (a.toNat % 2 ^ 24)).2.1) := by
  rw [unpark_here hk he hst, if_neg, if_pos hu]
  simpa [imp_iff_not_or] using hr

/-- With nothing parked under the key, nothing is placed. -/
theorem unpark_nothing (hnone : ∀ r ∈ (exOf s d).drawer, rrKey r.2.toNat ≠ a.toNat % 2 ^ 24) (hp : (shOf s d).placed = 0) :
    unpark s d a = .done (setSh s d { shOf s d with placed := 0 }) 0 := by
  have hkey : ∀ r ∈ (exOf s d).drawer, ¬ isKey (a.toNat % 2 ^ 24) r = true := fun r hr => by simpa only [isKey, beq_iff_eq] using hnone r hr
  have hmine : (exOf s d).drawer.filter (isKey (a.toNat % 2 ^ 24)) = [] := List.filter_eq_nil_iff.mpr hkey
  have hfind : (exOf s d).drawer.find? (isKey (a.toNat % 2 ^ 24)) = none := List.find?_eq_none.mpr hkey
  have hu : unparked s d (a.toNat % 2 ^ 24) = (s, 0, true) := by simp only [unparked, hp, unparkRows, hfind]
  rw [unpark_places hk he hst (.inl (by simp only [parkedNew, hmine, List.filter_nil, List.length_nil])) (by rw [hu]), hu]
  rfl

end

end

end

end

/-! ## ERTGET and ERTSET (16 R322) -/

section
variable {s : State} {rd : Nat} {k b : BitVec 64}

section
variable (hb : b.toNat % 16 = 0) (hn : b.toNat + 16 ≤ 65536)
include hb hn

theorem ertGetOp_own (hp : field k.toNat 24 6 = Config.moduleNumber) :
    ertGetOp s rd k b = ertAnswer s rd b.toNat k b (ertGet s s.die (k.toNat % 2 ^ 24)) := by
  simp only [ertGetOp, scratchFault_none hb hn, hp, if_true]
  rfl
theorem ertGetOp_down (hp : field k.toNat 24 6 ≠ Config.moduleNumber) (ha : (shOf s s.die).asked = none)
    (hd : peerDown s s.die (field k.toNat 24 6) = true) : ertGetOp s rd k b = shDone (logCause s s.die 0x2E 2 k b) s.die rd 7#64 := by
  simp only [ertGetOp, scratchFault_none hb hn, hp, ha, hd, if_false, if_true]
theorem ertGetOp_answered {tag : Nat} {bs : List Byte} (hp : field k.toNat 24 6 ≠ Config.moduleNumber) (ha : (shOf s s.die).asked = some tag)
    (hans : (shOf s s.die).answer = some bs) (hl : bs.length = 16) : ertGetOp s rd k b = ertAnswer s rd b.toNat k b (leVal bs) := by
  simp only [ertGetOp, scratchFault_none hb hn, hp, ha, hans, hl, if_false, if_true]
theorem ertSetOp_sets :
    ertSetOp s rd k b =
      (let r := ertSet s s.die (k.toNat % 2 ^ 24) (leVal (getBytes (shOf s s.die).scratch b.toNat 16))
       shDone r.1 s.die rd (BitVec.ofNat 64 r.2)) := by
  simp only [ertSetOp, scratchFault_none hb hn]
  rfl

end

theorem ertGetOp_fault (hb : b.toNat % 16 ≠ 0) : ertGetOp s rd k b = shException s s.die 6 b.toNat := by
  simp only [ertGetOp, scratchFault_misaligned hb]
theorem ertSetOp_fault (hb : b.toNat % 16 ≠ 0) : ertSetOp s rd k b = shException s s.die 6 b.toNat := by
  simp only [ertSetOp, scratchFault_misaligned hb]

end

/-! ## The statement -/

/-- What the outcome of a custom operation makes of the machine. -/
def settled (s : State) (rd insn : Nat) (a b : BitVec 64) (r : Custom) : Host.Outcome State Fault Refusal := .next (settleCustom s rd insn a b r)

/-- Settles O31: an instruction's branch is that of its operation, by the laws above. -/
theorem shuttleCustom : Obligations.ShuttleCustom := by
  intro s rd rs1 rs2 d a b w e ends fails good fresh
  have he : ertGet s d (rrKey w) = e := by rw [rrKey_eq]
  have hrrput : ∀ {r}, rrput s d a.toNat w = r → exec (.rrput rd rs1 rs2) s = settled s rd 1 a b r := fun h => congrArg (settled s rd 1 a b) h
  have hpark : ∀ {r}, parkRow s d a.toNat w = r → exec (.park rd rs1 rs2) s = settled s rd 4 a b r := fun h => congrArg (settled s rd 4 a b) h
  have hunpark : ∀ {r}, unpark s d a = r → exec (.unpark rd rs1) s = settled s rd 5 a 0#64 r := fun h => congrArg (settled s rd 5 a 0#64) h
  have hfwdrow : ∀ {r}, fwdrow s d a.toNat w = r → exec (.fwdrow rd rs1 rs2) s = settled s rd 6 a b r := fun h => congrArg (settled s rd 6 a b) h
  have hdtile : ∀ {r}, dtile s d a = r → exec (.dtile rd rs1) s = settled s rd 7 a 0#64 r := fun h => congrArg (settled s rd 7 a 0#64) h
  refine ⟨?done, ?pop, ?popMisaligned, ?popOutside, ?putMalformed, ?putUnrouted, ?put, ?parkMalformed, ?park, ?tiles, ?fwdMalformed, ?fwdStays,
    ?fwdLeaves, ?entry, ?entryMisaligned⟩
  case done => exact fun t v => rfl
  case pop =>
    exact fun ha hn => ⟨fun hg => congrArg Host.Outcome.next (popGate_empty ha hn hg),
      fun kind rec rest hg => congrArg Host.Outcome.next (popGate_first ha hn hg)⟩
  case popMisaligned => exact fun ha => congrArg Host.Outcome.next (popGate_fault (scratchFault_misaligned ha))
  case popOutside => exact fun ha hn => congrArg Host.Outcome.next (popGate_fault (scratchFault_outside ha hn))
  case putMalformed => exact fun hg => hrrput (rrput_malformed hg)
  case putUnrouted => exact fun hg hx => hrrput (rrput_unrouted hg hx)
  case put =>
    intro hg hx
    refine ⟨fun hst => hrrput (rrput_bad hg hx he hst), fun hst => hrrput (rrput_absent hg hx he hst), fun hst => hrrput (rrput_remote hg hx he hst),
      fun hst => ⟨fun hw hf => hrrput (rrput_duplicate hg hx he hst hw hf), fun hw hf => hrrput (rrput_full hg hx he hst hw hf),
        fun hw hf hcap hround hused => hrrput (rrput_atCapacity hg hx he hst hw hf hcap hround hused), fun hf hroom => ⟨fun t v hp => ?_, fun hp => ?_⟩⟩⟩
    · exact hrrput ((rrput_places hg hx he hst hf hroom).trans (by rw [hp]))
    · exact hrrput ((rrput_places hg hx he hst hf hroom).trans (by rw [hp]))
  case parkMalformed => exact fun hg => hpark (parkRow_malformed hg)
  case park =>
    intro hg hx
    refine ⟨fun hst => hpark (parkRow_bad hg hx he hst), fun hst => hpark (parkRow_remote hg hx he hst),
      fun hst hd => hpark (parkRow_drawerFull hg hx he hst hd), fun hst hd => ?_,
      fun hst hf t v hp => hpark (parkRow_places hg hx he hst hf hp)⟩
    have hparks := parkRow_parks (h := a.toNat) hg hx he hst hd
    rw [BitVec.ofNat_toNat, BitVec.ofNat_toNat] at hparks
    exact hpark hparks
  case tiles =>
    intro tileAsked key k
    refine ⟨fun hk => hunpark (unpark_noKey hk), fun hk hst => hunpark (unpark_bad hk rfl hst), fun hk hst => hunpark (unpark_away hk rfl hst),
      fun hk hst hnone hp => hunpark (unpark_nothing hk rfl hst hnone hp), ?_, fun ha hk => hdtile (dtile_noKey hk ha),
      fun ha hk ho => hdtile (dtile_none hk ha ho), fun n ha hk ho => hdtile (dtile_one hk ha ho), fun ha => hdtile (dtile_all ha)⟩
    exact fun hk hst => ⟨fun hn hr => hunpark (unpark_noRoom hk rfl hst hn hr), fun hr hu => hunpark (unpark_places hk rfl hst hr hu)⟩
  case fwdMalformed => exact fun hg => hfwdrow (fwdrow_malformed hg)
  case fwdStays => exact fun hg hst => hfwdrow (fwdrow_stays hg (by rw [he]; exact hst))
  case fwdLeaves =>
    intro hg hw hst bs
    have hleaves := hfwdrow (fwdrow_leaves (h := a.toNat) hg hw he hst)
    split at hleaves
    case isTrue hp => exact hleaves.trans (if_pos hp).symm
    case isFalse hp => exact hleaves.trans (if_neg hp).symm
  case entry =>
    intro hb hn
    refine ⟨fun hp => congrArg Host.Outcome.next (ertGetOp_own hb hn hp), fun hp => ⟨fun ha hd => congrArg Host.Outcome.next (ertGetOp_down hb hn hp ha hd),
      fun tag bs ha hans hl => congrArg Host.Outcome.next (ertGetOp_answered hb hn hp ha hans hl)⟩, congrArg Host.Outcome.next (ertSetOp_sets hb hn)⟩
  case entryMisaligned => exact fun hb => ⟨congrArg Host.Outcome.next (ertGetOp_fault hb), congrArg Host.Outcome.next (ertSetOp_fault hb)⟩

end Sys2Proof.Machine
end
